-- ==== Sys2Proof/Word.lean ====
section
/-! DEFINITION. The machine's plain word types and the names of its register fields. -/

namespace Sys2Proof

/-- A 64-bit register or doubleword (01 R20, 02 R42). -/
abbrev Word := BitVec 64

/-- A byte of memory (00 R5). -/
abbrev Byte := BitVec 8

/-- A 5-bit register field of a 32-bit format: g0 to g31 (03 R80). -/
abbrev Reg := BitVec 5

/-- A 4-bit register field of a 16-bit group: g0 to g15 (03 R80). -/
abbrev Reg4 := BitVec 4

/-- A field that names an operand-extension register x0 to x7 (03 R80). -/
abbrev XReg := BitVec 3

/-- A field that names a tile t0 to t31 (03 R80, 09 R217). -/
abbrev TileName := BitVec 5

/-- A field that names a counter-bank set bs0 or bs1 (09 R217). -/
abbrev SetName := BitVec 1

end Sys2Proof
end

