-- ==== Sys2Proof/Config.lean ====
section
/-! DEFINITION. What the spec leaves open: opaque constants, no one of which has a value a proof can see. -/

namespace Sys2Proof.Config

/-- DESIGN CHOICE (log 2): the free values. The n-th use of a value that the spec leaves open reads `freeWord n`. -/
opaque freeWord : Nat → Word

/-- DESIGN CHOICE (log 2): the free choices between two outcomes that a rule lists (00 R11). -/
opaque freeBool : Nat → Bool

/-- DESIGN CHOICE (log 3): the ticks that the n-th step takes beyond one; timing is outside the model. -/
opaque stepTicks : Nat → Nat

/-- DESIGN CHOICE (log 8): the first fault-service and SYSC token; later ones count up from it. -/
opaque tokenBase : Word

/-- DESIGN CHOICE (log 54): the offset in the PF BAR of the window on the queue control blocks, which the spec does not give. -/
opaque qcbWindow : Nat

end Sys2Proof.Config
end

