-- ==== Sys2Proof/Machine/Bits.lean ====
section
/-! DEFINITION. Bit fields, extension and byte order: the helpers every other definition of the machine uses (00 R5, R9). -/

namespace Sys2Proof.Machine

/-- Bits [lo+len-1 : lo] of a word as an unsigned value (00 R9, `v[hi:lo]`). -/
def bits (w : Word) (lo len : Nat) : Nat := (w.toNat >>> lo) % 2 ^ len

/-- Bit n of a word (00 R5). -/
def bit (w : Word) (n : Nat) : Bool := (w.toNat >>> n) % 2 == 1

/-- `w` with bits [lo+len-1 : lo] replaced by the low bits of `v`. -/
def setBits (w : Word) (lo len : Nat) (v : Nat) : Word :=
  let mask : Word := BitVec.ofNat 64 ((2 ^ len - 1) <<< lo)
  (w &&& ~~~mask) ||| (BitVec.ofNat 64 ((v % 2 ^ len) <<< lo))

/-- A natural number as a 64-bit word: the low bits that fit (00 R9). -/
def word (n : Nat) : Word := BitVec.ofNat 64 n

/-- An integer as a 64-bit word, modulo 2^64 (02 R42). -/
def wordI (n : Int) : Word := BitVec.ofInt 64 n

/-- A Boolean as the word 1 or 0. -/
def wordB (b : Bool) : Word := if b then 1 else 0

/-- `sext(v[n-1:0], n)` of a word for 1 ≤ n ≤ 64 (00 R9). -/
def sextW (w : Word) (n : Nat) : Word :=
  let v := w.toNat % 2 ^ n
  if v < 2 ^ (n - 1) then word v else wordI ((v : Int) - 2 ^ n)

/-- The low n bits of a word, zero-extended (00 R9). -/
def zextW (w : Word) (n : Nat) : Word := word (w.toNat % 2 ^ n)

/-- A w-bit number read as two's complement (00 R9, `signed`). -/
def signedN (v w : Nat) : Int :=
  let u := v % 2 ^ w
  if u < 2 ^ (w - 1) then (u : Int) else (u : Int) - 2 ^ w

/-- An integer as an unsigned w-bit number, modulo 2^w. -/
def unsignedN (v : Int) (w : Nat) : Nat := (v % (2 ^ w : Int)).toNat

/-- An integer clamped to the range [lo, hi]. -/
def clampI (v lo hi : Int) : Int := if v < lo then lo else if hi < v then hi else v

/-- A little-endian byte list of length n for the low bits of a number (00 R5). -/
def leBytes : Nat → Nat → List Byte
  | 0, _ => []
  | n + 1, v => BitVec.ofNat 8 v :: leBytes n (v / 256)

/-- The number that a little-endian byte list holds (00 R5). -/
def leNat : List Byte → Nat
  | [] => 0
  | b :: bs => b.toNat + 256 * leNat bs

/-- The number of bits of `n`, with 0 for 0. -/
def bitLen (n : Nat) : Nat := if n = 0 then 0 else Nat.log2 n + 1

/-- The number of one bits among the low k bits of n (05 R116, `POPC`). -/
def popCount : Nat → Nat → Nat
  | 0, _ => 0
  | k + 1, n => n % 2 + popCount k (n / 2)

/-- The number of trailing zero bits among the low k bits of n (05 R116, `CTZ`). -/
def trailZeros : Nat → Nat → Nat
  | 0, _ => 0
  | k + 1, n => if n % 2 = 1 then 0 else 1 + trailZeros k (n / 2)

/-- The low k bits of n in reverse order (05 R116, `BREV`). -/
def revBits : Nat → Nat → Nat
  | 0, _ => 0
  | k + 1, n => (n % 2) * 2 ^ k + revBits k (n / 2)

/-- `a` rounded down to a multiple of `n`. -/
def alignDown (a n : Nat) : Nat := a - a % n

/-- The ceiling of a / b for b > 0. -/
def ceilDiv (a b : Nat) : Nat := (a + b - 1) / b

/-- The exclusive OR of two numbers' low three bits. -/
def xor3 (a b : Nat) : Nat := Nat.xor (a % 8) (b % 8)

/-- The first index at which a list holds an element that passes the test. -/
def findIdx? {α : Type} (p : α → Bool) : List α → Option Nat
  | [] => none
  | a :: as => if p a then some 0 else (findIdx? p as).map (· + 1)

/-- An element put into a list sorted by a test, before the first that it precedes. -/
def insertBy {α : Type} (before : α → α → Bool) (a : α) : List α → List α
  | [] => [a]
  | b :: bs => if before a b then a :: b :: bs else b :: insertBy before a bs

/-- A list sorted by a test; elements that the test leaves equal keep their order. -/
def sortBy {α : Type} (before : α → α → Bool) (l : List α) : List α := l.foldl (fun acc a => insertBy before a acc) []

/-- The numbers lo, lo + 1, …, lo + n − 1. -/
def upFrom (lo : Nat) : Nat → List Nat
  | 0 => []
  | n + 1 => lo :: upFrom (lo + 1) n

end Sys2Proof.Machine
end

