-- ==== Sys2Proof/Machine/Memory.lean ====
section
/-! DEFINITION. Memory: a list of (address, byte) pairs in one canonical form, and tables keyed by number. -/

namespace Sys2Proof.Machine

/-- A byte-addressed memory: addresses strictly rising, no listed byte equal to `Memory.unlisted`. -/
abbrev Memory := List Host.Cell

/-- What an unlisted address reads as: 0.
For device memory this is the spec's (22 R406: a byte never written since its frame's install reads zero);
for the scratchpads and host memory it is a DESIGN CHOICE (log 6). -/
def Memory.unlisted : Byte := 0

/-- The byte at an address. -/
def Memory.read : Memory → Nat → Byte
  | [], _ => Memory.unlisted
  | (k, b) :: m, a => if a = k then b else if a < k then Memory.unlisted else Memory.read m a

/-- The memory with one byte written; writing what an unlisted address reads as removes the entry. -/
def Memory.write : Memory → Nat → Byte → Memory
  | [], a, v => if v = Memory.unlisted then [] else [(a, v)]
  | (k, b) :: m, a, v =>
    if a = k then (if v = Memory.unlisted then m else (a, v) :: m)
    else if a < k then (if v = Memory.unlisted then (k, b) :: m else (a, v) :: (k, b) :: m)
    else (k, b) :: Memory.write m a v

/-- Every listed address is above `lo`, the addresses rise strictly, and no byte is the unlisted one. -/
def Memory.wfFrom : Nat → Memory → Bool
  | _, [] => true
  | lo, (k, b) :: m => decide (lo ≤ k) && decide (b ≠ Memory.unlisted) && Memory.wfFrom (k + 1) m

/-- The canonical form: equal memories are equal lists. -/
def Memory.wf (m : Memory) : Bool := Memory.wfFrom 0 m

/-- n bytes from an address upwards. -/
def Memory.readBytes (m : Memory) (a : Nat) : Nat → List Byte
  | 0 => []
  | n + 1 => m.read a :: Memory.readBytes m (a + 1) n

/-- Bytes written from an address upwards. -/
def Memory.writeBytes (m : Memory) (a : Nat) : List Byte → Memory
  | [] => m
  | b :: bs => Memory.writeBytes (m.write a b) (a + 1) bs

/-- A little-endian number of n bytes (00 R5). -/
def Memory.readNat (m : Memory) (a n : Nat) : Nat := leNat (m.readBytes a n)

/-- A little-endian number written as n bytes (00 R5). -/
def Memory.writeNat (m : Memory) (a n v : Nat) : Memory := m.writeBytes a (leBytes n v)

/-- The bytes of [lo, lo + n) set to the unlisted value. -/
def Memory.clear (m : Memory) (lo n : Nat) : Memory := m.filter fun c => decide (c.1 < lo ∨ lo + n ≤ c.1)

/-- A table from numbers to records; an absent key has no record. -/
abbrev Tbl (α : Type) := List (Nat × α)

/-- The record at a key, if there is one. -/
def Tbl.get? {α : Type} : Tbl α → Nat → Option α
  | [], _ => none
  | (k, v) :: t, a => if k = a then some v else Tbl.get? t a

/-- The record at a key, or a default. -/
def Tbl.getD {α : Type} (t : Tbl α) (a : Nat) (d : α) : α := (Tbl.get? t a).getD d

/-- The table with a record put at a key. -/
def Tbl.put {α : Type} : Tbl α → Nat → α → Tbl α
  | [], a, v => [(a, v)]
  | (k, w) :: t, a, v => if k = a then (a, v) :: t else (k, w) :: Tbl.put t a v

/-- The table without a key. -/
def Tbl.drop {α : Type} (t : Tbl α) (a : Nat) : Tbl α := t.filter fun e => e.1 != a

end Sys2Proof.Machine
end

