-- ==== Sys2Proof/Syntax.lean ====
section
/-! DEFINITION. The instructions: one constructor per row of spec/opcode_table.json, with the operands its encoding names.
The last 87 constructors are the rows that have no encoding: the indivisible steps of the device's units and of its host. -/

namespace Sys2Proof

/-- The order field of a load or store (03 R86, 05 R124). -/
inductive MemOrder where
  | plain | acqRel | direct | stream
  deriving DecidableEq, Repr

/-- The kinds of a load (04 R109). -/
inductive LdKind where
  | b | bz | h | hz | w | wz | d
  deriving DecidableEq, Repr

/-- The kinds of a store (04 R109). -/
inductive StKind where
  | b | h | w | d
  deriving DecidableEq, Repr

/-- The size of an atomic (04 R107). -/
inductive AtomSize where
  | w | d
  deriving DecidableEq, Repr

/-- The order of an atomic or a fence (04 R107). -/
inductive AtomOrder where
  | rlx | acq | rel | ar
  deriving DecidableEq, Repr

/-- The scope of an atomic or a fence (04 R107). -/
inductive Scope where
  | cl | die | prt | sys
  deriving DecidableEq, Repr

/-- The floating-point formats of a register (04 R107). -/
inductive FpFmt where
  | f64 | f32 | f16 | bf16
  deriving DecidableEq, Repr

/-- The rounding modes (02 R46). -/
inductive RoundMode where
  | rne | rz | rd | ru
  deriving DecidableEq, Repr

/-- The lane shapes of the PK major (04 R107). -/
inductive PkShape where
  | b8 | h4 | w2
  deriving DecidableEq, Repr

/-- A thread context: of a cluster (unit 0 to 511, slot 0 to 127), of a memory core (unit 0 to 511, slot 0 to 3) or of a
command core (unit 0 to 11, slot 0) (01 R16, R18; 21 R393). -/
inductive CoreKind where
  | barrel | memory | command
  deriving DecidableEq, Repr

/-- The name of a thread context: its core's kind, the unit and the slot. -/
structure Tid where
  kind : CoreKind
  unit : Nat
  slot : Nat
  deriving DecidableEq, Repr

/-- What the patrol, or the check at a read, found at the word it read (23 R429, R431). -/
inductive ScrubFinding where
  | clean | corrected | uncorrectable
  deriving DecidableEq, Repr

/-- The word that a check reads (23 R429 to R431): one of device memory by its physical address; a doubleword of a scratchpad by cluster
and offset; a word of a tile in use, of a line of an L1, of an RDC or of an SSB, or of an image in a config cache, each by its
place there; or what an instruction of a thread reads or computes: registers, the PC, an accumulator, a counter drain, a datapath. -/
inductive ScrubWord where
  | memory (pa : Nat)
  | scratch (cl off : Nat)
  | tile (cl n : Nat)
  | l1 (cl n dword : Nat)
  | rdc (die n dword : Nat)
  | ssb (cl n : Nat)
  | config (cl slot : Nat)
  | thread (t : Tid)
  deriving DecidableEq, Repr

/-- A firmware image as the boot ROM sees it: whether digest and signature verify (23 R432), and its digest. -/
structure BootImage where
  verifies : Bool
  digest   : BitVec 256
  deriving DecidableEq, Repr

/-- What one arrival from a peer carries (08 R215, 13 R322): its bytes, and the poison of their doublewords (05 R131). -/
structure PeerData where
  bytes  : List (BitVec 8)
  poison : List Bool
  deriving DecidableEq, Repr

/-- The register spaces that a host write reaches: the PF BAR and the BAR0 of a partition's VF (21 R376, 22 R396). -/
inductive RegSpace where
  | pf
  | vf (p : Nat)
  deriving DecidableEq, Repr

/-- The widths to which the CXL link trains (21 R374). -/
inductive LinkWidth where
  | x16 | x8
  deriving DecidableEq, Repr

/-- The rates to which the CXL link trains, in GT/s (21 R374). -/
inductive LinkRate where
  | gt128 | gt64 | gt32
  deriving DecidableEq, Repr

/-- The links whose flits carry a CRC with replay (23 R429). -/
inductive FlitLink where
  | bridge (boundary : Nat)
  | shuig (port : Nat)
  | cxl
  | mesh (die : Nat)
  deriving DecidableEq, Repr

/-- The instructions and steps of spec/opcode_table.json, in the order of its rows, but that the two rows a fetch can end in
(`ILLEGAL_ENCODING`, `INSTRUCTION_FETCH_FAULT`) follow the encoded instructions. -/
inductive Instr where
  /-- `ADD` (R116): Writes g[a] + g[b], wrapping modulo 2^64. -/
  | add (d : Reg) (a : Reg) (b : Reg)
  /-- `SUB` (R116): Writes g[a] - g[b], wrapping modulo 2^64. -/
  | sub (d : Reg) (a : Reg) (b : Reg)
  /-- `MUL` (R116): Writes the low 64 bits of the product. -/
  | mul (d : Reg) (a : Reg) (b : Reg)
  /-- `MULH` (R116): Writes the high 64 bits of the signed product. -/
  | mulh (d : Reg) (a : Reg) (b : Reg)
  /-- `MULHN` (R116): Writes the high 64 bits of the unsigned product. -/
  | mulhn (d : Reg) (a : Reg) (b : Reg)
  /-- `DIV` (R44): Writes the signed quotient, defined for every operand pair. -/
  | div (d : Reg) (a : Reg) (b : Reg)
  /-- `DIVN` (R44): Writes the unsigned quotient, defined for every operand pair. -/
  | divn (d : Reg) (a : Reg) (b : Reg)
  /-- `REM` (R44): Writes the signed remainder, defined for every operand pair. -/
  | rem (d : Reg) (a : Reg) (b : Reg)
  /-- `REMN` (R44): Writes the unsigned remainder, defined for every operand pair. -/
  | remn (d : Reg) (a : Reg) (b : Reg)
  /-- `AND` (R116): Writes the bitwise AND. -/
  | and (d : Reg) (a : Reg) (b : Reg)
  /-- `OR` (R116): Writes the bitwise OR. -/
  | or (d : Reg) (a : Reg) (b : Reg)
  /-- `XOR` (R116): Writes the bitwise XOR. -/
  | xor (d : Reg) (a : Reg) (b : Reg)
  /-- `ANDN` (R116): Writes A AND NOT B. -/
  | andn (d : Reg) (a : Reg) (b : Reg)
  /-- `ORN` (R116): Writes A OR NOT B. -/
  | orn (d : Reg) (a : Reg) (b : Reg)
  /-- `SHL` (R116): Shifts left by B[5:0]. -/
  | shl (d : Reg) (a : Reg) (b : Reg)
  /-- `SHR` (R116): Shifts right logically by B[5:0]. -/
  | shr (d : Reg) (a : Reg) (b : Reg)
  /-- `SRA` (R116): Shifts right arithmetically by B[5:0]. -/
  | sra (d : Reg) (a : Reg) (b : Reg)
  /-- `ROL` (R116): Rotates left by B[5:0]. -/
  | rol (d : Reg) (a : Reg) (b : Reg)
  /-- `ROR` (R116): Rotates right by B[5:0]. -/
  | ror (d : Reg) (a : Reg) (b : Reg)
  /-- `MIN` (R116): Writes the signed minimum. -/
  | min (d : Reg) (a : Reg) (b : Reg)
  /-- `MAX` (R116): Writes the signed maximum. -/
  | max (d : Reg) (a : Reg) (b : Reg)
  /-- `MINN` (R116): Writes the unsigned minimum. -/
  | minn (d : Reg) (a : Reg) (b : Reg)
  /-- `MAXN` (R116): Writes the unsigned maximum. -/
  | maxn (d : Reg) (a : Reg) (b : Reg)
  /-- `SLT` (R116): Writes 1 if A < B signed, else 0. -/
  | slt (d : Reg) (a : Reg) (b : Reg)
  /-- `SLTN` (R116): Writes 1 if A < B unsigned, else 0. -/
  | sltn (d : Reg) (a : Reg) (b : Reg)
  /-- `SEQ` (R116): Writes 1 if A = B, else 0. -/
  | seq (d : Reg) (a : Reg) (b : Reg)
  /-- `SNE` (R116): Writes 1 if A differs from B, else 0. -/
  | sne (d : Reg) (a : Reg) (b : Reg)
  /-- `CLZ` (R116): Counts leading zero bits, 64 for zero. -/
  | clz (d : Reg) (a : Reg)
  /-- `CTZ` (R116): Counts trailing zero bits, 64 for zero. -/
  | ctz (d : Reg) (a : Reg)
  /-- `POPC` (R116): Counts one bits. -/
  | popc (d : Reg) (a : Reg)
  /-- `BREV` (R116): Reverses the bit order. -/
  | brev (d : Reg) (a : Reg)
  /-- `BSWAP` (R116): Reverses the byte order. -/
  | bswap (d : Reg) (a : Reg)
  /-- `SEXT` (R116): Sign-extends A from bit B[5:0]. -/
  | sext (d : Reg) (a : Reg) (b : Reg)
  /-- `ZEXT` (R116): Zero-extends A from bit B[5:0]. -/
  | zext (d : Reg) (a : Reg) (b : Reg)
  /-- `BFX` (R117): Extracts a bit field of position and length given in B. -/
  | bfx (d : Reg) (a : Reg) (b : Reg)
  /-- `BFI` (R117): Inserts a bit field of A into g[d]. -/
  | bfi (d : Reg) (a : Reg) (b : Reg)
  /-- `CMOVZ` (R116): Writes A to g[d] only if B = 0. -/
  | cmovz (d : Reg) (a : Reg) (b : Reg)
  /-- `CMOVNZ` (R116): Writes A to g[d] only if B is nonzero. -/
  | cmovnz (d : Reg) (a : Reg) (b : Reg)
  /-- `ADDW` (R116): Adds in 32 bits and sign-extends the result. -/
  | addw (d : Reg) (a : Reg) (b : Reg)
  /-- `SUBW` (R116): Subtracts in 32 bits and sign-extends the result. -/
  | subw (d : Reg) (a : Reg) (b : Reg)
  /-- `MULW` (R116): Multiplies in 32 bits and sign-extends the result. -/
  | mulw (d : Reg) (a : Reg) (b : Reg)
  /-- `SHLW` (R116): Shifts the 32-bit value left by B[4:0] and sign-extends. -/
  | shlw (d : Reg) (a : Reg) (b : Reg)
  /-- `SHRW` (R116): Shifts the 32-bit value right logically by B[4:0] and sign-extends. -/
  | shrw (d : Reg) (a : Reg) (b : Reg)
  /-- `SRAW` (R116): Shifts the 32-bit value right arithmetically by B[4:0] and sign-extends. -/
  | sraw (d : Reg) (a : Reg) (b : Reg)
  /-- `ADDI` (R118): Adds a sign-extended 14-bit immediate. -/
  | addi (d : Reg) (a : Reg) (i : BitVec 14)
  /-- `ADDWI` (R118): Adds an immediate in 32 bits and sign-extends. -/
  | addwi (d : Reg) (a : Reg) (i : BitVec 14)
  /-- `ANDI` (R118): ANDs with a sign-extended immediate. -/
  | andi (d : Reg) (a : Reg) (i : BitVec 14)
  /-- `ORI` (R118): ORs with a zero-extended immediate. -/
  | ori (d : Reg) (a : Reg) (i : BitVec 14)
  /-- `XORI` (R118): XORs with a zero-extended immediate. -/
  | xori (d : Reg) (a : Reg) (i : BitVec 14)
  /-- `SHLI` (R118): Shifts left by an immediate amount. -/
  | shli (d : Reg) (a : Reg) (i : BitVec 6)
  /-- `SHRI` (R118): Shifts right logically by an immediate amount. -/
  | shri (d : Reg) (a : Reg) (i : BitVec 6)
  /-- `SRAI` (R118): Shifts right arithmetically by an immediate amount. -/
  | srai (d : Reg) (a : Reg) (i : BitVec 6)
  /-- `SLTI` (R118): Writes 1 if A is below the immediate, signed. -/
  | slti (d : Reg) (a : Reg) (i : BitVec 14)
  /-- `SLTNI` (R118): Writes 1 if A is below the sign-extended immediate, unsigned. -/
  | sltni (d : Reg) (a : Reg) (i : BitVec 14)
  /-- `LI` (R119): Writes a sign-extended 19-bit immediate. -/
  | li (d : Reg) (i : BitVec 19)
  /-- `LIX` (R119): Shifts x[k] left by 21 and ORs in a 21-bit immediate. -/
  | lix (k : XReg) (i : BitVec 21)
  /-- `XMOV` (R120): Copies a g register into an x register. -/
  | xmov (d : XReg) (a : Reg)
  /-- `MOVGX` (R120): Copies an x register into a g register. -/
  | movgx (d : Reg) (a : XReg)
  /-- `XCLR` (R120): Clears an x register. -/
  | xclr (d : XReg)
  /-- `LDB` (R121): Loads a sign-extended byte with the given order. -/
  | ldb (v : Reg) (b : Reg) (o : MemOrder) (i : BitVec 9)
  /-- `LDBZ` (R121): Loads a zero-extended byte. -/
  | ldbz (v : Reg) (b : Reg) (o : MemOrder) (i : BitVec 9)
  /-- `LDH` (R121): Loads a sign-extended halfword. -/
  | ldh (v : Reg) (b : Reg) (o : MemOrder) (i : BitVec 9)
  /-- `LDHZ` (R121): Loads a zero-extended halfword. -/
  | ldhz (v : Reg) (b : Reg) (o : MemOrder) (i : BitVec 9)
  /-- `LDW` (R121): Loads a sign-extended word. -/
  | ldw (v : Reg) (b : Reg) (o : MemOrder) (i : BitVec 9)
  /-- `LDWZ` (R121): Loads a zero-extended word. -/
  | ldwz (v : Reg) (b : Reg) (o : MemOrder) (i : BitVec 9)
  /-- `LDD` (R121): Loads a doubleword. -/
  | ldd (v : Reg) (b : Reg) (o : MemOrder) (i : BitVec 9)
  /-- `STB` (R121): Stores the low byte with the given order. -/
  | stb (v : Reg) (b : Reg) (o : MemOrder) (i : BitVec 9)
  /-- `STH` (R121): Stores the low halfword. -/
  | sth (v : Reg) (b : Reg) (o : MemOrder) (i : BitVec 9)
  /-- `STW` (R121): Stores the low word. -/
  | stw (v : Reg) (b : Reg) (o : MemOrder) (i : BitVec 9)
  /-- `STD` (R121): Stores a doubleword. -/
  | std (v : Reg) (b : Reg) (o : MemOrder) (i : BitVec 9)
  /-- `LDX` (R121): Indexed load of the kind in func, address g[a] + (g[b] << log2 size). -/
  | ldx (d : Reg) (a : Reg) (b : Reg) (k : LdKind) (o : MemOrder)
  /-- `STX` (R121): Indexed store of the kind in func. -/
  | stx (d : Reg) (a : Reg) (b : Reg) (k : StKind) (o : MemOrder)
  /-- `AADD` (R157): Atomic add at the home, returning the old value. -/
  | aadd (d : Reg) (a : Reg) (b : Reg) (s : AtomSize) (o : AtomOrder) (c : Scope)
  /-- `AAND` (R157): Atomic AND at the home. -/
  | aand (d : Reg) (a : Reg) (b : Reg) (s : AtomSize) (o : AtomOrder) (c : Scope)
  /-- `AOR` (R157): Atomic OR at the home. -/
  | aor (d : Reg) (a : Reg) (b : Reg) (s : AtomSize) (o : AtomOrder) (c : Scope)
  /-- `AXOR` (R157): Atomic XOR at the home. -/
  | axor (d : Reg) (a : Reg) (b : Reg) (s : AtomSize) (o : AtomOrder) (c : Scope)
  /-- `AMIN` (R157): Atomic signed minimum at the home. -/
  | amin (d : Reg) (a : Reg) (b : Reg) (s : AtomSize) (o : AtomOrder) (c : Scope)
  /-- `AMAX` (R157): Atomic signed maximum at the home. -/
  | amax (d : Reg) (a : Reg) (b : Reg) (s : AtomSize) (o : AtomOrder) (c : Scope)
  /-- `AMINN` (R157): Atomic unsigned minimum at the home. -/
  | aminn (d : Reg) (a : Reg) (b : Reg) (s : AtomSize) (o : AtomOrder) (c : Scope)
  /-- `AMAXN` (R157): Atomic unsigned maximum at the home. -/
  | amaxn (d : Reg) (a : Reg) (b : Reg) (s : AtomSize) (o : AtomOrder) (c : Scope)
  /-- `ASWAP` (R157): Atomic swap at the home. -/
  | aswap (d : Reg) (a : Reg) (b : Reg) (s : AtomSize) (o : AtomOrder) (c : Scope)
  /-- `CAS` (R157): Atomic compare-and-swap at the home. -/
  | cas (d : Reg) (a : Reg) (b : Reg) (s : AtomSize) (o : AtomOrder) (c : Scope)
  /-- `FENCE` (R159): Orders the thread's accesses as acquire, release or both at a scope. -/
  | fence (o : AtomOrder) (c : Scope)
  /-- `FENCEI` (R160): Waits for stores to be confirmed and discards prefetched instructions and fetched L1 lines. -/
  | fencei
  /-- `J` (R133): Jumps PC-relative by a 24-bit halfword offset. -/
  | j (o : BitVec 24)
  /-- `JL` (R133): Writes lk = PC + 4 and jumps PC-relative. -/
  | jl (o : BitVec 24)
  /-- `JR` (R134): Jumps to g[a], trapping misaligned on an odd target. -/
  | jr (a : Reg)
  /-- `JLR` (R134): Links and jumps to g[a]. -/
  | jlr (a : Reg)
  /-- `BEQ` (R132): Branches if equal. -/
  | beq (a : Reg) (b : Reg) (o : BitVec 14)
  /-- `BNE` (R132): Branches if not equal. -/
  | bne (a : Reg) (b : Reg) (o : BitVec 14)
  /-- `BLT` (R132): Branches if less than, signed. -/
  | blt (a : Reg) (b : Reg) (o : BitVec 14)
  /-- `BGE` (R132): Branches if greater or equal, signed. -/
  | bge (a : Reg) (b : Reg) (o : BitVec 14)
  /-- `BLTN` (R132): Branches if less than, unsigned. -/
  | bltn (a : Reg) (b : Reg) (o : BitVec 14)
  /-- `BGEN` (R132): Branches if greater or equal, unsigned. -/
  | bgen (a : Reg) (b : Reg) (o : BitVec 14)
  /-- `FADD` (R139): Floating-point add, rounded once in the encoded mode. -/
  | fadd (d : Reg) (a : Reg) (b : Reg) (f : FpFmt) (m : RoundMode)
  /-- `FSUB` (R139): Floating-point subtract. -/
  | fsub (d : Reg) (a : Reg) (b : Reg) (f : FpFmt) (m : RoundMode)
  /-- `FMUL` (R139): Floating-point multiply. -/
  | fmul (d : Reg) (a : Reg) (b : Reg) (f : FpFmt) (m : RoundMode)
  /-- `FDIV` (R139): Floating-point divide. -/
  | fdiv (d : Reg) (a : Reg) (b : Reg) (f : FpFmt) (m : RoundMode)
  /-- `FSQRT` (R139): Floating-point square root. -/
  | fsqrt (d : Reg) (a : Reg) (f : FpFmt) (m : RoundMode)
  /-- `FMAD` (R140): Fused A x B + old g[d], one rounding. -/
  | fmad (d : Reg) (a : Reg) (b : Reg) (f : FpFmt) (m : RoundMode)
  /-- `FNMAD` (R140): Fused old g[d] - A x B, one rounding. -/
  | fnmad (d : Reg) (a : Reg) (b : Reg) (f : FpFmt) (m : RoundMode)
  /-- `FMIN` (R50): minimumNumber of the operands. -/
  | fmin (d : Reg) (a : Reg) (b : Reg) (f : FpFmt)
  /-- `FMAX` (R50): maximumNumber of the operands. -/
  | fmax (d : Reg) (a : Reg) (b : Reg) (f : FpFmt)
  /-- `FNEG` (R141): Inverts the sign, canonical NaN for NaN input. -/
  | fneg (d : Reg) (a : Reg) (f : FpFmt)
  /-- `FABS` (R141): Clears the sign. -/
  | fabs (d : Reg) (a : Reg) (f : FpFmt)
  /-- `FCPYS` (R141): Magnitude of A with the sign of B. -/
  | fcpys (d : Reg) (a : Reg) (b : Reg) (f : FpFmt)
  /-- `FEQ` (R51): Quiet equality comparison writing 1 or 0. -/
  | feq (d : Reg) (a : Reg) (b : Reg) (f : FpFmt)
  /-- `FLT` (R51): Signalling less-than comparison. -/
  | flt (d : Reg) (a : Reg) (b : Reg) (f : FpFmt)
  /-- `FLE` (R51): Signalling less-or-equal comparison. -/
  | fle (d : Reg) (a : Reg) (b : Reg) (f : FpFmt)
  /-- `FCLASS` (R142): Writes the one-hot class mask of A. -/
  | fclass (d : Reg) (a : Reg) (f : FpFmt)
  /-- `FRND` (R143): Rounds A to an integral value in the encoded mode. -/
  | frnd (d : Reg) (a : Reg) (f : FpFmt) (m : RoundMode)
  /-- `FCVT` (R144): Converts between IEEE formats. -/
  | fcvt (d : Reg) (a : Reg) (t : FpFmt) (s : FpFmt) (m : RoundMode)
  /-- `FTOI` (R52): Converts to signed 64-bit integer with saturation. -/
  | ftoi (d : Reg) (a : Reg) (s : FpFmt) (m : RoundMode)
  /-- `FTON` (R52): Converts to unsigned 64-bit integer with saturation. -/
  | fton (d : Reg) (a : Reg) (s : FpFmt) (m : RoundMode)
  /-- `ITOF` (R52): Converts a signed integer to floating point. -/
  | itof (d : Reg) (a : Reg) (t : FpFmt) (m : RoundMode)
  /-- `NTOF` (R52): Converts an unsigned integer to floating point. -/
  | ntof (d : Reg) (a : Reg) (t : FpFmt) (m : RoundMode)
  /-- `B8TOF` (R145): Converts a binary8 byte to an IEEE format using x7 options. -/
  | b8tof (d : Reg) (a : Reg) (t : FpFmt)
  /-- `FTOB8` (R146): Converts an IEEE value to binary8 using x7 options. -/
  | ftob8 (d : Reg) (a : Reg) (s : FpFmt)
  /-- `PADD` (R147): Packed lane add, wrapping. -/
  | padd (d : Reg) (a : Reg) (b : Reg) (h : PkShape)
  /-- `PSUB` (R147): Packed lane subtract, wrapping. -/
  | psub (d : Reg) (a : Reg) (b : Reg) (h : PkShape)
  /-- `PMUL` (R147): Packed lane multiply, wrapping. -/
  | pmul (d : Reg) (a : Reg) (b : Reg) (h : PkShape)
  /-- `PADDS` (R147): Packed signed saturating add. -/
  | padds (d : Reg) (a : Reg) (b : Reg) (h : PkShape)
  /-- `PSUBS` (R147): Packed signed saturating subtract. -/
  | psubs (d : Reg) (a : Reg) (b : Reg) (h : PkShape)
  /-- `PMIN` (R147): Packed signed minimum. -/
  | pmin (d : Reg) (a : Reg) (b : Reg) (h : PkShape)
  /-- `PMAX` (R147): Packed signed maximum. -/
  | pmax (d : Reg) (a : Reg) (b : Reg) (h : PkShape)
  /-- `PMINN` (R147): Packed unsigned minimum. -/
  | pminn (d : Reg) (a : Reg) (b : Reg) (h : PkShape)
  /-- `PMAXN` (R147): Packed unsigned maximum. -/
  | pmaxn (d : Reg) (a : Reg) (b : Reg) (h : PkShape)
  /-- `PCEQ` (R147): Packed equality mask. -/
  | pceq (d : Reg) (a : Reg) (b : Reg) (h : PkShape)
  /-- `PCGT` (R147): Packed signed greater-than mask. -/
  | pcgt (d : Reg) (a : Reg) (b : Reg) (h : PkShape)
  /-- `PSHUF` (R148): Selects lanes of A under control of B. -/
  | pshuf (d : Reg) (a : Reg) (b : Reg) (h : PkShape)
  /-- `PDOT` (R149): Adds the signed lane dot product to g[d]. -/
  | pdot (d : Reg) (a : Reg) (b : Reg) (h : PkShape)
  /-- `RNGP` (R150): Computes a Philox4x32-10 block into g[d] and x5. -/
  | rngp (d : Reg) (a : Reg) (b : Reg)
  /-- `RNGF64` (R71): Converts a 64-bit word to an f64 uniform in (0,1). -/
  | rngf64 (d : Reg) (a : Reg)
  /-- `RNGF32` (R71): Converts bits 31:8 to an f32 uniform in (0,1). -/
  | rngf32 (d : Reg) (a : Reg)
  /-- `RPINIT` (R163): Initialises a rope with n arrivals per phase. -/
  | rpinit (a : Reg) (b : Reg)
  /-- `RPARR` (R163): Arrives at a rope with bytes, possibly completing the phase. -/
  | rparr (d : Reg) (a : Reg) (b : Reg)
  /-- `RPEXP` (R163): Adds expected bytes to a rope. -/
  | rpexp (a : Reg) (b : Reg)
  /-- `RPWAIT` (R163): Waits for a rope phase to complete or the rope to break. -/
  | rpwait (d : Reg) (a : Reg) (b : Reg)
  /-- `RPTEST` (R163): Reads rope word 0 as an acquire load. -/
  | rptest (d : Reg) (a : Reg)
  /-- `DCDEC` (R174): Releases and decrements a header's dependency counter. -/
  | dcdec (a : Reg)
  /-- `FRES` (R166): Resolves a future and serves its records. -/
  | fres (a : Reg) (b : Reg)
  /-- `FPOIS` (R166): Poisons a future and serves its records. -/
  | fpois (a : Reg) (b : Reg)
  /-- `FWAIT` (R166): Waits for a future, parking until it resolves. -/
  | fwait (d : Reg) (a : Reg) (b : Reg)
  /-- `FLINK` (R166): Links a future to a header counter, decrementing at once if resolved. -/
  | flink (a : Reg) (b : Reg)
  /-- `FTEST` (R166): Reads the future word as an acquire load. -/
  | ftest (d : Reg) (a : Reg)
  /-- `SPAWN` (R172): Releases and registers one task header. -/
  | spawn (a : Reg)
  /-- `SPAWNR` (R173): Registers a range of N instances, optionally binding a rope. -/
  | spawnr (d : Reg) (a : Reg) (b : Reg)
  /-- `EXIT` (R175): Ends the task under the free or ordered retiring rules. -/
  | exit
  /-- `YIELD` (R176): Checkpoints the task if the queue head has priority at least its own. -/
  | yield
  /-- `TKEY` (R178): Builds an ordering key from timestamp and tie. -/
  | tkey (d : Reg) (a : Reg) (b : Reg)
  /-- `RSSET` (R179): Writes a cairn entry of the running cluster. -/
  | rsset (d : Reg) (a : Reg) (b : Reg)
  /-- `RSCLR` (R180): Invalidates overlapping cairn entries. -/
  | rsclr (a : Reg) (b : Reg)
  /-- `RSQRY` (R182): Returns the cluster placement would choose for a header. -/
  | rsqry (d : Reg) (a : Reg)
  /-- `WAITWP` (R184): Waits until a write pointer reaches a target or breaks. -/
  | waitwp (d : Reg) (w : BitVec 4) (b : Reg)
  /-- `MSND` (R185): Releases and sends a message to a logical cluster's inbox. -/
  | msnd (a : Reg) (b : Reg)
  /-- `MRCV` (R186): Takes the oldest inbox message without waiting. -/
  | mrcv (d : Reg) (b : Reg)
  /-- `CLID` (R187): Writes the context, thread, cluster count and logical number. -/
  | clid (d : Reg)
  /-- `SERVE` (R190): Sends an argument packet to a server and waits for its results. -/
  | serve (d : Reg) (a : Reg) (n : BitVec 3) (r : BitVec 3) (s : BitVec 8)
  /-- `STRM` (R208): Starts a stream-mode image on a fabric. -/
  | strm (a : Reg) (b : Reg)
  /-- `STRMR` (R210): Restarts a stream from its completion record. -/
  | strmr (a : Reg)
  /-- `COPY` (R203): Hands a row copy to a memory core. -/
  | copy (a : Reg)
  /-- `COPYP` (R206): Runs a registered loader program on a memory core. -/
  | copyp (a : Reg)
  /-- `GATHER` (R207): Hands an indexed gather to an indirect-stream engine. -/
  | gather (a : Reg)
  /-- `UMBRA` (R211): Opens an umbra over a buffer and reserves shadow chunks. -/
  | umbra (d : Reg) (a : Reg) (b : Reg)
  /-- `PUBLISH` (R213): Publishes or discards an umbra's shadow and closes it. -/
  | publish (a : Reg) (b : Reg)
  /-- `RCOPY` (R215): Sends bytes to a peer Brerus over Shuig. -/
  | rcopy (a : Reg)
  /-- `TALLOC` (R218): Binds the named tiles all at once or none. -/
  | talloc (d : Reg) (a : Reg)
  /-- `TFREE` (R218): Unbinds the named tiles after earlier uses complete. -/
  | tfree (a : Reg)
  /-- `TSHAPE` (R225): Sets a tile's shape word. -/
  | tshape (d : TileName) (a : Reg)
  /-- `TSHGET` (R225): Reads a tile's shape word after earlier tile instructions. -/
  | tshget (d : Reg) (a : TileName)
  /-- `TLD` (R231): Loads tile rows from memory. -/
  | tld (d : TileName) (a : Reg) (b : Reg)
  /-- `TST` (R231): Stores tile rows to memory and holds the thread until confirmed. -/
  | tst (d : TileName) (a : Reg) (b : Reg)
  /-- `TZERO` (R233): Zeroes a tile keeping its shape. -/
  | tzero (d : TileName)
  /-- `TMMA` (R234): Matrix multiply-accumulate C += A x B. -/
  | tmma (d : TileName) (a : TileName) (b : TileName)
  /-- `TADD` (R235): Elementwise tile add. -/
  | tadd (d : TileName) (a : TileName) (b : TileName)
  /-- `TMUL` (R235): Elementwise tile multiply. -/
  | tmul (d : TileName) (a : TileName) (b : TileName)
  /-- `TMAX` (R235): Elementwise tile maximumNumber. -/
  | tmax (d : TileName) (a : TileName) (b : TileName)
  /-- `TRSUM` (R236): Row sums in fixed order into an FP32 column. -/
  | trsum (d : TileName) (a : TileName)
  /-- `TRMAX` (R236): Row maxima into an FP32 column. -/
  | trmax (d : TileName) (a : TileName)
  /-- `TEXP2` (R237): Elementwise 2^x in FP32. -/
  | texp2 (d : TileName) (a : TileName)
  /-- `TSCAN` (R238): Fused linear-recurrence scan with carry tile from x4. -/
  | tscan (d : TileName) (a : TileName) (b : TileName)
  /-- `TCVT` (R239): Converts a tile's elements to another format. -/
  | tcvt (d : TileName) (a : TileName) (b : Reg)
  /-- `TGETE` (R233): Reads one tile element raw into a register. -/
  | tgete (d : Reg) (a : TileName) (b : Reg)
  /-- `TSETE` (R233): Writes one tile element raw. -/
  | tsete (d : TileName) (a : Reg) (b : Reg)
  /-- `TCHAIN` (R241): Joins a logical-order chain sum of tiles across clusters. -/
  | tchain (d : TileName) (a : Reg)
  /-- `TSYNC` (R227): Waits for every earlier tile instruction and memory access. -/
  | tsync
  /-- `CFMT` (R244): Loads a counting format descriptor into a set. -/
  | cfmt (d : SetName) (a : Reg)
  /-- `CSTEP` (R245): Counts four-bit products into lane banks. -/
  | cstep (d : SetName) (a : TileName) (b : TileName)
  /-- `CMERGE` (R246): Adds lane counters into the merge bank. -/
  | cmerge (d : SetName)
  /-- `CDRAIN` (R247): Drains counts into an FP32 accumulator with one rounding. -/
  | cdrain (d : TileName) (a : SetName) (b : TileName)
  /-- `CCLR` (R248): Clears a set's counters keeping its descriptor. -/
  | cclr (d : SetName)
  /-- `CDEPTH` (R248): Reads a set's depth word after earlier tile instructions. -/
  | cdepth (d : Reg) (a : SetName)
  /-- `CALLOC` (R218): Binds counter-bank sets all at once or none. -/
  | calloc (d : Reg) (a : Reg)
  /-- `CFREE` (R218): Unbinds counter-bank sets. -/
  | cfree (a : Reg)
  /-- `TRAP` (R262): Raises a software trap with a 12-bit code. -/
  | trap (c : BitVec 12)
  /-- `SYSC` (R263): Sends a request to the host and parks until the reply. -/
  | sysc (d : Reg) (a : Reg) (b : Reg)
  /-- `ERET` (R262): Returns from a trap to TPC in the previous mode. -/
  | eret
  /-- `MFS` (R254): Reads a system register. -/
  | mfs (d : Reg) (n : BitVec 10)
  /-- `MTS` (R254): Writes a system register within the mode's limits. -/
  | mts (s : Reg) (n : BitVec 10)
  /-- `CYC` (R264): Reads the device tick counter. -/
  | cyc (d : Reg)
  /-- `PERF` (R264): Reads a performance counter by id. -/
  | perf (d : Reg) (a : Reg)
  /-- `CINV` (R265): Invalidates L1 lines of a range. -/
  | cinv (a : Reg) (b : Reg)
  /-- `TLBINV` (R266): Removes translations from the cluster's TLBs and walk cache. -/
  | tlbinv (a : Reg) (b : Reg)
  /-- `BRK` (R262): Raises a break trap. -/
  | brk
  /-- `NOP` (R261): 32-bit no-operation. -/
  | nop
  /-- `WAKE` (R267): Ends the fault-service wait named by a token with retry or fatal. -/
  | wake (d : Reg) (a : Reg) (b : Reg)
  /-- `HALT` (R268): Ends the command core's event and frees its lock. -/
  | halt
  /-- `UDF` (R110): Always traps illegal with cause 4. -/
  | udf (x : BitVec 10)
  /-- `MOV_16` (R89): 16-bit move, as OR d, s, g0. -/
  | mov16 (d : Reg4) (s : Reg4)
  /-- `ADD_16` (R89): 16-bit two-address add. -/
  | add16 (d : Reg4) (s : Reg4)
  /-- `SUB_16` (R89): 16-bit two-address subtract. -/
  | sub16 (d : Reg4) (s : Reg4)
  /-- `AND_16` (R89): 16-bit two-address AND. -/
  | and16 (d : Reg4) (s : Reg4)
  /-- `OR_16` (R89): 16-bit two-address OR. -/
  | or16 (d : Reg4) (s : Reg4)
  /-- `XOR_16` (R89): 16-bit two-address XOR. -/
  | xor16 (d : Reg4) (s : Reg4)
  /-- `SHL_16` (R89): 16-bit two-address shift left. -/
  | shl16 (d : Reg4) (s : Reg4)
  /-- `SHR_16` (R89): 16-bit two-address logical shift right. -/
  | shr16 (d : Reg4) (s : Reg4)
  /-- `SRA_16` (R89): 16-bit two-address arithmetic shift right. -/
  | sra16 (d : Reg4) (s : Reg4)
  /-- `LDD_16` (R89): 16-bit doubleword load through a bare base. -/
  | ldd16 (d : Reg4) (s : Reg4)
  /-- `STD_16` (R89): 16-bit doubleword store through a bare base. -/
  | std16 (d : Reg4) (s : Reg4)
  /-- `LDW_16` (R89): 16-bit sign-extending word load. -/
  | ldw16 (d : Reg4) (s : Reg4)
  /-- `STW_16` (R89): 16-bit word store. -/
  | stw16 (d : Reg4) (s : Reg4)
  /-- `JR_16` (R89): 16-bit register jump. -/
  | jr16 (s : Reg4)
  /-- `JLR_16` (R89): 16-bit register jump with link PC + 2. -/
  | jlr16 (s : Reg4)
  /-- `NOP_16` (R89): 16-bit no-operation. -/
  | nop16
  /-- `RET_16` (R89): 16-bit return, as JR lk. -/
  | ret16
  /-- `EXIT_16` (R89): 16-bit EXIT. -/
  | exit16
  /-- `YIELD_16` (R89): 16-bit YIELD. -/
  | yield16
  /-- `ADDI_16` (R89): 16-bit add of a sign-extended 7-bit immediate. -/
  | addi16 (d : Reg4) (i : BitVec 7)
  /-- `LI_16` (R89): 16-bit load of a sign-extended 7-bit immediate. -/
  | li16 (d : Reg4) (i : BitVec 7)
  /-- `SHLI_16` (R89): 16-bit shift left by an immediate. -/
  | shli16 (d : Reg4) (i : BitVec 6)
  /-- `SHRI_16` (R89): 16-bit logical shift right by an immediate. -/
  | shri16 (d : Reg4) (i : BitVec 6)
  /-- `LDSP` (R136): Loads a doubleword at sp + imm7 x 8. -/
  | ldsp (d : Reg4) (i : BitVec 7)
  /-- `STSP` (R136): Stores a doubleword at sp + imm7 x 8. -/
  | stsp (d : Reg4) (i : BitVec 7)
  /-- `BEQZ` (R89): Branches if the register is zero. -/
  | beqz (d : Reg4) (i : BitVec 7)
  /-- `BNEZ` (R89): Branches if the register is nonzero. -/
  | bnez (d : Reg4) (i : BitVec 7)
  /-- `J_16` (R89): 16-bit PC-relative jump. -/
  | j16 (i : BitVec 12)
  /-- `JL_16` (R89): 16-bit jump with link PC + 2. -/
  | jl16 (i : BitVec 12)
  /-- `TRAP_16` (R89): 16-bit software trap with a 12-bit code. -/
  | trap16 (i : BitVec 12)
  /-- `ILLEGAL_ENCODING` (R111): An encoding that no instruction claims (unassigned major or func, nonzero field that has to be 0, op2 3, bad ext) traps illegal with its cause and word. -/
  | illegalEncoding (cause : BitVec 8) (w : BitVec 32)
  /-- `INSTRUCTION_FETCH_FAULT` (R257): A fetch at a non-canonical PC, a scratchpad-window PC or elsewhere in the reserved range traps at once without any instruction being decoded. -/
  | instructionFetchFault
  /-- `TASK_FORWARD_ARRIVE` (R26): A task forwarded over the bridge is enqueued by the receiving dispatcher. -/
  | taskForwardArrive (die : Nat)
  /-- `TASK_DISPATCH` (R28): A freed thread context takes the head of the cluster's ready queue. -/
  | taskDispatch (cl : Nat)
  /-- `RANGE_INSTANCE_PLACE` (R39): A die places its next range instance when a context is free and queues are empty. -/
  | rangeInstancePlace (p : Nat) (die : Nat)
  /-- `RANGE_STEAL` (R39): A die with no remaining instances steals half of the largest share. -/
  | rangeSteal (p : Nat) (die : Nat)
  /-- `TASK_AGING` (R29): A task waiting 2^20 ticks in a ready queue rises one priority level. -/
  | taskAging (cl : Nat)
  /-- `CHECKPOINT_TAKE` (R33): A chosen checkpoint victim is parked once its current instruction retires. -/
  | checkpointTake (t : Tid)
  /-- `SUMMIT_HOLDER_DISPATCH` (R35): The summit holder is dispatched ahead of the queue, freeing a context if needed. -/
  | summitHolderDispatch (p : Nat) (c : Nat)
  /-- `SUMMIT_REPORT` (R311): Each die reports its smallest unfinished ordered key every 512 ticks. -/
  | summitReport (die : Nat) (p : Nat) (c : Nat)
  /-- `COMMIT` (R312): The sequencer atomically applies the summit holder's lines and broadcasts them. -/
  | commit (p : Nat) (c : Nat)
  /-- `IRREVOCABLE_COMMIT` (R316): The summit holder that must stall commits its buffer and becomes irrevocable. -/
  | irrevocableCommit (p : Nat) (c : Nat)
  /-- `TILE_REQUEST_GRANT` (R219): A waiting TALLOC or CALLOC binds once enough tiles or sets free. -/
  | tileRequestGrant (cl : Nat)
  /-- `TILE_QUEUE_EXECUTE` (R226): The array executes the next queued tile or counting instruction. -/
  | tileQueueExecute (u : Nat)
  /-- `TCHAIN_MESSAGE_ARRIVE` (R241): A chain member's tile message arrives and its waiting TCHAIN adds and forwards. -/
  | tchainMessageArrive (cl : Nat)
  /-- `DIRECTORY_UPDATE` (R181): A residency directory reflects a cairn change within its delay. -/
  | directoryUpdate (die : Nat)
  /-- `MEMORY_ACCESS_RETIRE` (R128): Load data or store confirmation returns and the access retires. -/
  | memoryAccessRetire (t : Tid)
  /-- `RDC_INVALIDATE` (R319): An RDC invalidation from a line's home arrives at a die. -/
  | rdcInvalidate (die : Nat)
  /-- `WALK_COMPLETE` (R403): A stage-1 walk fills the TLB with retry wake or writes a fault record. -/
  | walkComplete (n : Nat)
  /-- `ENGINE_LINE_DELIVER` (R204): An engine delivers a line or element, advancing the armed write pointer. -/
  | engineLineDeliver (r : Nat)
  /-- `ENGINE_COMPLETE` (R201): A request writes its record then performs its completion action. -/
  | engineComplete (r : Nat)
  /-- `PUBLISH_FLIP` (R213): After earlier UMB requests complete the umbra's chunk selectors flip. -/
  | publishFlip (p : Nat) (u : Nat)
  /-- `IMAGE_FETCH_DONE` (R191): An image fetched from memory lands in the config cache. -/
  | imageFetchDone (cl : Nat) (f : Nat)
  /-- `IMAGE_LOAD_DONE` (R191): A validated image is loaded into the victim fabric. -/
  | imageLoadDone (cl : Nat) (f : Nat)
  /-- `PACKET_ENTRY` (R273): A call packet enters the fabric once every argument destination has room. -/
  | packetEntry (cl : Nat) (f : Nat)
  /-- `ELEMENT_FIRE` (R272): An element with operands and output room consumes tokens and emits a result. -/
  | elementFire (cl : Nat) (f : Nat) (e : Nat)
  /-- `AGE_ACCESS_COMPLETE` (R279): An AGE load or store completes and emits its result token. -/
  | ageAccessComplete (cl : Nat) (f : Nat) (e : Nat)
  /-- `DELAY_EMIT` (R282): A delay element emits a token its configured ticks after arrival. -/
  | delayEmit (cl : Nat) (f : Nat) (e : Nat)
  /-- `STREAM_ENGINE_EMIT` (R285): A stream engine emits the next address token of its walk. -/
  | streamEngineEmit (cl : Nat) (f : Nat) (e : Nat)
  /-- `SERVE_RESULTS_RETURN` (R190): The last result of a packet arrives and results are written or a trap taken. -/
  | serveResultsReturn (cl : Nat) (f : Nat)
  /-- `STREAM_COMPLETE` (R285): A stream completes when every element has passed EOI and stores are confirmed. -/
  | streamComplete (cl : Nat) (f : Nat)
  /-- `STREAM_FATAL_STOP` (R209): A fatal fault stops a stream, records counters and loads the drain image. -/
  | streamFatalStop (cl : Nat) (f : Nat)
  /-- `FABRIC_RELEASE` (R294): A drained fabric is released once its occupancy count is 0. -/
  | fabricRelease (cl : Nat) (f : Nat)
  /-- `RATE_WINDOW` (R288): A new 1024-tick admission window starts at each fabric. -/
  | rateWindow
  /-- `BELAY_GRANT` (R425): The belay grants the head request when the current limits allow. -/
  | belayGrant (die : Nat)
  /-- `BELAY_STRETCH_LIMIT` (R425): Granted current above S for 66,000 ticks blocks grants until it falls. -/
  | belayStretchLimit (die : Nat)
  /-- `TAIL_DOORBELL` (R377): A host TAIL write advances a queue's tail or latches it in TSHAD when switched out. -/
  | tailDoorbell (p : Nat) (q : Nat) (v : Word)
  /-- `SVCHEAD_WRITE` (R383): The host's consumption offset frees room in the service ring. -/
  | svcheadWrite (p : Nat) (v : Word)
  /-- `EVENT_HANDOFF` (R393): The event queue hands an event to an idle command core when its lock is free. -/
  | eventHandoff (core : Nat)
  /-- `PAD` (R381): A padding packet is skipped. -/
  | pad (p : Nat) (q : Nat)
  /-- `NOP_PACKET` (R381): A no-operation packet is processed. -/
  | nopPacket (p : Nat) (q : Nat)
  /-- `LAUNCH` (R388): Applies a configuration delta with selective drain and spawns tasks. -/
  | launch (p : Nat) (q : Nat)
  /-- `SIGNAL_RESOLVE` (R381): A SIGNAL of kind 0 resolves a future as FRES does. -/
  | signalResolve (p : Nat) (q : Nat)
  /-- `SIGNAL_ROPE_BYTES` (R381): A SIGNAL of kind 1 subtracts bytes from a rope. -/
  | signalRopeBytes (p : Nat) (q : Nat)
  /-- `SIGNAL_BAD_KIND` (R381): A SIGNAL with an unassigned kind is refused with code 23. -/
  | signalBadKind (p : Nat) (q : Nat)
  /-- `WAITF` (R382): Holds the queue until a future leaves the empty states. -/
  | waitf (p : Nat) (q : Nat)
  /-- `WAITF_RESOLVED` (R382): The awaited future resolves and the held queue continues. -/
  | waitfResolved (p : Nat) (q : Nat)
  /-- `REPLY` (R384): Wakes the SYSC named by its token with a result. -/
  | reply (p : Nat) (q : Nat)
  /-- `QUEUE_SWITCH_OUT` (R387): A queue finishes its packet, enters STATE 3 and snapshots PROGRESS. -/
  | queueSwitchOut (p : Nat) (q : Nat)
  /-- `QUEUE_SWITCH_IN` (R387): A queue applies its latched tail and returns to running. -/
  | queueSwitchIn (p : Nat) (q : Nat)
  /-- `WATCHDOG_EXPIRE` (R395): An event exceeding 2^20 ticks resets its core and frees its lock. -/
  | watchdogExpire (core : Nat)
  /-- `WATCHDOG_RECOVERY` (R395): A recovery event reprocesses the queue, halting with code 7 on a second expiry. -/
  | watchdogRecovery (core : Nat)
  /-- `HOST_CXL_MEM_ACCESS` (R375): A host CXL.mem access performs at the line's home as a .sys agent. -/
  | hostCxlMemAccess (write : Bool) (pa : Nat) (size : Nat) (v : Word)
  /-- `ATS_PAGE_RESPONSE` (R412): The host's page response wakes a host-context thread with retry or fatal. -/
  | atsPageResponse (t : Tid) (kind : BitVec 2)
  /-- `RCOPY_REMOTE_ARRIVAL` (R322): RCOPY data arrives at a peer, publishing its umbra or arriving at its rope. -/
  | rcopyRemoteArrival (p : Nat) (rdst : Word) (data : PeerData) (last : Bool) (rtgt : Word) (pub : Bool) (len : Word)
  /-- `PDESC_WRITE` (R397): Creates or destroys a partition subject to checks. -/
  | pdescWrite (p : Nat) (v : Word)
  /-- `PSHARE_WRITE` (R398): Sets RDC slice mask and bridge weight, rejecting bad mask populations. -/
  | pshareWrite (p : Nat) (v : Word)
  /-- `UMBPOOL_WRITE` (R396): Sets the umbra frame pool, ignored while an umbra is open. -/
  | umbpoolWrite (p : Nat) (v : Word)
  /-- `SDCTL_SHOOTDOWN` (R410): Starts a numbered partition-wide TLB shoot-down. -/
  | sdctlShootdown (p : Nat) (v : Word)
  /-- `SHOOTDOWN_RECEIVE` (R411): A TLB receives a shoot-down, removes covered entries and drops stale fills. -/
  | shootdownReceive (p : Nat) (cl : Nat)
  /-- `S2_INSTALL` (R404): Maps a free-clean physical frame to a guest frame. -/
  | s2Install (p : Nat) (v : Word)
  /-- `S2_FREE` (R406): Unmaps a guest frame, purges caches and starts scrubbing. -/
  | s2Free (p : Nat) (v : Word)
  /-- `S2_PROTECT` (R405): Sets a guest frame's write permission, writing back dirty lines for W = 0. -/
  | s2Protect (p : Nat) (v : Word)
  /-- `S2CMD_UNASSIGNED` (R404): OP 0 is refused with code 5. -/
  | s2cmdUnassigned (p : Nat) (v : Word)
  /-- `FRAME_SCRUB_DONE` (R406): Zeroing completes and the frame becomes free-clean. -/
  | frameScrubDone (p : Nat)
  /-- `PROTECT_WRITEBACK_DONE` (R405): The last dirty-line write-back of a protect completes and busy clears. -/
  | protectWritebackDone (p : Nat)
  /-- `S2WAKE_WRITE` (R405): Wakes the stage-2 waiter named by S2TOK with the given kind. -/
  | s2wakeWrite (p : Nat) (v : Word)
  /-- `CTXCMD_SLICE_END` (R415): Starts a terminator sweep to switch to the incoming context. -/
  | ctxcmdSliceEnd (p : Nat) (v : Word)
  /-- `TERMINATOR_TOKEN_ARRIVE` (R415): A cluster stops, forwards the token, saves, loads and applies its inbox. -/
  | terminatorTokenArrive (p : Nat) (l : Nat)
  /-- `CTXCMD_STOP` (R421): Saves the resident context, flushes writes, reports dirty pages and stops. -/
  | ctxcmdStop (p : Nat) (v : Word)
  /-- `CTXCMD_FABRIC_DRAIN` (R419): Loads the drain image into a named fabric. -/
  | ctxcmdFabricDrain (p : Nat) (v : Word)
  /-- `CTXCMD_DIRTY_REPORT` (R421): Writes a dirty-page report without stopping. -/
  | ctxcmdDirtyReport (p : Nat) (v : Word)
  /-- `CTXCMD_IGNORED` (R421): Command codes 0 and 5 to 15 are ignored. -/
  | ctxcmdIgnored (p : Nat) (v : Word)
  /-- `FABRIC_HANG_REPORT` (R419): A fabric holding tokens with no firing for 2^20 ticks raises an error report. -/
  | fabricHangReport (cl : Nat) (f : Nat)
  /-- `FUNCTION_LEVEL_RESET` (R420): A VF reset ends every task, invalidates save areas and disables queues. -/
  | functionLevelReset (p : Nat)
  /-- `PCAP_WRITE` (R426): Sets the power cap and re-evaluates the shedding order. -/
  | pcapWrite (v : Word)
  /-- `WATCH_SAMPLE` (R427): Armed watch entries are sampled every 4096 ticks and fire on a crossing. -/
  | watchSample
  /-- `PATROL_SCRUB` (R431): The patrol reads idle words, writes back corrections and logs detections. -/
  | patrolScrub (w : ScrubWord) (found : ScrubFinding)
  /-- `DATAPATH_ERROR_LATE` (R430): A datapath error found after retirement ends the cluster's tasks and reports. -/
  | datapathErrorLate (cl : Nat)
  /-- `DEVICE_RESET_BOOT` (R432): The boot ROM verifies and measures firmware, then releases the command cores. -/
  | deviceResetBoot (image : BootImage)
  /-- `REGISTER_WRITE` (R7): A write to a register without behaviour of its own sets its RW fields. -/
  | registerWrite (sp : RegSpace) (off : Nat) (v : Word)
  /-- `QUEUE_REARM` (R380): The driver re-arms a halted queue through the PF, after which its packets are read again. -/
  | queueRearm (p : Nat) (q : Nat)
  /-- `CXL_LINK_TRAINING` (R374): The CXL link trains to x16 at 128 GT/s or trains down to x8, 64 GT/s or 32 GT/s, and bandwidth follows. -/
  | cxlLinkTraining (width : LinkWidth) (rate : LinkRate)
  /-- `FLIT_CRC_REPLAY` (R429): A flit that fails its CRC on a bridge, Shuig port, CXL link or the mesh is detected and replayed. -/
  | flitCrcReplay (link : FlitLink)
  /-- `SPDM_REQUEST` (R432): The device answers a DMTF SPDM attestation request over CXL.io with a response signed by its identity key. -/
  | spdmRequest (nonce : Word)
  /-- `RECOVERY_IMAGE_WRITE` (R432): After a failed boot check, a new firmware image is written through the CXL.io recovery function. -/
  | recoveryImageWrite (image : BootImage)
  /-- `VF_RESET_COMPLETE` (R420): The VF becomes ready for use again within 100 ms of a function-level reset. -/
  | vfResetComplete (p : Nat)
  deriving DecidableEq, Repr

end Sys2Proof
end

