-- ==== Sys2Proof/Machine/State.lean ====
section
/-! DEFINITION. The machine's state as plain data: everything the spec gives one Brerus device, and its state after reset.
A field marked MODEL'S OWN is not the spec's: it names agents, orders their steps or counts free values. -/

namespace Sys2Proof.Machine

/-! ### Threads and tasks -/

/-- The registers of one thread context (01 R20; 03 R83; 10 R254). -/
structure Regs where
  /-- g0 to g31; g0 is read as 0 by the accessor (03 R80). -/
  g      : Vector Word 32
  /-- x0 to x7 (03 R82). -/
  x      : Vector Word 8
  pc     : Word
  /-- `STATUS`, 10 R253. -/
  status : Word
  tvec   : Word
  tpc    : Word
  tkind  : Word
  taddr  : Word
  tinfo  : Word
  tnest  : Word
  tsave  : Word
  /-- `EVENT` of a command core, 21 R394. -/
  event  : Word
  deriving DecidableEq, Repr

/-- A read-tile descriptor of a task header (07 R169). -/
structure TileDesc where
  base   : Word
  extent : Nat
  stride : Int
  deriving DecidableEq, Repr

/-- The 128 bytes of a task header, as read (07 R169): four successor slots and four descriptors. -/
structure Header where
  entry : Word
  arg   : Word
  key   : Word
  ctrl  : Word
  succ  : List Word
  tiles : List TileDesc
  deriving DecidableEq, Repr

/-- The task classes that run (01 R21). -/
inductive TaskClass where
  | free | ordered
  deriving DecidableEq, Repr

/-- A held `PUBLISH` step of an ordered task (08 R214): the umbra and whether it is discarded. -/
structure HeldPublish where
  umbra   : Nat
  discard : Bool
  deriving DecidableEq, Repr

/-- What a task owns beside its registers (01 R20, R21, R29, R33; 13 R310, R316). -/
structure Task where
  /-- MODEL'S OWN: the task's name. -/
  uid         : Nat
  part        : Nat
  ctx         : Nat
  /-- The header's VA. -/
  hdr         : Word
  /-- The registration it runs (07 R170). -/
  reg         : Nat
  /-- The instance index (01 R25, R38). -/
  idx         : Nat
  cls         : TaskClass
  key         : Word
  /-- Current priority, aging included (01 R29). -/
  prio        : Nat
  /-- The tick of the last dispatch, and the ticks run before it without parked time (01 R33). -/
  dispatched  : Nat
  ranBefore   : Nat
  /-- Instructions retired by this task (10 R264). -/
  retired     : Nat
  /-- The next successor slot of an `EXIT` under way (01 R36); `none` before the first `EXIT`. -/
  exitAt      : Option Nat
  /-- The read signature (13 R310). -/
  sig         : BitVec 2048
  irrevocable : Bool
  /-- It has made a memory access: the first one of an ordered task acts as an acquire (13 R315). -/
  accessed    : Bool
  /-- The die on which the task finished, for an ordered task between `EXIT` and commit (01 R37). -/
  finished    : Option Nat
  /-- Held `PUBLISH` steps in program order (08 R214). -/
  pubs        : List HeldPublish
  /-- A host context's PASID (22 R412). -/
  host        : Option Nat
  /-- The engine request whose loader program this is (08 R206). -/
  loader      : Option Nat
  deriving DecidableEq, Repr

/-- The record a trap writes: kind, `TADDR`, `TINFO` (10 R256). -/
structure TrapRec where
  kind  : Nat
  taddr : Word
  tinfo : Word
  deriving DecidableEq, Repr

/-- The read-modify-write operations of the `ATOM` major (07 R157). -/
inductive AtomOp where
  | add | and | or | xor | min | max | minn | maxn | swap | cas
  deriving DecidableEq, Repr

/-- What one memory access does with its location (05 R121, 07 R157). -/
inductive AccessOp where
  | load (k : LdKind) (v : Reg)
  | store (k : StKind) (value : Word)
  | atomic (op : AtomOp) (sz : AtomSize) (o : AtomOrder) (c : Scope) (d : Reg) (b cmp : Word)
  deriving DecidableEq, Repr

/-- One memory access of a thread: the operation, its order, its address and the length of its instruction. -/
structure Access where
  op    : AccessOp
  order : MemOrder
  va    : Word
  len   : Nat
  deriving DecidableEq, Repr

/-- Where a translated address lies: device memory of a partition by guest-physical address, a cluster's scratchpad
by global cluster number, or a physical address of a core without translation. -/
inductive Loc where
  | dram (p gpa : Nat)
  | scratch (cl off : Nat)
  | phys (pa : Nat)
  /-- Host memory by host-physical address, for a host context (22 R412). -/
  | host (a : Nat)
  deriving DecidableEq, Repr

/-- What completes the parked instruction at the wake (01 R31). -/
inductive Resume where
  | fwait (d b : Reg)
  | rpwait (d : Reg)
  | waitwp (d : Reg) (n : Nat)
  | sysc (d : Reg)
  deriving DecidableEq, Repr

/-- What a thread context is doing (01 R30, R32, R40; 05 R128; 07 R185; 08 R190; 09 R219). DEDUCED (log 50). -/
inductive Wait where
  /-- No task holds the context. -/
  | free
  /-- The context takes its turn in the rotation. -/
  | ready
  /-- A memory access is in flight at its location (05 R128). -/
  | access (a : Access) (l : Loc)
  /-- An instruction waits at the home of a location behind earlier requests to its line, and is issued again when its turn comes
  (07 R151). -/
  | home (l : Loc)
  /-- Dropped while the walker walks (22 R403). -/
  | walk (n : Nat)
  /-- Dropped for fault service; the record is the fatal wake's, but for its kind (01 R32, 05 R129). -/
  | fault (token : Word) (trap : TrapRec)
  /-- Woken from fault service while its context is switched out; the kind takes effect at switch-in (22 R418). -/
  | woken (kind : Nat) (trap : TrapRec)
  /-- In a `SERVE` whose packet has not returned (08 R190). -/
  | serve (packet : Nat)
  /-- In a `SERVE` or `STRM` that waits for a fabric or an image (08 R191). -/
  | image (sid : Nat)
  /-- Stalled until the task holds the summit (07 R155). -/
  | summit
  /-- Waiting in `TALLOC` or `CALLOC` (09 R219). -/
  | alloc
  /-- Waiting for its tile queue (09 R226 to R228). -/
  | queue
  /-- Waiting at an inbox: in `MSND` for a place (07 R185), or else in an access to a context that is not resident (22 R416). -/
  | inbox (send : Bool)
  /-- Waiting in `PUBLISH` for earlier requests and for the flip, or for the discard (08 R213). -/
  | flip (umbra : Nat) (discard : Bool)
  /-- A loader program that waits: a memory core has no context store, so it keeps its context (log 15). -/
  | held (m : Resume) (len : Nat)
  /-- A command core held or idle (21 R393, 23 R432). -/
  | idle
  deriving DecidableEq, Repr

/-- A tile or counting instruction in a thread's queue, with what it read at issue (09 R226, R232, R238). -/
inductive TileOp where
  /-- A load: the location of each element (of each byte for four-bit codes) in row order, and its width in bytes. -/
  | tld (t : Nat) (locs : List Loc) (w : Nat)
  | tshape (t : Nat) (w : Word)
  | tzero (t : Nat)
  | tmma (c a b : Nat)
  | tadd (d a b : Nat)
  | tmul (d a b : Nat)
  | tmax (d a b : Nat)
  | trsum (d a : Nat)
  | trmax (d a : Nat)
  | texp2 (d a : Nat)
  | tscan (d a b carry : Nat)
  | tcvt (d a : Nat) (opts : Nat)
  | tsete (t : Nat) (index : Nat) (value : Word)
  /-- A chain step: the descriptor's address, whether the predecessor's message is still to be added, the global cluster of the
  next member, and for the last one the locations of the elements it stores. -/
  | tchain (t : Nat) (desc : Word) (waits : Bool) (next : Option Nat) (locs : List Loc)
  | tfree (mask : Nat)
  | cfree (mask : Nat)
  | cfmt (n : Nat) (desc : List Byte)
  | cstep (n a b : Nat)
  | cmerge (n : Nat)
  | cdrain (c n s : Nat)
  | cclr (n : Nat)
  deriving DecidableEq, Repr

/-- A thread context of a core (01 R16, R20). -/
structure Thread where
  id   : Tid
  wait : Wait
  regs : Regs
  task : Option Task
  /-- The thread's tile queue, oldest first (09 R226). -/
  tq   : List TileOp
  /-- The tick of the thread's last `FENCEI` (07 R160, 12 R298). -/
  fenced : Nat
  /-- The tick of the last acquire of its task, and of the last one before its last `FENCEI` (12 R302). -/
  acquired : Nat
  synced   : Nat
  /-- Chosen for a checkpoint, which waits for the current instruction to retire (01 R33). -/
  ckpt : Bool
  /-- The current instruction has been issued and has not retired: it is issued again when the thread goes on (01 R32). -/
  mid  : Bool
  /-- The line at whose home it is the turn of the instruction that the thread issues again (07 R151): partition and line. -/
  turn : Option (Nat × Nat)
  deriving DecidableEq, Repr

/-- A parked context in the context store or the context area of its cluster (01 R30). -/
structure Parked where
  thread : Thread
  resume : Resume
  /-- The length of the waiting instruction, by which the PC advances at its completion. -/
  len    : Nat
  /-- In the memory-backed context area, not in the context store. -/
  inArea : Bool
  deriving DecidableEq, Repr

/-- What a ready-queue entry starts (01 R28): an instance of a registered header, or a saved context. -/
inductive Job where
  | fresh (reg idx : Nat) (tie : Option Word)
  /-- A saved context; `inArea` when it lies in the memory-backed context area. -/
  | saved (th : Thread) (inArea : Bool)
  deriving DecidableEq, Repr

/-- An entry of a cluster's ready queue (01 R28, R29). -/
structure QEntry where
  job     : Job
  part    : Nat
  ctx     : Nat
  prio    : Nat
  ordered : Bool
  key     : Word
  hdr     : Word
  /-- The enqueue stamp. -/
  stamp   : Nat
  /-- MODEL'S OWN: the order of entry, for entries of one stamp and header. -/
  seq     : Nat
  /-- The tick from which the next aging counts (01 R29). -/
  agedAt  : Nat
  /-- The context whose exit this entry waits for under a drain (01 R33). -/
  bound   : Option Tid
  /-- A victim has been chosen for a checkpoint to make room for this entry (01 R33). -/
  sought  : Bool
  deriving DecidableEq, Repr

/-! ### The cluster -/

/-- A line of a cluster's L1 or of a die's RDC, tagged with the GPA and the `VMID` (22 R398): the copy of 64 bytes and its poison
(05 R124, R131; 13 R318). -/
structure Line where
  vmid   : Nat
  /-- The guest-physical line number, GPA >> 6. -/
  line   : Nat
  /-- The slice of an RDC that holds it (22 R398); 0 in an L1. -/
  slice  : Nat
  data   : List Byte
  poison : List Bool
  deriving DecidableEq, Repr

/-- A translation held in a TLB (22 R402). -/
structure TlbEntry where
  /-- A host context's translation: `asid` is the PASID, and `gpa` a host-physical address, or with `hdm` one inside the
  partition's HDM range (22 R412). -/
  host  : Bool
  hdm   : Bool
  vmid  : Nat
  asid  : Nat
  glob  : Bool
  /-- The first VA of the page and the number of offset bits: 16, 25 or 36. -/
  va    : Nat
  bits  : Nat
  gpa   : Nat
  r     : Bool
  w     : Bool
  x     : Bool
  u     : Bool
  d     : Bool
  /-- The GPA of the leaf entry. -/
  leaf  : Nat
  deriving DecidableEq, Repr

/-- A non-leaf entry in the walk cache (22 R402). -/
structure WalkCacheEntry where
  vmid  : Nat
  asid  : Nat
  va    : Nat
  bits  : Nat
  table : Nat
  deriving DecidableEq, Repr

/-- A shoot-down as a TLB remembers it (22 R410, R411). -/
structure Shootdown where
  part  : Nat
  num   : Nat
  all   : Bool
  any   : Bool
  asid  : Nat
  first : Nat
  pages : Nat
  deriving DecidableEq, Repr

/-- A physical tile in use: its owner, its name there, its shape word and its bytes (09 R217, R222, R224). -/
structure Tile where
  owner : Nat
  name  : Nat
  shape : Word
  data  : Memory
  deriving DecidableEq, Repr

/-- A counting format descriptor (09 R244). -/
structure CountFmt where
  pairs  : List Nat
  values : List Int
  qexp   : Int
  aSet   : Nat
  bSet   : Nat
  deriving DecidableEq, Repr

/-- A counter-bank set in use (09 R243). Counters are keyed ((i × 64 + j) × 5 + bank) × 32 + index, bank 4 the merge bank. -/
structure BankSet where
  owner  : Nat
  name   : Nat
  fmt    : Option CountFmt
  shape  : Option (Nat × Nat)
  lanes  : List Nat
  md     : Nat
  counts : List (Nat × Int)
  nan    : List Nat
  poi    : Bool
  deriving DecidableEq, Repr

/-- A waiting `TALLOC` or `CALLOC` (09 R219). -/
structure AllocReq where
  t    : Tid
  uid  : Nat
  /-- The register that receives the mask. -/
  d    : Reg
  mask : Nat
  sets : Bool
  deriving DecidableEq, Repr

/-- A cairn entry (01, 07 R179). -/
structure Cairn where
  base  : Word
  /-- Length in 4 KiB units. -/
  units : Nat
  kind  : Nat
  valid : Bool
  /-- MODEL'S OWN: the order in which entries were set, for "set longest ago". -/
  setAt : Nat
  deriving DecidableEq, Repr

/-- A write-pointer register and the request that holds it reserved (07 R183, 08 R204). -/
structure WritePtr where
  brk   : Bool
  count : Nat
  req   : Option Nat
  deriving DecidableEq, Repr

/-- A message in an inbox (07 R185). -/
structure Msg where
  part    : Nat
  ctx     : Nat
  sender  : Nat
  payload : Word
  deriving DecidableEq, Repr

/-- A request that waits in the memory-backed inbox of a context that is not resident (22 R416). -/
inductive InboxItem where
  | msg (m : Msg)
  /-- A message that the full inbox holds in its sending cluster, with the thread and the task that wait in `MSND`. -/
  | send (t : Tid) (uid : Nat) (m : Msg)
  | chain (desc : Word) (data : Memory) (poi : Bool)
  /-- A store, and the irrevocable task that makes it, as a one-line commit (13 R316). -/
  | store (off size : Nat) (v : Word) (by_ : Option Task)
  /-- An access whose thread and task wait: what it does and where; `none` for an instruction that is issued again. -/
  | access (t : Tid) (uid : Nat) (what : Option (Access × Loc))
  /-- The instruction at the head of a task's tile queue. -/
  | array (uid : Nat)
  /-- The access of an AGE of a fabric: cluster, fabric and element. -/
  | age (cl f e : Nat)
  /-- The access of an engine request. -/
  | engine (req : Nat)
  deriving DecidableEq, Repr

/-- A `TCHAIN` message buffered at the receiving array (09 R241). -/
structure ChainMsg where
  part : Nat
  ctx  : Nat
  desc : Word
  data : Memory
  poi  : Bool
  deriving DecidableEq, Repr

/-- A line of the speculative store buffer (01 R16, 13): its owner, its location's line, the bytes buffered, and the doublewords of
the line that one store has written whole (05 R131). -/
structure SsbLine where
  owner : Nat
  loc   : Loc
  bytes : List (Nat × Byte)
  whole : List Nat
  deriving DecidableEq, Repr

/-! ### Server images and fabrics (11) -/

/-- The kind of an element's input port (11 R290). -/
inductive PortKind where
  | arc | const | arg (n : Nat) | none
  deriving DecidableEq, Repr

/-- A pattern of an image (11 R290). -/
structure Pattern where
  op    : Nat
  a     : PortKind
  b     : PortKind
  c     : PortKind
  sx    : Bool
  acc   : Bool
  aux   : Nat
  const : Word
  deriving DecidableEq, Repr

/-- A route of an image (11 R291). -/
structure Route where
  src  : Nat
  dst  : Nat
  port : Nat
  deriving DecidableEq, Repr

/-- A nest record of a stream engine (11 R284). -/
structure Nest where
  eng  : Nat
  ndim : Nat
  bsrc : Nat
  cnts : List Nat
  base : Word
  strs : List Word
  deriving DecidableEq, Repr

/-- A controller record (11 R286). -/
structure Ctl where
  kind   : Nat
  parent : Nat
  dim    : Nat
  depth  : Nat
  mask   : Nat
  deriving DecidableEq, Repr

/-- A parsed and checked server image (11 R289 to R293). -/
structure Image where
  img    : Word
  call   : Bool
  nargs  : Nat
  nres   : Nat
  lat    : Nat
  pats   : List Pattern
  /-- The pattern index of each configured element. -/
  elems  : List (Nat × Nat)
  routes : List Route
  nests  : List Nest
  ctls   : List Ctl
  deriving DecidableEq, Repr

/-- A token (11 R271). -/
structure Token where
  data   : Word
  gf     : Bool
  dims   : Nat
  eoi    : Bool
  poi    : Bool
  /-- The packet it belongs to. -/
  packet : Nat
  /-- MODEL'S OWN: in stream mode, the iterations of each stream engine up to which it stands (08 R209). -/
  its    : List Nat
  deriving DecidableEq, Repr

/-- The fault record that a fabric keeps per packet (11 R283). -/
structure FabFault where
  kind  : Nat
  elem  : Nat
  va    : Word
  store : Bool
  lsz   : Nat
  akind : Nat
  /-- A limit of 13 R316 met by an ordered task's packet (08 R196). -/
  summit : Bool
  /-- The access was cancelled in an inbox, since its cluster switches out (22 R416). -/
  away   : Bool
  /-- The tick of the firing (11 R283). -/
  fired : Nat
  deriving DecidableEq, Repr

/-- A packet of a `SERVE` (08 R190, 11 R273). -/
structure Packet where
  id      : Nat
  t       : Tid
  uid     : Nat
  sid     : Nat
  d       : Reg
  args    : List Word
  entered : Bool
  /-- The elements without an arc or an argument that have yet to fire for it (11 R272, R273). -/
  free    : List Nat
  results : List (Nat × Token)
  fault   : Option FabFault
  deriving DecidableEq, Repr

/-- An AGE access issued and not yet complete (11 R279). -/
structure AgeAccess where
  elem  : Nat
  va    : Word
  store : Bool
  lsz   : Nat
  sx    : Bool
  value : Word
  tok   : Token
  /-- The fault-service token a stream's access waits for (08 R209). -/
  waits : Option Word
  /-- It waits in the inbox of a context that is not resident (22 R416). -/
  queued : Bool
  /-- The tick of the firing (11 R283). -/
  fired : Nat
  deriving DecidableEq, Repr

/-- The stream that runs on a fabric (08 R208, 11 R285). -/
structure Stream where
  req  : Nat
  args : List Word
  /-- Next position of each nest's walk, by engine. -/
  pos  : Tbl Nat
  /-- The elements that had passed `EOI` before a `STRMR` (08 R210). -/
  ended : List Nat
  deriving DecidableEq, Repr

/-- One server fabric (01 R16, 11 R269). -/
structure Fabric where
  image    : Option Image
  pin      : Bool
  /-- The image being loaded and the requesters are in the cluster's fetch list. -/
  loading  : Option Word
  /-- FIFOs by element × 4 + port (11 R272). -/
  fifos    : Tbl (List Token)
  /-- `ACC` registers by element, with their poison (11 R277). -/
  accs     : Tbl (Word × Bool)
  /-- Tables of the table elements (11 R281). -/
  tables   : Tbl Memory
  /-- Tokens held by the delay elements (11 R282). -/
  delays   : Tbl (List Token)
  ages     : List AgeAccess
  packets  : List Packet
  stream   : Option Stream
  /-- By element, the firings whose result carries `D0` to `D3` and `EOI`, and those of them whose result has been emitted or
  whose store is confirmed (11 R287). -/
  started  : Tbl (List Nat)
  finished : Tbl (List Nat)
  /-- By element, the iterations of each stream engine that it has completed (08 R209). -/
  progress : Tbl (List Nat)
  /-- The drain image is loaded (11 R294). -/
  draining : Bool
  /-- The image was evicted while the fabric stood saved, and only its stream runs on with it (21 R391). -/
  stale    : Bool
  /-- Use order (15 R336). -/
  lastUse  : Nat
  /-- Tokens admitted in a window of 1024 ticks, the number of that window, and the limit L (11 R288). -/
  admitted : Nat
  window   : Nat
  limit    : Nat
  /-- The tick of the last firing (22 R419). -/
  firedAt  : Nat
  deriving DecidableEq, Repr

/-- A config-cache slot (01 R16, 15 R336): the image's VA, its binary and its use order. -/
structure CfgSlot where
  img     : Word
  binary  : List Byte
  pin     : Bool
  lastUse : Nat
  deriving DecidableEq, Repr

/-- A fetch or load of an image under way (08 R191). -/
structure Fetch where
  img     : Word
  fabric  : Nat
  sid     : Nat
  part    : Nat
  ctx     : Nat
  /-- The first caller's mode, and its `PASID` where it is a host context (22 R412). -/
  user    : Bool
  host    : Option Nat
  fetched : Bool
  deriving DecidableEq, Repr

/-- Whose fetches a stored-over halfword concerns: every task's, those of the task that buffers the store, or those of every task but
the one whose commit has performed it. -/
inductive OldFor where
  | all | writer | others
  deriving DecidableEq, Repr

/-- A halfword of memory that an agent of a cluster has stored over: a fetch that no `FENCEI` separates from the store, nor
for another task's store an acquire and a `FENCEI`, is free to return the value before it (12 R298, R302). -/
structure OldCode where
  /-- The halfword's location. -/
  loc    : Loc
  old    : BitVec 16
  tick   : Nat
  /-- The task or the request that stored. -/
  writer : Nat
  whom   : OldFor
  deriving DecidableEq, Repr

/-- A stream's fabric saved with the checkpoint of its task (14 R335): the task, the fabric's number and what it held. -/
structure PausedFab where
  uid  : Nat
  slot : Nat
  fab  : Fabric
  deriving DecidableEq, Repr

/-- One cluster (01 R16). -/
structure Cluster where
  l1        : List Line
  scratch   : Memory
  /-- Poisoned doublewords of the scratchpad, by offset >> 3 (05 R131). -/
  scrPoison : List Nat
  tlb       : List TlbEntry
  utlb      : Tbl (List TlbEntry)
  walkCache : List WalkCacheEntry
  /-- The shoot-downs received, latest first, at most 8 remembered (22 R411). -/
  shots     : List Shootdown
  readyQ    : List QEntry
  /-- Dispatching stopped (21 R391, 22 R415, 23 R426). -/
  stopped   : Bool
  store     : List Parked
  tiles     : List Tile
  sets      : List BankSet
  allocs    : List AllocReq
  cairn     : Tbl Cairn
  wps       : Tbl WritePtr
  inbox     : List Msg
  chain     : List ChainMsg
  ssb       : List SsbLine
  fabrics   : Tbl Fabric
  paused    : List PausedFab
  cfgCache  : Tbl CfgSlot
  fetches   : List Fetch
  imgLoad   : Nat
  imgFetch  : Nat
  oldCode   : List OldCode
  deriving DecidableEq, Repr

/-! ### The die -/

/-- A pending update of a residency directory (07 R181). -/
structure DirUpdate where
  part   : Nat
  cl     : Nat
  region : Nat
  deriving DecidableEq, Repr

/-- A task on its way over a bridge to another die's dispatcher (01 R26). Until the receiving die has enqueued it, it counts on
the sending die (13 R311). DEDUCED (log 38). -/
structure Forward where
  /-- The sending die. -/
  src   : Nat
  cl    : Nat
  entry : QEntry
  deriving DecidableEq, Repr

/-- A die's share of a range not yet placed (01 R39). DEDUCED (log 38). -/
structure Share where
  part : Nat
  ctx  : Nat
  reg  : Nat
  next : Nat
  left : Nat
  /-- The die it was stolen from, while it is on its way over the bridge (13 R321). -/
  src  : Option Nat
  deriving DecidableEq, Repr

/-- A request for belay leave, or a grant held (23 R424, R425). -/
structure Belay where
  id    : Nat
  /-- Current held, in milliamperes. -/
  milli : Nat
  part  : Nat
  deriving DecidableEq, Repr

/-- A host line in the RDC of the die that took it (13 R320): its number, host-physical address >> 6, its bytes and its poison
(05 R131). -/
structure HostLine where
  line   : Nat
  data   : List Byte
  poison : List Bool
  deriving DecidableEq, Repr

/-- An RDC invalidation on its way to a die (13 R319): the line, its home die, where the die's directory bit stands until the
invalidation is performed, and the task or agent whose releases at `.prt` wait for it (07 R156). -/
structure RdcInv where
  vmid : Nat
  line : Nat
  home : Nat
  who  : Nat
  /-- The task has read the new value at the home: its next acquire waits for the invalidation too (13 R308). -/
  seen : Bool
  deriving DecidableEq, Repr

/-- The translation unit of a stack base (01 R18): its TLB (22 R402), and the shoot-downs that it has received, latest first
(22 R411). -/
structure StackBase where
  tlb   : List TlbEntry
  shots : List Shootdown
  deriving DecidableEq, Repr

/-- One die (01 R18). -/
structure Die where
  /-- The residency directory: (partition, region, cluster). -/
  dir       : List (Nat × Nat × Nat)
  dirQ      : List DirUpdate
  forwards  : List Forward
  shares    : List Share
  rdc       : List Line
  /-- Directory bits of lines homed here: (`VMID`, line, other die) (13 R318). -/
  dirBits   : List (Nat × Nat × Nat)
  /-- RDC invalidations on their way to this die (13 R319). -/
  rdcInv    : List RdcInv
  belayQ    : List Belay
  granted   : List Belay
  /-- The stretch above S has lasted too long: nothing is granted until the current falls (23 R425). -/
  stretch   : Bool
  /-- The tick from which the granted current has been above S (23 R425). -/
  aboveSince : Option Nat
  corrected : Nat
  /-- Host lines that the RDC holds (13 R320), and host-bit invalidations on their way to this die: (line, uid of the writer). -/
  hostLines : List HostLine
  hostInv   : List (Nat × Nat)
  deriving DecidableEq, Repr

/-! ### Synchronisation records and engine requests -/

/-- A registered header (07 R170, R172, R173). -/
structure Registration where
  id      : Nat
  part    : Nat
  ctx     : Nat
  va      : Word
  /-- The header's guest-physical address: its home. -/
  gpa     : Nat
  hdr     : Header
  range   : Bool
  n       : Nat
  /-- Held for its counter (01 R22). -/
  held    : Bool
  /-- Instances neither exited nor ended. -/
  live    : Nat
  /-- An instance ended under 10 R258: no decrement is issued (01 R38). -/
  ended   : Bool
  /-- The ordered task that spawned it speculatively (13 R313). -/
  spawner : Option Nat
  deriving DecidableEq, Repr

/-- A rope binding (07 R164). -/
structure Binding where
  part    : Nat
  gpa     : Nat
  reg     : Nat
  live    : Nat
  arrived : List Nat
  deriving DecidableEq, Repr

/-- What a bivouac record waits for (07 R168). -/
inductive BivKind where
  | future (uid : Nat)
  | link (hdr : Word) (hgpa : Nat)
  | rope (uid : Nat) (phase : Bool)
  | wp (uid : Nat) (cl n : Nat) (target : Nat)
  | held (reg : Nat)
  deriving DecidableEq, Repr

/-- A record of a bivouac table or of the overflow list, in recording order (07 R167, R168). -/
structure BivRec where
  die   : Nat
  part  : Nat
  ctx   : Nat
  /-- The home address of the word or header; 0 for a write pointer. -/
  gpa   : Nat
  kind  : BivKind
  spill : Bool
  deriving DecidableEq, Repr

/-- Who asked for a translation (22 R403). -/
inductive Requester where
  | thread (t : Tid)
  | engine (req : Nat)
  /-- A successor decrement of a commit, for the header at an address (01 R37). -/
  | decrement (p c : Nat) (hdr : Word)
  /-- The thread of a task whose context is switched out (22 R418). -/
  | saved (uid : Nat)
  /-- The commit unit of a context, for a buffered line that stage 2 refuses (13 R312; 22 R405). -/
  | commit (p c : Nat)
  deriving DecidableEq, Repr

/-- A stage-1 walk in flight (22 R402, R411). -/
structure Walk where
  id    : Nat
  who   : Requester
  part  : Nat
  ctx   : Nat
  /-- The TLB it fills: a cluster's number, or 512 + the number of a stack base. -/
  tlb   : Nat
  va    : Word
  /-- 0 load, 1 store or atomic, 2 fetch. -/
  acc   : Nat
  user  : Bool
  src   : Nat
  stamp : Nat
  trap  : TrapRec
  deriving DecidableEq, Repr

/-- A fault-service token outstanding (22 R407, R408). -/
structure FaultTok where
  token   : Word
  part    : Nat
  ctx     : Nat
  page    : Nat
  acc     : Nat
  stage2  : Bool
  waiters : List Requester
  /-- The record, and whether it is already in the ring. -/
  addr    : Word
  info    : Word
  written : Bool
  deriving DecidableEq, Repr

/-- The engines' kinds (08 R197). -/
inductive ReqKind where
  | copy | copyp | gather | rcopy | strm
  deriving DecidableEq, Repr

/-- A line or element that an engine has read ahead of its delivery, where it goes once a part of it is written, and the doublewords of
it that are written already (14 R324, R325). -/
structure Ahead where
  index  : Nat
  data   : List Byte
  poison : List Bool
  dst    : Option Loc
  early  : List Nat
  deriving DecidableEq, Repr

/-- An accepted engine request (08 R199 to R210). -/
structure Req where
  id       : Nat
  kind     : ReqKind
  /-- The 64-byte block as eight doublewords, and its address. -/
  blk      : List Word
  va       : Word
  part     : Nat
  ctx      : Nat
  uid      : Nat
  /-- The issuing cluster, global number. -/
  cl       : Nat
  ordered  : Bool
  user     : Bool
  /-- Lines or elements delivered. -/
  pos      : Nat
  /-- What it has read, and written, ahead of that (14 R324). -/
  ahead    : List Ahead
  done     : Nat
  /-- The kind with which it ended early; `none` while it runs or when it completed. -/
  endKind  : Option Nat
  faddr    : Word
  elem     : Nat
  sid      : Nat
  cnts     : List Word
  token    : Option Word
  parent   : Option Nat
  /-- Children issued and not complete (08 R206). -/
  children : Nat
  /-- The loader program has run `EXIT` (08 R206). -/
  exited   : Bool
  /-- The aborted task's request (14 R332). -/
  aborted  : Bool
  /-- 0 while it delivers, 1 from its end on, 2 once its record's place is translated (08 R200, R201). -/
  stage    : Nat
  /-- A fatal wake at the record, or at the word of the completion action, has dropped it. -/
  noRecord : Bool
  noAction : Bool
  umbra    : Option Nat
  /-- The die and the memory core that serve it (08 R205), and for `COPYP` whether its program has started. -/
  die      : Nat
  core     : Nat
  started  : Bool
  /-- It waits for belay leave (23 R424). -/
  belay    : Bool
  /-- It waits in the inbox of a context that is not resident (22 R416). -/
  waits    : Bool
  /-- A stopped stream whose record is written and whose fabric is not released yet (08 R209), and the line that it holds at its
  home until its action is done (08 R201): partition and line. -/
  recorded : Bool
  holds    : Option (Nat × Nat)
  /-- The loader table's entry PC and the peer, as they stood when it was accepted (21 R391). -/
  entry    : Word
  peer     : List Word
  deriving DecidableEq, Repr

/-- One 64 KiB chunk of an umbra (08 R211, R212). -/
structure Chunk where
  gpa     : Nat
  shadow  : Nat
  written : Bool
  deriving DecidableEq, Repr

/-- An open umbra: an entry of the partition's buffer table (08 R211). -/
structure Umbra where
  id     : Nat
  part   : Nat
  ctx    : Nat
  owner  : Nat
  base   : Nat
  len    : Nat
  chunks : List Chunk
  /-- A `PUBLISH` has taken its cut: later requests are refused (14 R330). -/
  cut    : Bool
  /-- Opened by an ordered task, whose abort discards it (13 R313). -/
  ordered : Bool
  /-- A publication by a peer's `RCOPY` of a range waits for earlier requests (08 R215, 13 R322): the range and its length. -/
  remote  : Option (Word × Nat)
  deriving DecidableEq, Repr

/-- A `SYSC` that has parked and is not answered (10 R263, 21 R383). -/
structure Sysc where
  token : Word
  part  : Nat
  ctx   : Nat
  uid   : Nat
  block : List Byte
  svc   : Nat
  /-- Written into the service ring. -/
  sent  : Bool
  deriving DecidableEq, Repr

/-! ### Partitions -/

/-- A server-table entry (08 R189). -/
structure ServEnt where
  img : Word
  ctl : Word
  deriving DecidableEq, Repr

/-- A format window (02 R72). -/
structure Window where
  view  : Word
  store : Word
  len   : Word
  scale : Word
  ctl   : Word
  deriving DecidableEq, Repr

/-- A configuration (21 R389). -/
structure PConf where
  servers : Tbl ServEnt
  windows : Tbl Window
  loaders : Tbl Word
  peers   : Tbl (List Word)
  deriving DecidableEq, Repr

/-- The fields of a queue control block (21 R385). -/
structure QcbFields where
  seqw    : Word
  base    : Word
  ctrl    : Word
  head    : Word
  nseq    : Word
  state   : Word
  lasterr : Word
  tshad   : Word
  deriving DecidableEq, Repr

/-- The fields that an update of a queue control block changes (21 R386). -/
structure QcbPatch where
  head    : Option Word
  nseq    : Option Word
  state   : Option Word
  lasterr : Option Word
  tshad   : Option Word
  deriving DecidableEq, Repr

/-- An update of a queue control block (21 R386): how many of its six writes are done, what it changes, whether a command core makes
it within its event, whether it is the one of a packet that has been processed, and whether it raises the queue's vector. -/
structure QcbWrite where
  step   : Nat
  patch  : QcbPatch
  core   : Bool
  packet : Bool
  irq    : Bool
  deriving DecidableEq, Repr

/-- A queue: its control block, the shadow, the live tail, the packet performed but not yet counted, and the updates under way, which
are made one after another (21 R385, R386). -/
structure Queue where
  qcb       : QcbFields
  shadow    : QcbFields
  tail      : Nat
  progress  : Nat
  performed : Bool
  writing   : List QcbWrite
  deriving DecidableEq, Repr

/-- The ordered-task machinery of one context of a partition (13 R311 to R317, 22 R413). -/
structure CtxState where
  cseq     : Nat
  tiecnt   : Nat
  /-- The summit holder, as registration and instance. -/
  holder   : Option (Nat × Nat)
  /-- The latest report of each die: its smallest unfinished key (13 R311). -/
  reports  : Tbl (Option Word)
  /-- Finished tasks awaiting commit, in the order of finishing. -/
  finished : List Task
  /-- Tasks that stalled for the summit, in the order of stalling. -/
  stalled  : List Nat
  deriving DecidableEq, Repr

/-- A save area (22 R417): its `VALID` doubleword and what it holds. -/
structure SaveArea where
  l       : Nat
  c       : Nat
  valid   : Nat
  cluster : Cluster
  threads : List Thread
  /-- The bytes of the host contexts' slots, as the save wrote them (22 R412). -/
  slots   : List (List Byte)
  deriving DecidableEq, Repr

/-- Requests that wait for a context that is not resident (22 R416). -/
structure CtxInbox where
  l     : Nat
  c     : Nat
  items : List InboxItem
  deriving DecidableEq, Repr

/-- One partition: the registers of its block, of its VF and what it holds (21 R376, R383, R385; 22 R396). -/
structure Part where
  pdesc     : Word
  pshare    : Word
  pretok    : List Word
  ctxdesc   : Word
  savebase  : Word
  fscb      : Word
  /-- Records written since `FSCB` was written (22 R407). -/
  fsSeq     : Nat
  sdva      : Word
  /-- `SDSEQ`: shoot-downs issued and completed. -/
  sdIssued  : Nat
  sdDone    : Nat
  /-- Shoot-downs issued, with the TLBs that have not received them (22 R410). -/
  sdPend    : List (Shootdown × List Nat)
  s2busy    : Bool
  s2res     : Nat
  /-- The frame under scrub, or the guest frame under write-back: (column, frame). -/
  scrub     : Option (Nat × Nat)
  writeback : Option (Nat × Nat)
  s2tok     : Word
  dirtylog  : Word
  umbpool   : Word
  stopped   : Bool
  /-- The terminator sweep in progress, with its incoming context (22 R415). -/
  sweep     : Option (Option Nat)
  /-- How many logical clusters the sweep's token has reached, one more once it has left the last, and those of them that still
  hold the outgoing context. -/
  swept     : Nat
  switching : List Nat
  /-- A stop that its sweep, or the writes of engine requests, hold up (22 R421). -/
  stopReq   : Bool
  abandoned : Bool
  resident  : Nat
  /-- No context is resident. -/
  vacant    : Bool
  running   : Bool
  switched  : Bool
  resetting : Bool
  svcHead   : Nat
  svcBase   : Word
  svcLog    : Nat
  svcTail   : Nat
  svcSeq    : Nat
  queues    : Tbl Queue
  conf      : PConf
  /-- The configuration that a `LAUNCH` is applying while clusters drain, with its queue, and the clusters that it has stopped
  (21 R391). -/
  pending   : Option (Nat × PConf)
  drain     : List Nat
  confs     : Tbl PConf
  ctxs      : Tbl CtxState
  saves     : List SaveArea
  inboxes   : List CtxInbox
  /-- Round-robin position per die (01 R26). -/
  rr        : Tbl Nat
  bindings  : List Binding
  umbras    : List Umbra
  /-- Umbra selectors: the chunk that backs a chunk of GPA space (08 R213). -/
  select    : Tbl Nat
  /-- Pool chunks in use, and retired backings that joined the pool (08 R211). -/
  poolUsed  : List Nat
  poolExtra : List Nat
  /-- 64 KiB chunks written since the last dirty report (22 R421). -/
  dirty     : List Nat
  /-- Slowed, paused, evicted (23 R426): 0 to 3. -/
  shed      : Nat
  share     : Nat
  evictedAt : Option Nat
  deriving DecidableEq, Repr

/-! ### The device -/

/-- A line of an L2 slice: its tag, the slice by its cluster, its write mark and whether it is dirty (22 R398, R405). -/
structure L2Line where
  vmid  : Nat
  line  : Nat
  slice : Nat
  mark  : Bool
  dirty : Bool
  deriving DecidableEq, Repr

/-- The state of a physical frame (22 R404). -/
inductive FrameState where
  | clean | dirty | owned (vmid : Nat)
  deriving DecidableEq, Repr

/-- A stage-2 map entry with `V` = 1 (22 R404). -/
structure S2Entry where
  w     : Bool
  frame : Nat
  deriving DecidableEq, Repr

/-- An event of the command complex (21 R393, R394): its word. -/
structure CmdEvent where
  word     : Word
  /-- The queue it serves. -/
  part     : Nat
  q        : Nat
  /-- A second watchdog expiry halts the queue (21 R395). -/
  recovery : Bool
  deriving DecidableEq, Repr

/-- A command core (21 R393): its thread context, and the event it runs. -/
structure CmdCore where
  event : Option CmdEvent
  /-- The tick at which the event was handed over (21 R395). -/
  since : Nat
  /-- The work that the rules give the event is over; it ends with the core's `HALT` (21 R393). -/
  done  : Bool
  deriving DecidableEq, Repr

/-- A watch-table entry (23 R427), with the sample before. -/
structure Watch where
  wctl : Word
  wthr : Word
  whdr : Word
  last : Option Nat
  deriving DecidableEq, Repr

/-- What an error-log record reports; the spec gives its kinds no codes (21 R395; 22 R419; 23 R430, R431).
DESIGN CHOICE (log 46). -/
inductive ErrKind where
  | corrected | poisoned | datapath | hang | queueHalted
  deriving DecidableEq, Repr

/-- An error-log record (23 R431). -/
structure ErrRec where
  kind  : ErrKind
  unit  : Nat
  addr  : Nat
  count : Nat
  deriving DecidableEq, Repr

/-- A decoder of the host's window onto device memory (21 R375): the host address, the length and the device address behind it.
DESIGN CHOICE (log 51). -/
structure HdmDecoder where
  base   : Nat
  len    : Nat
  target : Nat
  deriving DecidableEq, Repr

/-- The PF registers outside the partition blocks (22 R405; 23 R423 to R432). -/
structure Pf where
  s2base   : Word
  s2size   : Word
  s2prod   : Nat
  s2cons   : Nat
  errBase  : Word
  errSize  : Word
  errProd  : Nat
  errCons  : Nat
  pcap     : Nat
  /-- A cap written during an eviction or return sweep, to be evaluated after it (23 R426). -/
  pcapLate : Option Nat
  shedding : Tbl Word
  telidx   : Word
  /-- `PPWR` and `TEMP` (23 R423): what the power controller has measured last. -/
  ppwr     : Word
  temp     : Word
  watches  : Tbl Watch
  /-- Measurement registers 0 to 7 (23 R432). -/
  measure  : List (BitVec 256)
  errors   : List ErrRec
  /-- The HDM decoders that the driver has programmed (21 R375). -/
  hdm      : Tbl HdmDecoder
  deriving DecidableEq, Repr

/-- Data of a peer's `RCOPY` for an umbra, held until the last of them: the partition, the address, the bytes and their poison (05 R131, 08 R215). -/
structure Arrival where
  part   : Nat
  va     : Word
  data   : List Byte
  poison : List Bool
  deriving DecidableEq, Repr

/-- A request from outside that waits at a home: an access of the host (21 R375), or data of a peer's `RCOPY` for a rope (08 R215). -/
inductive Inbound where
  | access (write : Bool) (ha size : Nat) (v : Word)
  | rcopy (p : Nat) (rdst : Word) (data : List Byte) (poison : List Bool) (last : Bool) (rtgt len : Word)
  deriving DecidableEq, Repr

/-- The boot state (23 R432). -/
inductive Boot where
  | off | running | recovery
  deriving DecidableEq, Repr

/-- An interrupt to the host: the PF's vector or a VF's vector (21 R376, 22 R405). -/
inductive Irq where
  | pf (vector : Nat)
  | vf (p vector : Nat)
  deriving DecidableEq, Repr

/-- What the device has sent out of itself: to a peer (08 R215), to an SPDM requester (23 R432), to the host
(22 R412). DESIGN CHOICE (log 20). -/
inductive Outgoing where
  /-- A page request of a host context whose translation by ATS failed (22 R412). -/
  | pageRequest (token : Word) (pasid : Nat) (va : Word) (write : Bool)
  | rcopy (peer : List Word) (rdst : Word) (data : List Byte) (poison : List Bool) (rtgt : Word) (pub : Bool) (len : Nat)
  /-- The acknowledgement of a peer's publication or arrival with kind 0, or the refusal of its range with kind 3 (08 R215,
  13 R322). -/
  | rcopyAck (p : Nat) (rdst rtgt : Word) (len kind : Nat)
  /-- What a read of the host returns: its address, the bytes, and whether they are poisoned (21 R375). -/
  | hostData (pa : Nat) (data : List Byte) (poison : Bool)
  | spdm (nonce : Word) (measurements : List (BitVec 256)) (signature : Word)
  deriving DecidableEq, Repr

/-- MODEL'S OWN (log 1): the steps that the device's units take by themselves once something has been started. -/
inductive UnitKind where
  | dispatch | checkpoint | holderDispatch | forwardArrive | rangePlace | rangeSteal | report | commit | irrevocable
  | grant | tileExec | chainArrive | dirUpdate | retire | rdcInv | walkDone | lineDeliver | engineAhead | engineDone | flip
  | imageFetch | imageLoad | packetEntry | fire | ageDone | delayEmit | streamEmit | results | streamDone | streamFatal
  | fabRelease | belay | handoff | packet | shootdown | scrubDone | writebackDone | token | watchdog | waitf
  | aging | rateWindow | watchSample | stretch | hang | unpause | decrement | inbound
  /-- Moves of the PF's driver that no row of the table names (21 R375). -/
  | assignQueue | setDecoder
  deriving DecidableEq, Repr

/-- MODEL'S OWN (log 1): the next mover when it is not the thread in rotation: a step of the host or of the outside world
(any row of the table), a step that a unit takes by itself, or a named thread context. -/
inductive Move where
  | event (i : Instr)
  | unit (k : UnitKind) (a b c : Nat)
  | issue (t : Tid)
  deriving DecidableEq, Repr

/-- The whole device. -/
structure State where
  /-- The device tick counter (10 R264). -/
  tick      : Nat
  /-- MODEL'S OWN (log 2): the free values used so far. -/
  fresh     : Nat
  /-- MODEL'S OWN (log 8): the next name of a task, registration, request, packet or walk. -/
  uidNext   : Nat
  tokenNext : Nat
  /-- MODEL'S OWN (log 1): what moves before the thread in rotation, first first. -/
  agenda    : List Move
  /-- MODEL'S OWN (log 1): how many turns more are a free choice before the ready context that has waited longest takes its
  turn, and how many moves before the first one of the agenda moves. -/
  rotation  : Nat
  patience  : Nat
  /-- The thread context that issues next in the rotation; the others stand in `others`. -/
  cur       : Thread
  others    : List Thread
  clusters  : Tbl Cluster
  dies      : Tbl Die
  /-- The stack bases, four to a die (01 R18). -/
  stackBases    : Tbl StackBase
  /-- Device memory by physical address (22 R398), its poisoned doublewords (05 R131) and host memory. -/
  mem       : Memory
  poison    : List Nat
  hostMem   : Memory
  /-- Poisoned doublewords of host memory, by address >> 3 (05 R131). -/
  hostPoison : List Nat
  l2        : List L2Line
  /-- The frame tables by column × 640 + frame; absent is free-clean (22 R404). -/
  frames    : Tbl FrameState
  /-- The stage-2 maps by global column × 640 + guest frame; absent is `V` = 0 (22 R404). -/
  s2map     : Tbl S2Entry
  parts     : Tbl Part
  regs      : List Registration
  biv       : List BivRec
  walks     : List Walk
  faults    : List FaultTok
  reqs      : List Req
  syscs     : List Sysc
  pf        : Pf
  cmds      : Tbl CmdCore
  events    : List CmdEvent
  boot      : Boot
  link      : Option (LinkWidth × LinkRate)
  irqs      : List Irq
  sent      : List Outgoing
  arrivals  : List Arrival
  inbound   : List Inbound
  deriving DecidableEq, Repr

/-- The reasons a step can stop the machine: there are none, since the spec gives every instruction and every step an effect. -/
inductive Fault
  deriving DecidableEq, Repr

/-- The reasons a step is refused. -/
inductive Refusal where
  /-- Raised by an arm of exec whose instruction has no meaning yet. Safe: nothing is claimed about it. -/
  | notModelled (mnemonic : String)
  /-- Raised by an instruction of a task (`EXIT`, `SPAWN`, `TALLOC` …) on a command core, which runs no task (10 R259):
  the spec gives it no effect there. Safe: nothing is claimed about it. -/
  | noTask (mnemonic : String)
  deriving DecidableEq, Repr

/-- What every meaning answers. -/
abbrev Out := Host.Outcome State Fault Refusal

/-! ### Reset -/

/-- The registers after reset: DESIGN CHOICE 0 (log 4); the spec gives values at task entry only (01 R25). -/
def Regs.reset : Regs :=
  { g := Vector.replicate 32 0, x := Vector.replicate 8 0, pc := 0, status := 0, tvec := 0, tpc := 0, tkind := 0,
    taddr := 0, tinfo := 0, tnest := 0, tsave := 0, event := 0 }

/-- A thread context that no task holds. -/
def Thread.idle (t : Tid) : Thread :=
  { id := t, wait := .free, regs := Regs.reset, task := none, tq := [], fenced := 0, acquired := 0, synced := 0, ckpt := false, mid := false,
    turn := none }

/-- A fabric after reset: empty; L is 1024 normally (23 R425). -/
def Fabric.reset : Fabric :=
  { image := none, pin := false, loading := none, fifos := [], accs := [], tables := [], delays := [], ages := [],
    packets := [], stream := none, started := [], finished := [], progress := [], draining := false, stale := false, lastUse := 0, admitted := 0, window := 0,
    limit := 1024, firedAt := 0 }

/-- A write pointer after reset (07 R183). -/
def WritePtr.reset : WritePtr := { brk := false, count := 0, req := none }

/-- A cluster after reset (log 5). -/
def Cluster.reset : Cluster :=
  { l1 := [], scratch := [], scrPoison := [], tlb := [], utlb := [], walkCache := [], shots := [], readyQ := [],
    stopped := false, store := [], tiles := [], sets := [], allocs := [], cairn := [], wps := [], inbox := [],
    chain := [], ssb := [], fabrics := [], paused := [], cfgCache := [], fetches := [], imgLoad := 0, imgFetch := 0, oldCode := [] }

/-- A die after reset (log 5). -/
def Die.reset : Die :=
  { dir := [], dirQ := [], forwards := [], shares := [], rdc := [], dirBits := [], rdcInv := [], belayQ := [],
    granted := [], stretch := false, aboveSince := none, corrected := 0, hostLines := [], hostInv := [] }

/-- A stack base after reset (log 5). -/
def StackBase.reset : StackBase := { tlb := [], shots := [] }

/-- The fields of a queue control block after reset (log 5). -/
def QcbFields.reset : QcbFields :=
  { seqw := 0, base := 0, ctrl := 0, head := 0, nseq := 0, state := 0, lasterr := 0, tshad := 0 }

/-- A queue after reset. -/
def Queue.reset : Queue :=
  { qcb := QcbFields.reset, shadow := QcbFields.reset, tail := 0, progress := 0, performed := false, writing := [] }

/-- An empty configuration (08 R189, 02 R72). -/
def PConf.reset : PConf := { servers := [], windows := [], loaders := [], peers := [] }

/-- A context's ordered-task machinery at partition start (13 R317, 23 R434). -/
def CtxState.reset : CtxState :=
  { cseq := 0, tiecnt := 0, holder := none, reports := [], finished := [], stalled := [] }

/-- A partition block after reset (22 R396). -/
def Part.reset : Part :=
  { pdesc := 0, pshare := 0, pretok := List.replicate 8 0, ctxdesc := 0, savebase := 0, fscb := 0, fsSeq := 0, sdva := 0,
    sdIssued := 0, sdDone := 0, sdPend := [], s2busy := false, s2res := 0, scrub := none, writeback := none, s2tok := 0,
    dirtylog := 0, umbpool := 0, stopped := false, sweep := none, swept := 0, switching := [], stopReq := false, abandoned := false, resident := 0,
    vacant := false, running := false, switched := false, resetting := false, svcHead := 0, svcBase := 0, svcLog := 0,
    svcTail := 0, svcSeq := 0, queues := [], conf := PConf.reset, pending := none, drain := [], confs := [], ctxs := [], saves := [], inboxes := [],
    rr := [], bindings := [], umbras := [], select := [], poolUsed := [], poolExtra := [], dirty := [], shed := 0,
    share := 256, evictedAt := none }

/-- The PF registers after reset: `PCAP` 2000 (23 R423); the others 0 (R405, R426, R431: log 5 where no column says so). -/
def Pf.reset : Pf :=
  { s2base := 0, s2size := 0, s2prod := 0, s2cons := 0, errBase := 0, errSize := 0, errProd := 0, errCons := 0,
    pcap := 2000, pcapLate := none, shedding := [], telidx := 0, ppwr := 0, temp := 0, watches := [], measure := List.replicate 8 0,
    errors := [], hdm := [] }

/-- The device right after reset: no partition, no task, memory with nothing listed, the command cores held until the
boot ROM has verified the firmware (23 R432), which is the host's `DEVICE_RESET_BOOT` step (log 13). -/
def State.reset : State :=
  { tick := 0, fresh := 0, uidNext := 0, tokenNext := 0, agenda := [], rotation := 0, patience := 0,
    cur := Thread.idle { kind := .barrel, unit := 0, slot := 0 }, others := [], clusters := [], dies := [], stackBases := [], mem := [],
    poison := [], hostMem := [], hostPoison := [], l2 := [], frames := [], s2map := [], parts := [], regs := [], biv := [], walks := [],
    faults := [], reqs := [], syscs := [], pf := Pf.reset, cmds := [], events := [], boot := .off, link := none,
    irqs := [], sent := [], arrivals := [], inbound := [] }

end Sys2Proof.Machine
end

