-- ==== Sys2Proof/Machine/Threads.lean ====
section
/-! DEFINITION. Reading and writing the parts of the state: thread contexts, registers, clusters, dies, partitions, names
and free values. -/

namespace Sys2Proof.Machine

/-! ### Fixed numbers of the device -/

/-- The global column of a cluster (01 R13). -/
def columnOf (cl : Nat) : Nat := cl / 8

/-- The die of a global column (01 R13). -/
def dieOfColumn (col : Nat) : Nat := col / 16

/-- The die of a cluster (01 R13). -/
def dieOfCluster (cl : Nat) : Nat := dieOfColumn (columnOf cl)

/-- A context of a cluster is core × 32 + slot (01 R28). -/
def coreOf (slot : Nat) : Nat := slot / 32

/-! ### Tables of the state -/

/-- A cluster by its global number. -/
def State.cluster (s : State) (cl : Nat) : Cluster := s.clusters.getD cl Cluster.reset

/-- The state with a cluster replaced. -/
def State.setCluster (s : State) (cl : Nat) (c : Cluster) : State := { s with clusters := s.clusters.put cl c }

/-- The state with a cluster changed. -/
def State.mapCluster (s : State) (cl : Nat) (f : Cluster → Cluster) : State := s.setCluster cl (f (s.cluster cl))

/-- A die by its number. -/
def State.die (s : State) (d : Nat) : Die := s.dies.getD d Die.reset

/-- The state with a die changed. -/
def State.mapDie (s : State) (d : Nat) (f : Die → Die) : State := { s with dies := s.dies.put d (f (s.die d)) }

/-- A stack base by its number (01 R18). -/
def State.stack (s : State) (k : Nat) : StackBase := s.stackBases.getD k StackBase.reset

/-- The state with a stack base changed. -/
def State.mapStack (s : State) (k : Nat) (f : StackBase → StackBase) : State := { s with stackBases := s.stackBases.put k (f (s.stack k)) }

/-- A partition by its number. -/
def State.part (s : State) (p : Nat) : Part := s.parts.getD p Part.reset

/-- The state with a partition changed. -/
def State.mapPart (s : State) (p : Nat) (f : Part → Part) : State := { s with parts := s.parts.put p (f (s.part p)) }

/-- The ordered-task machinery of a context. -/
def State.ctxState (s : State) (p c : Nat) : CtxState := (s.part p).ctxs.getD c CtxState.reset

/-- The state with a context's ordered-task machinery changed. -/
def State.mapCtx (s : State) (p c : Nat) (f : CtxState → CtxState) : State :=
  s.mapPart p fun t => { t with ctxs := t.ctxs.put c (f (t.ctxs.getD c CtxState.reset)) }

/-- A queue of a partition. -/
def State.queue (s : State) (p q : Nat) : Queue := (s.part p).queues.getD q Queue.reset

/-- The state with a queue changed. -/
def State.mapQueue (s : State) (p q : Nat) (f : Queue → Queue) : State :=
  s.mapPart p fun t => { t with queues := t.queues.put q (f (t.queues.getD q Queue.reset)) }

/-- A fabric of a cluster. -/
def State.fabric (s : State) (cl f : Nat) : Fabric := (s.cluster cl).fabrics.getD f Fabric.reset

/-- The state with a fabric changed. -/
def State.mapFabric (s : State) (cl f : Nat) (g : Fabric → Fabric) : State :=
  s.mapCluster cl fun c => { c with fabrics := c.fabrics.put f (g (c.fabrics.getD f Fabric.reset)) }

/-- A write pointer of a cluster (07 R183). -/
def State.wp (s : State) (cl n : Nat) : WritePtr := (s.cluster cl).wps.getD n WritePtr.reset

/-- The state with a write pointer changed. -/
def State.mapWp (s : State) (cl n : Nat) (f : WritePtr → WritePtr) : State :=
  s.mapCluster cl fun c => { c with wps := c.wps.put n (f (c.wps.getD n WritePtr.reset)) }

/-- The doubleword that a write pointer reads as (07 R183). -/
def wpWord (w : WritePtr) : Word := word ((if w.brk then 2 ^ 63 else 0) + w.count % 2 ^ 63)

/-! ### Partitions (01 R14, 22 R396) -/

/-- The first global column of a partition. -/
def Part.first (t : Part) : Nat := bits t.pdesc 0 6

/-- The last global column of a partition. -/
def Part.last (t : Part) : Nat := bits t.pdesc 8 6

/-- The `VMID` of a partition. -/
def Part.vmid (t : Part) : Nat := bits t.pdesc 48 6

/-- `PDESC.EN`. -/
def Part.enabled (t : Part) : Bool := bit t.pdesc 63

/-- `PDESC.DET`, the deterministic-mode bit. -/
def Part.det (t : Part) : Bool := bit t.pdesc 62

/-- The number of clusters of a partition (01 R14). -/
def Part.clusters (t : Part) : Nat := if t.enabled then 8 * (t.last + 1 - t.first) else 0

/-- The global cluster number of a logical cluster (01 R14). -/
def Part.globalCl (t : Part) (l : Nat) : Nat := 8 * t.first + l

/-- The logical cluster number of a global cluster of the partition (01 R14). -/
def Part.logicalCl (t : Part) (cl : Nat) : Nat := cl - 8 * t.first

/-- A global cluster belongs to the partition. -/
def Part.hasCl (t : Part) (cl : Nat) : Bool := t.enabled && 8 * t.first ≤ cl && cl < 8 * (t.last + 1)

/-- The dies of the partition, ascending (01). -/
def Part.dies (t : Part) : List Nat :=
  (upFrom 0 4).filter fun d => t.enabled && dieOfColumn t.first ≤ d && d ≤ dieOfColumn t.last

/-- The stack bases of the partition's columns: one north and one south of every eight columns (01 R15, R18). -/
def Part.stackList (t : Part) : List Nat :=
  (upFrom 0 16).filter fun k => t.enabled &&
    (upFrom t.first (t.last + 1 - t.first)).any fun col => k / 4 == dieOfColumn col && k % 2 == col % 16 / 8

/-- The global clusters of the partition, in ascending logical number. -/
def Part.clusterList (t : Part) : List Nat := upFrom (8 * t.first) t.clusters

/-- The partition whose columns hold a global cluster. -/
def State.partOfCluster (s : State) (cl : Nat) : Option Nat :=
  (s.parts.find? fun e => e.2.hasCl cl).map (·.1)

/-- The context that is resident at a logical cluster: during a terminator sweep the clusters that the token has left
already hold the incoming context (22 R415). -/
def Part.residentAt (t : Part) (l : Nat) : Option Nat :=
  match t.sweep with
  | some incoming => if l < t.swept ∧ !t.switching.contains l then incoming else if t.vacant then none else some t.resident
  | none => if t.vacant then none else some t.resident

/-! ### Threads -/

/-- A thread context by its name, if it has been used since reset. -/
def State.thread? (s : State) (t : Tid) : Option Thread :=
  if s.cur.id = t then some s.cur else s.others.find? fun th => decide (th.id = t)

/-- A list of contexts with one replaced or added. -/
def putThread (th : Thread) : List Thread → List Thread
  | [] => [th]
  | u :: us => if u.id = th.id then th :: us else u :: putThread th us

/-- The state with a thread context replaced. -/
def State.setThread (s : State) (th : Thread) : State :=
  if s.cur.id = th.id then { s with cur := th } else { s with others := putThread th s.others }

/-- Every thread context used since reset. -/
def State.threads (s : State) : List Thread := s.cur :: s.others

/-- The thread context that runs a task. -/
def State.threadOfTask (s : State) (uid : Nat) : Option Thread :=
  s.threads.find? fun th => match th.task with
    | some k => k.uid == uid
    | none => false

/-- The state with the running thread changed. -/
def State.mapCur (s : State) (f : Thread → Thread) : State := { s with cur := f s.cur }

/-- The running thread has met an acquire (12 R302). -/
def State.synchronise (s : State) : State := s.mapCur fun th => { th with acquired := s.tick }

/-- The state with the running thread's registers changed. -/
def State.mapRegs (s : State) (f : Regs → Regs) : State := { s with cur := { s.cur with regs := f s.cur.regs } }

/-- The state with the running thread's task changed. -/
def State.mapTask (s : State) (f : Task → Task) : State := { s with cur := { s.cur with task := s.cur.task.map f } }

/-- A thread goes on with the instruction that it has issued and that has not retired (01 R32). -/
def Thread.again (th : Thread) : Thread := { th with wait := .ready, mid := true }

/-- The state with the running thread's status changed. -/
def State.setWait (s : State) (w : Wait) : State := { s with cur := { s.cur with wait := w } }

/-! ### Registers of the running thread -/

/-- A `g` register of a register set; g0 reads 0 (03 R80). -/
def Regs.readG (r : Regs) (n : Reg) : Word := if n = 0 then 0 else r.g.get n.toFin

/-- A `g` register written; a write of g0 is discarded (03 R80). -/
def Regs.writeG (r : Regs) (n : Reg) (v : Word) : Regs :=
  if n = 0 then r else { r with g := r.g.set n.toNat v n.isLt }

/-- An `x` register. -/
def Regs.readX (r : Regs) (n : XReg) : Word := r.x.get n.toFin

/-- An `x` register written. -/
def Regs.writeX (r : Regs) (n : XReg) (v : Word) : Regs := { r with x := r.x.set n.toNat v n.isLt }

/-- g[n] of the running thread. -/
def State.g (s : State) (n : Reg) : Word := s.cur.regs.readG n

/-- g[n] of the running thread written. -/
def State.setG (s : State) (n : Reg) (v : Word) : State := s.mapRegs fun r => r.writeG n v

/-- x[n] of the running thread. -/
def State.x (s : State) (n : XReg) : Word := s.cur.regs.readX n

/-- x[n] of the running thread written. -/
def State.setX (s : State) (n : XReg) (v : Word) : State := s.mapRegs fun r => r.writeX n v

/-- The PC of the running thread. -/
def State.pc (s : State) : Word := s.cur.regs.pc

/-- The PC of the running thread written. -/
def State.setPc (s : State) (v : Word) : State := s.mapRegs fun r => { r with pc := v }

/-- The running thread goes on after an instruction of `len` bytes: the PC advances (03 R77) and the instruction counts as
retired (10 R264). -/
def State.advance (s : State) (len : Nat) : State :=
  ((s.setPc (s.pc + word len)).mapTask fun k => { k with retired := k.retired + 1 }).mapCur fun t => { t with mid := false }

/-- The running thread goes on at a jump target; the instruction counts as retired. -/
def State.jump (s : State) (target : Word) : State :=
  ((s.setPc target).mapTask fun k => { k with retired := k.retired + 1 }).mapCur fun t => { t with mid := false }

/-- The four-bit register field of a 16-bit form names g0 to g15 (03 R80). -/
def reg4 (n : Reg4) : Reg := n.setWidth 5

/-! ### `STATUS` (10 R253) -/

/-- `STATUS.MODE`: 0 user, 1 supervisor, 2 firmware. -/
def Regs.mode (r : Regs) : Nat := bits r.status 11 2

/-- `STATUS.PMODE`. -/
def Regs.pmode (r : Regs) : Nat := bits r.status 13 2

/-- `STATUS.TA`. -/
def Regs.ta (r : Regs) : Bool := bit r.status 15

/-- `STATUS.DET`. -/
def Regs.det (r : Regs) : Bool := bit r.status 10

/-- The mode of the running thread. -/
def State.mode (s : State) : Nat := s.cur.regs.mode

/-! ### Who is running -/

/-- The partition of the running task; 0 where no task runs. -/
def State.curPart (s : State) : Nat := match s.cur.task with
  | some k => k.part
  | none => 0

/-- The context of the running task; 0 where no task runs. -/
def State.curCtx (s : State) : Nat := match s.cur.task with
  | some k => k.ctx
  | none => 0

/-- The name of the running task; 0 where no task runs. -/
def State.curUid (s : State) : Nat := match s.cur.task with
  | some k => k.uid
  | none => 0

/-- An engine request by its name. -/
def State.req? (s : State) (id : Nat) : Option Req := s.reqs.find? fun r => r.id == id

/-- The state with a request changed. -/
def State.mapReq (s : State) (id : Nat) (f : Req → Req) : State :=
  { s with reqs := s.reqs.map fun r => if r.id = id then f r else r }

/-- The cluster whose local window, write pointers and L1 a thread reaches: a barrel thread's own; for a loader program the
cluster that issued its request (08 R206). -/
def State.homeCluster (s : State) (th : Thread) : Nat :=
  match th.id.kind with
  | .barrel => th.id.unit
  | _ =>
    match th.task with
    | some k =>
      match k.loader.bind s.req? with
      | some r => r.cl
      | none => 0
    | none => 0

/-- The cluster of the running thread. -/
def State.curCluster (s : State) : Nat := s.homeCluster s.cur

/-- The die of a thread: a memory core's number is its stack and core, 32 to a stack and four stacks to a die (01 R18);
three command cores stand on each die (21 R393). -/
def tidDie (t : Tid) : Nat :=
  match t.kind with
  | .barrel => dieOfCluster t.unit
  | .memory => t.unit / 128
  | .command => t.unit / 3

/-- The running task is ordered and not yet irrevocable: its accesses are speculative (05 R126, 13 R316). -/
def State.speculative (s : State) : Bool :=
  match s.cur.task with
  | some k => decide (k.cls = .ordered) && !k.irrevocable
  | none => false

/-- The running task is ordered. -/
def State.orderedTask (s : State) : Bool :=
  match s.cur.task with
  | some k => decide (k.cls = .ordered)
  | none => false

/-! ### Names, free values and the agenda -/

/-- MODEL'S OWN (log 8): the next name and the state that has used it. -/
def State.newUid (s : State) : Nat × State := (s.uidNext + 1, { s with uidNext := s.uidNext + 1 })

/-- The next token of fault service or `SYSC` (log 8). -/
def State.newToken (s : State) : Word × State :=
  ((Config.tokenBase + word (2 * s.tokenNext)) ||| 1, { s with tokenNext := s.tokenNext + 1 })

/-- A free word (log 2) and the state that has used it. -/
def State.freeW (s : State) : Word × State := (Config.freeWord s.fresh, { s with fresh := s.fresh + 1 })

/-- A free choice (log 2) and the state that has used it. -/
def State.freeB (s : State) : Bool × State := (Config.freeBool s.fresh, { s with fresh := s.fresh + 1 })

/-- A step of a unit is due (log 1). -/
def State.raise (s : State) (k : UnitKind) (a b c : Nat) : State := { s with agenda := s.agenda ++ [.unit k a b c] }

/-- A core kind as a number, for a thread's name on the agenda. -/
def coreKindCode : CoreKind → Nat
  | .barrel => 0
  | .memory => 1
  | .command => 2

/-- A core kind from its number. -/
def coreKindOf : Nat → CoreKind
  | 0 => .barrel
  | 1 => .memory
  | _ => .command

/-- A step that names a thread is due. -/
def State.raiseFor (s : State) (k : UnitKind) (t : Tid) : State := s.raise k (coreKindCode t.kind) t.unit t.slot

/-- The clusters of a partition that wait to be switched, a stop that waits and a `LAUNCH` that waits for its drain look again
(21 R391; 22 R415, R421). -/
def State.sweepWake (s : State) (p : Nat) : State :=
  let t := s.part p
  let s := t.switching.foldl (fun s l => s.raise .token p l 0) s
  let s := match t.pending with
    | some (q, _) => s.raise .packet p q 0
    | none => s
  if t.stopReq ∧ t.sweep.isNone then s.raise .token p t.clusters 0 else s

/-- An interrupt to the host (21 R376). -/
def State.interrupt (s : State) (i : Irq) : State := { s with irqs := s.irqs ++ [i] }

/-- A fold that changes the state once for each element of a list. -/
def State.each {α : Type} (s : State) (l : List α) (f : State → α → State) : State := l.foldl f s

end Sys2Proof.Machine
end

