-- ==== Sys2Proof/Machine/Flags.lean ====
section
/-! DEFINITION. The sticky flags of `STATUS` (02 R49, 10 R253): the flags an operation raises, and their setting. -/

namespace Sys2Proof.Machine

/-- The flags that one floating-point operation raises. -/
structure FFlags where
  nv : Bool := false
  dz : Bool := false
  of : Bool := false
  uf : Bool := false
  nx : Bool := false
  deriving DecidableEq, Repr

/-- No flag. -/
def FFlags.none : FFlags := {}

/-- Invalid operation. -/
def FFlags.invalid : FFlags := { nv := true }

/-- The union of two sets of flags. -/
def FFlags.union (a b : FFlags) : FFlags :=
  { nv := a.nv || b.nv, dz := a.dz || b.dz, of := a.of || b.of, uf := a.uf || b.uf, nx := a.nx || b.nx }

/-- The flags at their places in `STATUS` (10 R253). -/
def FFlags.mask (f : FFlags) : Word :=
  (wordB f.nv <<< 4) ||| (wordB f.dz <<< 3) ||| (wordB f.of <<< 2) ||| (wordB f.uf <<< 1) ||| wordB f.nx

/-- Flags are only ever set, never cleared, by an operation (06 R138). -/
def Regs.raiseFlags (r : Regs) (f : FFlags) : Regs := { r with status := r.status ||| f.mask }

/-- The running thread's flags raised. -/
def State.raiseFlags (s : State) (f : FFlags) : State := s.mapRegs fun r => r.raiseFlags f

/-- The bits of `STATUS` that an `MTS` writes: in user mode the sticky flags `TIE` and 4:0; in supervisor mode also `TA`
and `PMODE` when its new value is 0 or 1; in firmware mode every RW field, a `MODE` or `PMODE` of 3 leaving that field
unchanged (10 R253, 03 R83). -/
def statusWrite (mode : Nat) (old v : Word) : Word :=
  let sticky := setBits (setBits old 9 1 (bits v 9 1)) 0 5 (bits v 0 5)
  if mode = 0 then sticky
  else
    let ta := setBits sticky 15 1 (bits v 15 1)
    if mode = 1 then (if bits v 13 2 < 2 then setBits ta 13 2 (bits v 13 2) else ta)
    else
      let pm := if bits v 13 2 < 3 then setBits ta 13 2 (bits v 13 2) else ta
      if bits v 11 2 < 3 then setBits pm 11 2 (bits v 11 2) else pm

end Sys2Proof.Machine
end

