-- ==== Sys2Proof/Machine/Float.lean ====
section
/-! DEFINITION. IEEE 754-2019 binary arithmetic in exact natural-number form, rounded once (02 R45 to R52). -/

namespace Sys2Proof.Machine

/-- A binary format: significand bits with the hidden one, and exponent bits. -/
structure FloatSpec where
  prec  : Nat
  ebits : Nat
  deriving DecidableEq, Repr

/-- The four formats of a register (02 R45). -/
def specOf : FpFmt → FloatSpec
  | .f64 => ⟨53, 11⟩
  | .f32 => ⟨24, 8⟩
  | .f16 => ⟨11, 5⟩
  | .bf16 => ⟨8, 8⟩

/-- binary32, the format of array accumulators (02 R66). -/
def f32 : FloatSpec := ⟨24, 8⟩

/-- The width in bits. -/
def FloatSpec.width (f : FloatSpec) : Nat := f.prec + f.ebits

/-- The largest exponent of a finite value. -/
def FloatSpec.emax (f : FloatSpec) : Int := 2 ^ (f.ebits - 1) - 1

/-- The exponent of the smallest normal value. -/
def FloatSpec.emin (f : FloatSpec) : Int := 1 - f.emax

/-- The canonical quiet NaN (02 R48). -/
def FloatSpec.nan (f : FloatSpec) : Nat := (2 ^ f.ebits - 1) * 2 ^ (f.prec - 1) + 2 ^ (f.prec - 2)

/-- The bit pattern of an infinity. -/
def FloatSpec.inf (f : FloatSpec) (neg : Bool) : Nat :=
  (if neg then 2 ^ (f.width - 1) else 0) + (2 ^ f.ebits - 1) * 2 ^ (f.prec - 1)

/-- The bit pattern of the largest finite value of a sign. -/
def FloatSpec.maxFinite (f : FloatSpec) (neg : Bool) : Nat := f.inf neg - 1

/-- The bit pattern of a zero. -/
def FloatSpec.zero (f : FloatSpec) (neg : Bool) : Nat := if neg then 2 ^ (f.width - 1) else 0

/-- An exact value: a NaN (signalling or quiet), an infinity, or ± m × 2^e. -/
inductive FVal where
  | nan (signalling : Bool)
  | inf (neg : Bool)
  | num (neg : Bool) (m : Nat) (e : Int)
  deriving DecidableEq, Repr

/-- A result in a format and the flags it raises. -/
structure FRes where
  bits  : Nat
  flags : FFlags
  deriving DecidableEq, Repr

/-- The value of a bit pattern; bits above the format are ignored (02 R45). -/
def FloatSpec.decode (f : FloatSpec) (w : Nat) : FVal :=
  let v := w % 2 ^ f.width
  let neg := v / 2 ^ (f.width - 1) == 1
  let ex := v / 2 ^ (f.prec - 1) % 2 ^ f.ebits
  let fr := v % 2 ^ (f.prec - 1)
  if ex = 2 ^ f.ebits - 1 then
    if fr = 0 then .inf neg else .nan (fr < 2 ^ (f.prec - 2))
  else if ex = 0 then .num neg fr (f.emin - (f.prec - 1))
  else .num neg (fr + 2 ^ (f.prec - 1)) (f.emin - (f.prec - 1) + (ex - 1))

/-- A magnitude is rounded away from zero: by the mode, the sign, the parity of the kept part and the dropped part. -/
def roundsUp (mode : RoundMode) (neg odd : Bool) (rem half : Nat) : Bool :=
  match mode with
  | .rne => decide (half < rem) || (decide (rem = half) && odd)
  | .rz => false
  | .rd => neg && decide (rem ≠ 0)
  | .ru => !neg && decide (rem ≠ 0)

/-- m × 2^−sh rounded to an integer, and whether that was inexact (02 R46). -/
def shiftRound (mode : RoundMode) (neg : Bool) (m : Nat) (sh : Int) : Nat × Bool :=
  match sh with
  | .ofNat 0 => (m, false)
  | .ofNat (k + 1) =>
    let q := m / 2 ^ (k + 1)
    let rem := m % 2 ^ (k + 1)
    (if roundsUp mode neg (q % 2 == 1) rem (2 ^ k) then q + 1 else q, rem != 0)
  | .negSucc k => (m * 2 ^ (k + 1), false)

/-- The overflow result of a mode: an infinity, or the largest finite value when the mode rounds towards zero there. -/
def FloatSpec.overflow (f : FloatSpec) (mode : RoundMode) (neg : Bool) : FRes :=
  let toInf := match mode with
    | .rne => true
    | .rz => false
    | .rd => neg
    | .ru => !neg
  ⟨if toInf then f.inf neg else f.maxFinite neg, { of := true, nx := true }⟩

/-- ± m × 2^e rounded once into the format; tininess is detected after rounding (02 R46, R47, R49). -/
def FloatSpec.round (f : FloatSpec) (mode : RoundMode) (neg : Bool) (m : Nat) (e : Int) : FRes :=
  if m = 0 then ⟨f.zero neg, .none⟩
  else
    let lead : Int := e + bitLen m - 1
    let quantum : Int := (if lead < f.emin then f.emin else lead) - (f.prec - 1)
    let r := shiftRound mode neg m (quantum - e)
    let free := (shiftRound mode neg m (lead - (f.prec - 1) - e)).1
    let tiny := decide (lead < f.emin) && !(decide (lead = f.emin - 1) && decide (free = 2 ^ f.prec))
    if f.emax < quantum + bitLen r.1 - 1 then f.overflow mode neg
    else
      let field : Nat := if r.1 < 2 ^ (f.prec - 1) then 0 else (quantum + (f.prec - 1) - f.emin + 1).toNat
      let mag := if r.1 < 2 ^ (f.prec - 1) then r.1 else field * 2 ^ (f.prec - 1) + (r.1 - 2 ^ (f.prec - 1))
      ⟨f.zero neg + mag, { uf := tiny && r.2, nx := r.2 }⟩

/-- A value rounded into a format; a NaN gives the canonical one, a signalling one raises `NV` (02 R48, R49). -/
def FloatSpec.roundVal (f : FloatSpec) (mode : RoundMode) : FVal → FRes
  | .nan s => ⟨f.nan, { nv := s }⟩
  | .inf neg => ⟨f.inf neg, .none⟩
  | .num neg m e => f.round mode neg m e

/-- The canonical NaN with `NV`. -/
def FloatSpec.invalid (f : FloatSpec) : FRes := ⟨f.nan, .invalid⟩

/-- A NaN operand is signalling. -/
def FVal.signalling : FVal → Bool
  | .nan s => s
  | _ => false

/-- The value is a NaN. -/
def FVal.isNan : FVal → Bool
  | .nan _ => true
  | _ => false

/-- The sign inverted. -/
def FVal.neg : FVal → FVal
  | .nan s => .nan s
  | .inf n => .inf (!n)
  | .num n m e => .num (!n) m e

/-- A signed magnitude as an integer. -/
def signedMag (neg : Bool) (m : Nat) : Int := if neg then -(m : Int) else m

/-- The exact sum of two finite values, as an integer times 2^e. -/
def sumExact (n1 : Bool) (m1 : Nat) (e1 : Int) (n2 : Bool) (m2 : Nat) (e2 : Int) : Int × Int :=
  let e := if e1 < e2 then e1 else e2
  (signedMag n1 (m1 * 2 ^ (e1 - e).toNat) + signedMag n2 (m2 * 2 ^ (e2 - e).toNat), e)

/-- The exact sum of two values that are no NaN; `none` for ∞ − ∞. The sign of a zero sum follows IEEE 754-2019
(06 R139). -/
def FVal.add (mode : RoundMode) : FVal → FVal → Option FVal
  | .inf a, .inf b => if a = b then some (.inf a) else none
  | .inf a, _ => some (.inf a)
  | _, .inf b => some (.inf b)
  | .num n1 m1 e1, .num n2 m2 e2 =>
    let r := sumExact n1 m1 e1 n2 m2 e2
    if r.1 = 0 then
      some (.num (if m1 = 0 ∧ m2 = 0 ∧ n1 = n2 then n1 else decide (mode = .rd)) 0 0)
    else some (.num (decide (r.1 < 0)) r.1.natAbs r.2)
  | a, _ => some a

/-- The exact product of two values that are no NaN; `none` for ∞ × 0. -/
def FVal.mul : FVal → FVal → Option FVal
  | .inf a, .inf b => some (.inf (a != b))
  | .inf a, .num n m _ => if m = 0 then none else some (.inf (a != n))
  | .num n m _, .inf b => if m = 0 then none else some (.inf (n != b))
  | .num n1 m1 e1, .num n2 m2 e2 => some (.num (n1 != n2) (m1 * m2) (e1 + e2))
  | a, _ => some a

/-- The flags of NaN operands. -/
def nanFlags (l : List FVal) : FFlags := { nv := l.any FVal.signalling }

/-- `FADD` (06 R139). -/
def FloatSpec.add (f : FloatSpec) (mode : RoundMode) (a b : FVal) : FRes :=
  if a.isNan || b.isNan then ⟨f.nan, nanFlags [a, b]⟩
  else match a.add mode b with
    | some v => f.roundVal mode v
    | none => f.invalid

/-- `FMUL` (06 R139). -/
def FloatSpec.mul (f : FloatSpec) (mode : RoundMode) (a b : FVal) : FRes :=
  if a.isNan || b.isNan then ⟨f.nan, nanFlags [a, b]⟩
  else match a.mul b with
    | some v => f.roundVal mode v
    | none => f.invalid

/-- The quotient of two positive magnitudes to more bits than any format keeps, its last bit set if it is inexact. -/
def quotient (prec m1 m2 : Nat) : Nat × Nat :=
  let k := prec + 3 + bitLen m2
  let n := m1 * 2 ^ k
  (2 * (n / m2) + (if n % m2 = 0 then 0 else 1), k + 1)

/-- `FDIV` (06 R139). -/
def FloatSpec.div (f : FloatSpec) (mode : RoundMode) (a b : FVal) : FRes :=
  match a, b with
  | .nan x, y => ⟨f.nan, { nv := x || y.signalling }⟩
  | _, .nan y => ⟨f.nan, { nv := y }⟩
  | .inf _, .inf _ => f.invalid
  | .inf n, .num k _ _ => ⟨f.inf (n != k), .none⟩
  | .num n _ _, .inf k => ⟨f.zero (n != k), .none⟩
  | .num n1 m1 e1, .num n2 m2 e2 =>
    if m2 = 0 then (if m1 = 0 then f.invalid else ⟨f.inf (n1 != n2), { dz := true }⟩)
    else
      let q := quotient f.prec m1 m2
      f.round mode (n1 != n2) q.1 (e1 - e2 - q.2)

/-- The integer square root: the largest r with r² ≤ n, decided bit by bit from bit k − 1 down. -/
def isqrt (n : Nat) : Nat → Nat → Nat
  | 0, r => r
  | k + 1, r => if (r + 2 ^ k) * (r + 2 ^ k) ≤ n then isqrt n k (r + 2 ^ k) else isqrt n k r

/-- `FSQRT` (06 R139). -/
def FloatSpec.sqrt (f : FloatSpec) (mode : RoundMode) (a : FVal) : FRes :=
  match a with
  | .nan x => ⟨f.nan, { nv := x }⟩
  | .inf false => ⟨f.inf false, .none⟩
  | .inf true => f.invalid
  | .num n m e =>
    if m = 0 then ⟨f.zero n, .none⟩
    else if n then f.invalid
    else
      let odd := e % 2 = 1
      let k := f.prec + 3
      let big := (if odd then 2 * m else m) * 2 ^ (2 * k)
      let e' : Int := (if odd then e - 1 else e) / 2 - k
      let r := isqrt big (bitLen big / 2 + 1) 0
      f.round mode false (2 * r + (if r * r = big then 0 else 1)) (e' - 1)

/-- `FMAD` and, with the product negated, `FNMAD`: one rounding; an invalid product sets `NV` whatever D holds (06 R140). -/
def FloatSpec.fma (f : FloatSpec) (mode : RoundMode) (negate : Bool) (a b d : FVal) : FRes :=
  let flags := nanFlags [a, b, d]
  if a.isNan || b.isNan then ⟨f.nan, flags⟩
  else match a.mul b with
    | none => ⟨f.nan, { flags with nv := true }⟩
    | some p =>
      if d.isNan then ⟨f.nan, flags⟩
      else match (if negate then p.neg else p).add mode d with
        | some v => f.roundVal mode v
        | none => f.invalid

/-- −1, 0 or 1 as a < b, a = b or a > b, for values that are no NaN; −0 equals +0. -/
def FVal.cmp : FVal → FVal → Int
  | .inf a, .inf b => if a = b then 0 else if a then -1 else 1
  | .inf a, _ => if a then -1 else 1
  | _, .inf b => if b then 1 else -1
  | .num n1 m1 e1, .num n2 m2 e2 => Int.sign (sumExact n1 m1 e1 (!n2) m2 e2).1
  | _, _ => 0

/-- The value is a zero. -/
def FVal.isZero : FVal → Bool
  | .num _ m _ => m == 0
  | _ => false

/-- The sign. -/
def FVal.sign : FVal → Bool
  | .nan _ => false
  | .inf n => n
  | .num n _ _ => n

/-- minimumNumber (`max` = false) and maximumNumber, −0 below +0 (02 R50). -/
def FloatSpec.minmax (f : FloatSpec) (max : Bool) (a b : FVal) : FRes :=
  let flags := nanFlags [a, b]
  let pick (v : FVal) : FRes := ⟨(f.roundVal .rne v).bits, flags⟩
  if a.isNan && b.isNan then ⟨f.nan, flags⟩
  else if a.isNan then pick b
  else if b.isNan then pick a
  else
    let less := decide (a.cmp b < 0) || (decide (a.cmp b = 0) && a.sign && !b.sign)
    if less = max then pick b else pick a

/-- The three comparisons; a comparison with a NaN is false, and a signalling one sets `NV` for any NaN (02 R51). -/
def fcompare (quiet : Bool) (test : Int → Bool) (a b : FVal) : FRes :=
  if a.isNan || b.isNan then ⟨0, if quiet then nanFlags [a, b] else .invalid⟩
  else ⟨if test (a.cmp b) then 1 else 0, .none⟩

/-- The class mask (06 R142). -/
def FloatSpec.fclass (f : FloatSpec) (a : FVal) : Nat :=
  match a with
  | .nan s => if s then 2 ^ 8 else 2 ^ 9
  | .inf n => if n then 2 ^ 0 else 2 ^ 7
  | .num n m _ =>
    if m = 0 then (if n then 2 ^ 3 else 2 ^ 4)
    else if m < 2 ^ (f.prec - 1) then (if n then 2 ^ 2 else 2 ^ 5)
    else (if n then 2 ^ 1 else 2 ^ 6)

/-- `FRND`: an integral value of the same format, never `NX` (06 R143). -/
def FloatSpec.toIntegral (f : FloatSpec) (mode : RoundMode) (a : FVal) : FRes :=
  match a with
  | .nan s => ⟨f.nan, { nv := s }⟩
  | .inf n => ⟨f.inf n, .none⟩
  | .num n m e =>
    if 0 ≤ e then ⟨(f.round .rne n m e).bits, .none⟩
    else ⟨(f.round .rne n (shiftRound mode n m (-e)).1 0).bits, .none⟩

/-- Conversion to an integer in [lo, hi] with saturation (02 R52). -/
def toInteger (mode : RoundMode) (lo hi : Int) (a : FVal) : Int × FFlags :=
  match a with
  | .nan _ => (0, .invalid)
  | .inf n => (if n then lo else hi, .invalid)
  | .num n m e =>
    let r := shiftRound mode n m (-e)
    let v := signedMag n r.1
    if v < lo then (lo, .invalid)
    else if hi < v then (hi, .invalid)
    else (v, { nx := r.2 })

/-- Conversion from an integer (02 R52). -/
def FloatSpec.ofInteger (f : FloatSpec) (mode : RoundMode) (v : Int) : FRes := f.round mode (decide (v < 0)) v.natAbs 0

end Sys2Proof.Machine
end

