-- ==== Sys2Proof/Machine/Narrow.lean ====
section
/-! DEFINITION. The narrow formats: the binary8 family, scale bytes and the four-bit code sets (02 R53 to R62). -/

namespace Sys2Proof.Machine

/-- A binary8 format: precision 1 to 7, unsigned, extended (02 R53, R54). -/
structure B8Spec where
  p   : Nat
  uns : Bool
  ext : Bool
  deriving DecidableEq, Repr

/-- The exponent bias: 2^(w − 1) with w = 8 − P, or 9 − P unsigned (02 R53, R54). -/
def B8Spec.bias (b : B8Spec) : Int := 2 ^ ((if b.uns then 9 else 8) - b.p - 1)

/-- The NaN code (02 R53, R54). -/
def B8Spec.nan (b : B8Spec) : Nat := if b.uns then 0xFF else 0x80

/-- The code of +∞ in the extended variant, or of the largest finite value in the finite one. -/
def B8Spec.top (b : B8Spec) : Nat := if b.uns then 0xFE else 0x7F

/-- The magnitude code of the largest finite value (02 R53, R54). -/
def B8Spec.maxCode (b : B8Spec) : Nat := if b.ext then b.top - 1 else b.top

/-- The magnitude that a code without its sign stands for, as m × 2^e. -/
def B8Spec.magnitude (b : B8Spec) (c : Nat) : Nat × Int :=
  let t := b.p - 1
  let e := c / 2 ^ t
  let f := c % 2 ^ t
  if e = 0 then (f, 1 - b.bias - t) else (2 ^ t + f, (e : Int) - b.bias - t)

/-- The value of a binary8 byte (02 R53 to R55). -/
def B8Spec.decode (b : B8Spec) (byte : Nat) : FVal :=
  let neg := !b.uns && decide (128 ≤ byte)
  let c := if b.uns then byte else byte % 128
  if byte = b.nan then .nan false
  else if b.ext && c == b.top then .inf neg
  else .num neg (b.magnitude c).1 (b.magnitude c).2

/-- A magnitude code with its sign. -/
def B8Spec.signed (neg : Bool) (c : Nat) : Nat := if neg then 128 + c else c

/-- ± m × 2^e, not zero, rounded into binary8 under an overflow policy (02 R57); `inf` is `OVF`. DEDUCED (log 67). -/
def B8Spec.encodeNum (b : B8Spec) (mode : RoundMode) (inf : Bool) (neg : Bool) (m : Nat) (e : Int) : FRes :=
  let t := b.p - 1
  let emin : Int := 1 - b.bias
  let lead : Int := e + bitLen m - 1
  -- For P = 1 there are no subnormals below the smallest normal, whose exponent field is 1.
  let quantum : Int := (if lead < emin then emin else lead) - t
  let r := shiftRound mode neg m (quantum - e)
  let code : Nat := if r.1 = 0 then 0 else if r.1 < 2 ^ t then r.1
    else (quantum + t + b.bias).toNat * 2 ^ t + (r.1 - 2 ^ t)
  let towardZero := match mode with
    | .rne => false
    | .rz => true
    | .rd => !neg
    | .ru => neg
  if b.maxCode < code then
    if !inf || towardZero then ⟨B8Spec.signed neg b.maxCode, { of := true, nx := true }⟩
    else if b.ext then ⟨B8Spec.signed neg b.top, { of := true, nx := true }⟩
    else ⟨b.nan, { of := true, nx := true, nv := true }⟩
  else
    ⟨if code = 0 then 0 else B8Spec.signed neg code, { nx := r.2, uf := r.2 && decide (lead < emin) }⟩

/-- `FTOB8`: a value converted into binary8 (02 R57). -/
def B8Spec.encode (b : B8Spec) (mode : RoundMode) (inf : Bool) (v : FVal) : FRes :=
  match v with
  | .nan s => ⟨b.nan, { nv := s }⟩
  | .inf neg =>
    if b.uns && neg then ⟨if inf then 0xFF else 0, .invalid⟩
    else if b.ext then ⟨B8Spec.signed neg b.top, .none⟩
    else if inf then ⟨b.nan, .invalid⟩
    else ⟨B8Spec.signed neg b.maxCode, { nx := true }⟩
  | .num neg m e =>
    if m = 0 then ⟨0, .none⟩
    else if b.uns && neg then ⟨if inf then 0xFF else 0, .invalid⟩
    else b.encodeNum mode inf neg m e

/-- The conversion options of `x7` (02 R56). -/
structure B8Opts where
  spec : B8Spec
  inf  : Bool
  mode : RoundMode
  deriving DecidableEq, Repr

/-- A rounding mode from its code (02 R46). -/
def roundModeAt (n : Nat) : RoundMode :=
  match n % 4 with
  | 0 => .rne
  | 1 => .rz
  | 2 => .rd
  | _ => .ru

/-- The options word read (02 R56). -/
def b8Opts (w : Word) : B8Opts :=
  { spec := { p := bits w 0 3, uns := bit w 3, ext := bit w 4 }, inf := bit w 5, mode := roundModeAt (bits w 6 2) }

/-- A value times 2^s for a scale byte, exact; the code −128 is the NaN scale (02 R58). -/
def scaleBy (scale : Nat) (v : FVal) : FVal :=
  if scale % 256 = 0x80 then .nan false
  else match v with
    | .num n m e => .num n m (e + signedN scale 8)
    | x => x

/-- The value of a four-bit code of a set: id 1 `S4`, 2 to 4 binary4p1 to binary4p3 (02 R60). -/
def fourBit (set code : Nat) : FVal :=
  let c := code % 16
  if set = 1 then .num (decide (8 ≤ c)) (if 8 ≤ c then 16 - c else c) 0
  else if c = 8 then .nan false
  else
    let p := set - 1
    let t := p - 1
    let bias : Int := 2 ^ (4 - p - 1)
    let k := c % 8
    let e := k / 2 ^ t
    let f := k % 2 ^ t
    if e = 0 then .num (decide (8 ≤ c) && f != 0) f (1 - bias - t)
    else .num (decide (8 ≤ c)) (2 ^ t + f) ((e : Int) - bias - t)

end Sys2Proof.Machine
end

