-- ==== Sys2Proof/Machine/Window.lean ====
section
/-! DEFINITION. Format windows: which guest-physical addresses a window serves, and what they read as (02 R72 to R76). -/

namespace Sys2Proof.Machine

/-- The byte offset within its column of a guest-physical address (22 R398). -/
def columnOffset (gpa : Nat) : Nat := gpa % 2 ^ 35

/-- `EN` of a window. -/
def Window.enabled (w : Window) : Bool := bit w.ctl 12

/-- The expansion factor X: the expanded width over the stored width (02 R74). -/
def Window.factor (w : Window) : Nat :=
  match decide (bits w.ctl 0 3 = 1), bit w.ctl 13 with
  | false, false => 2
  | false, true => 4
  | true, false => 4
  | true, true => 8

/-- The view range holds a column offset (02 R74). -/
def Window.views (w : Window) (off : Nat) : Bool :=
  w.enabled && decide (w.view.toNat ≤ off) && decide (off < w.view.toNat + w.len.toNat * w.factor)

/-- The window of a partition whose view range holds a guest-physical address. -/
def Part.windowAt (t : Part) (gpa : Nat) : Option Window :=
  (t.conf.windows.find? fun e => e.2.views (columnOffset gpa)).map (·.2)

/-- A range of guest-physical addresses touches a view range. DEDUCED (log 26). -/
def Part.touchesView (t : Part) (gpa n : Nat) : Bool :=
  t.conf.windows.any fun e => e.2.enabled && decide (columnOffset gpa < e.2.view.toNat + e.2.len.toNat * e.2.factor) &&
    decide (e.2.view.toNat < columnOffset gpa + n)

/-- Elements per scale byte (02 R72). -/
def Window.block (w : Window) : Nat := 16 * 2 ^ bits w.ctl 14 2

/-- The stored offset of byte k of the view range (02 R74). -/
def Window.storedAt (w : Window) (k : Nat) : Nat := w.store.toNat + k / w.factor

/-- The lengths in bytes of the scale range: one byte for each block of elements (02 R74). -/
def Window.scaleLen (w : Window) : Nat :=
  let elems := if bits w.ctl 0 3 = 1 then 2 * w.len.toNat else w.len.toNat
  ceilDiv elems w.block

/-- A column offset lies in a range that the view depends on (02 R76). -/
def Window.dependsOn (w : Window) (off : Nat) : Bool :=
  w.enabled && ((decide (w.store.toNat ≤ off) && decide (off < w.store.toNat + w.len.toNat)) ||
    (decide (w.scale.toNat ≤ off) && decide (off < w.scale.toNat + w.scaleLen)))

/-- The column offsets of the stored and scale bytes from which n bytes of the view range, from byte k on, are made (02 R74). -/
def Window.sources (w : Window) (k n : Nat) : List Nat :=
  let size := if bit w.ctl 13 then 4 else 2
  (upFrom 0 n).flatMap fun i => [w.storedAt (k + i), w.scale.toNat + (k + i) / size / w.block]

/-- The value of element n of a window, from the bytes of its column (02 R59, R74). -/
def Window.element (w : Window) (read : Nat → Byte) (n : Nat) : FVal :=
  let raw :=
    if bits w.ctl 0 3 = 1 then
      let b := (read (w.store.toNat + n / 2)).toNat
      fourBit (bits w.ctl 8 4) (if n % 2 = 0 then b % 16 else b / 16)
    else
      B8Spec.decode { p := bits w.ctl 5 3, uns := bit w.ctl 3, ext := bit w.ctl 4 } (read (w.store.toNat + n)).toNat
  scaleBy (read (w.scale.toNat + n / w.block)).toNat raw

/-- Byte k of the view range: element values × 2^s, rounded once, RNE, to the expanded format; underflow gives a subnormal
or +0 (02 R74). DEDUCED (log 37). -/
def Window.viewByte (w : Window) (read : Nat → Byte) (k : Nat) : Byte :=
  let spec := specOf (if bit w.ctl 13 then .f32 else .bf16)
  let size := spec.width / 8
  let r := (spec.roundVal .rne (w.element read (k / size))).bits
  let v := if r = spec.zero true then 0 else r
  BitVec.ofNat 8 (v / 256 ^ (k % size))

end Sys2Proof.Machine
end

