-- ==== Sys2Proof/Machine/Home.lean ====
section
/-! DEFINITION. Locations and their homes: physical addresses, poison, the L2 marks, the RDC, the L1, the speculative store
buffer and the read signature (01 R15 to R19; 05 R124, R131; 13 R304 to R320; 22 R398 to R405). -/

namespace Sys2Proof.Machine

/-! ### Where an address lies -/

/-- The size of a scratchpad (01 R16). -/
def scratchSize : Nat := 768 * 1024

/-- The first address of the global scratchpad window; the reserved range begins here (01 R17). -/
def globalWindow : Nat := 0x00FE000000000000

/-- The first address of the local scratchpad window (01 R17). -/
def localWindow : Nat := 0x00FF000000000000

/-- The address stands in the reserved range of canonical VA (01 R17). -/
def reservedVa (va : Nat) : Bool := decide (globalWindow ≤ va) && decide (va < 0x0100000000000000)

/-- Bits 63:57 equal bit 56 (05 R123). -/
def canonical (va : Nat) : Bool := va >>> 56 == 0 || va >>> 56 == 255

/-- What the address alone decides: a scratchpad location, a trap unmapped, or translation (01 R17, 05 R123). -/
inductive Place where
  | at (l : Loc)
  | unmapped
  | paged
  deriving DecidableEq, Repr

/-- The place of an address for a caller of partition `p` on cluster `cl`. -/
def State.place (s : State) (p cl : Nat) (va : Word) : Place :=
  let a := va.toNat
  if reservedVa a then
    if localWindow ≤ a then
      (if a - localWindow < scratchSize then .at (.scratch cl (a - localWindow)) else .unmapped)
    else
      let n := (a - globalWindow) >>> 20
      let o := (a - globalWindow) % 2 ^ 20
      if n < (s.part p).clusters ∧ o < scratchSize then .at (.scratch ((s.part p).globalCl n) o) else .unmapped
  else if canonical a then .paged else .unmapped

/-- A location some bytes further on. -/
def Loc.shift : Loc → Nat → Loc
  | .dram p g, k => .dram p (g + k)
  | .scratch c o, k => .scratch c (o + k)
  | .phys a, k => .phys (a + k)
  | .host a, k => .host (a + k)

/-- The 64-byte line of a location and the offset in it. -/
def Loc.line : Loc → Loc × Nat
  | .dram p g => (.dram p (g - g % 64), g % 64)
  | .scratch c o => (.scratch c (o - o % 64), o % 64)
  | .phys a => (.phys (a - a % 64), a % 64)
  | .host a => (.host (a - a % 64), a % 64)

/-! ### Device memory: guest-physical and physical addresses (22 R398) -/

/-- The key of a frame in a frame table or a stage-2 map: column × 640 + frame. -/
def frameKey (col frame : Nat) : Nat := col * 640 + frame

/-- The frame number in an address of a column (22 R398). -/
def frameOf (a : Nat) : Nat := a / 2 ^ 25 % 1024

/-- The stage-2 entry of a guest-physical address of a partition (22 R404). -/
def State.s2 (s : State) (p gpa : Nat) : Option S2Entry :=
  let t := s.part p
  let col := t.first + gpa / 2 ^ 35
  if t.last < col ∨ 640 ≤ frameOf gpa then none else s.s2map.get? (frameKey col (frameOf gpa))

/-- The physical address that backs a guest-physical address; stage 2 rewrites only bits 34:25 (22 R398). -/
def State.physOf (s : State) (p gpa : Nat) : Option Nat :=
  (s.s2 p gpa).map fun e => ((s.part p).first + gpa / 2 ^ 35) * 2 ^ 35 + e.frame * 2 ^ 25 + gpa % 2 ^ 25

/-- The physical address of a location in device memory; an unmapped one has none. -/
def State.pa? (s : State) : Loc → Option Nat
  | .dram p g => s.physOf p g
  | .phys a => some a
  | _ => none

/-- The partition and the guest-physical address that a physical address backs: stage 2 read backwards (22 R404). -/
def State.guestOf (s : State) (pa : Nat) : Option (Nat × Nat) :=
  let col := pa / 2 ^ 35
  match s.s2map.find? fun e => e.1 / 640 == col && e.2.frame == frameOf pa with
  | none => none
  | some e =>
    (s.parts.find? fun t => t.2.enabled && decide (t.2.first ≤ col) && decide (col ≤ t.2.last)).map fun t =>
      (t.1, (col - t.2.first) * 2 ^ 35 + e.1 % 640 * 2 ^ 25 + pa % 2 ^ 25)

/-- The home slice of an address, and so the row of its home cluster (22 R398). -/
def homeRow (a : Nat) : Nat :=
  xor3 (a / 2 ^ 16) (xor3 (a / 2 ^ 19) (xor3 (a / 2 ^ 22) (xor3 (a / 2 ^ 25) (xor3 (a / 2 ^ 28) (a / 2 ^ 31)))))

/-- The global column of a guest-physical address. -/
def State.columnOfGpa (s : State) (p gpa : Nat) : Nat := (s.part p).first + gpa / 2 ^ 35

/-- The home cluster of a line, by its global number (01 R15). -/
def State.homeClusterOf (s : State) (p gpa : Nat) : Nat := s.columnOfGpa p gpa * 8 + homeRow gpa

/-- The home die of a line. -/
def State.homeDie (s : State) (p gpa : Nat) : Nat := dieOfColumn (s.columnOfGpa p gpa)

/-- A physical address that a memory answers: below 20 GiB of one of the 64 columns (22 R398). DESIGN CHOICE (log 51). -/
def populated (pa : Nat) : Bool := decide (pa < 2 ^ 41) && decide (pa % 2 ^ 35 < 20 * 2 ^ 30)

/-! ### Bytes at the home -/

/-- A byte of the frame behind a guest-physical address; 0 behind an unmapped frame, where stage 2 has faulted already. -/
def State.gpaByte (s : State) (p gpa : Nat) : Byte :=
  match s.physOf p gpa with
  | some a => s.mem.read a
  | none => Memory.unlisted

/-- The byte at a location's home; a view range is served by its window (02 R72, R74). -/
def State.byteAt (s : State) : Loc → Byte
  | .dram p g =>
    match (s.part p).windowAt g with
    | some w => w.viewByte (fun o => s.gpaByte p (g - columnOffset g + o)) (columnOffset g - w.view.toNat)
    | none => s.gpaByte p g
  | .scratch c o => (s.cluster c).scratch.read o
  | .phys a => s.mem.read a
  | .host a => s.hostMem.read a

/-- n bytes from a location upwards, at their home. -/
def State.bytesAt (s : State) (l : Loc) (n : Nat) : List Byte := (upFrom 0 n).map fun k => s.byteAt (l.shift k)

/-- The frame behind a guest-physical address holds it in a poisoned doubleword (05 R131). -/
def State.gpaPoisoned (s : State) (p gpa : Nat) : Bool :=
  match s.physOf p gpa with
  | some a => s.poison.contains (a / 8)
  | none => false

/-- The doubleword of a location is poisoned (05 R131). One of a view range is made from stored bytes and scale bytes, and the
frames behind the view are not read (02 R72): it is poisoned with any of those. DESIGN CHOICE (log 57). -/
def State.dwordPoisoned (s : State) : Loc → Bool
  | .dram p g =>
    match (s.part p).windowAt (g - g % 8) with
    | some w => (w.sources (columnOffset g - columnOffset g % 8 - w.view.toNat) 8).any fun o =>
        s.gpaPoisoned p (g - columnOffset g + o)
    | none => s.gpaPoisoned p g
  | .scratch c o => (s.cluster c).scrPoison.contains (o / 8)
  | .phys a => s.poison.contains (a / 8)
  | .host a => s.hostPoison.contains (a / 8)

/-- Any byte of a range lies in a poisoned doubleword. -/
def State.poisonedAt (s : State) (l : Loc) (n : Nat) : Bool := (upFrom 0 n).any fun k => s.dwordPoisoned (l.shift k)

/-- An element put into a list of marks, once. -/
def addMark (l : List Nat) (a : Nat) : List Nat := if l.contains a then l else l ++ [a]

/-- A write reached the home of a 64 KiB page (22 R421). -/
def State.markDirtyPage (s : State) (p gpa : Nat) : State :=
  s.mapPart p fun t => { t with dirty := addMark t.dirty (gpa / 2 ^ 16) }

/-- The copies of view lines that a write to a stored or scale range invalidates: L2 and RDC (02 R76). -/
def State.dropViews (s : State) (p gpa : Nat) : State :=
  let hit := (s.part p).conf.windows.filter fun e => e.2.dependsOn (columnOffset gpa)
  if hit.isEmpty then s
  else
    let col := gpa / 2 ^ 35
    let viewed (v line : Nat) : Bool :=
      v == (s.part p).vmid && line * 64 / 2 ^ 35 == col && hit.any fun e => e.2.views (columnOffset (line * 64))
    { s with
      l2 := s.l2.filter fun l => !viewed l.vmid l.line
      dies := s.dies.map fun e => (e.1, { e.2 with rdc := e.2.rdc.filter fun l => !viewed l.vmid l.line }) }

/-- The frame that a write to a guest-physical address reaches: none behind a view range, whose frames are not written (02 R72). -/
def State.frameAt (s : State) (p gpa : Nat) : Option Nat :=
  if ((s.part p).windowAt gpa).isSome then none else s.physOf p gpa

/-- One byte written at its home. -/
def State.pokeByte (s : State) (l : Loc) (b : Byte) : State :=
  match l with
  | .dram p g =>
    match s.frameAt p g with
    | some a => { s with mem := s.mem.write a b }
    | none => s
  | .scratch c o => s.mapCluster c fun k => { k with scratch := k.scratch.write o b }
  | .phys a => { s with mem := s.mem.write a b }
  | .host a => { s with hostMem := s.hostMem.write a b }

/-- Bytes written from a location upwards, at their home. -/
def State.pokeBytes (s : State) (l : Loc) : List Byte → State
  | [] => s
  | b :: bs => State.pokeBytes (s.pokeByte l b) (l.shift 1) bs

/-- The poison of one doubleword set or cleared. -/
def State.setPoison (s : State) (l : Loc) (on : Bool) : State :=
  let upd (m : List Nat) (a : Nat) : List Nat := if on then addMark m (a / 8) else m.filter fun x => x != a / 8
  match l with
  | .dram p g =>
    match s.frameAt p g with
    | some a => { s with poison := upd s.poison a }
    | none => s
  | .scratch c o => s.mapCluster c fun k => { k with scrPoison := upd k.scrPoison o }
  | .phys a => { s with poison := upd s.poison a }
  | .host a => { s with hostPoison := upd s.hostPoison a }

/-- The offset of a location in its own space, for alignment. -/
def Loc.offset : Loc → Nat
  | .dram _ g => g
  | .scratch _ o => o
  | .phys a => a
  | .host a => a

/-- A write of `n` bytes clears the poison of every doubleword that it writes whole (05 R131). -/
def State.clearPoison (s : State) (l : Loc) (n : Nat) : State :=
  (upFrom 0 n).foldl (fun s k =>
    if (l.offset + k) % 8 = 0 ∧ k + 8 ≤ n then s.setPoison (l.shift k) false else s) s

/-- The bookkeeping of a write to device memory: the dirty page and the view lines that depend on it. A physical write (a
command core's) is one to the guest-physical address that its frame backs. -/
def State.noteWrite (s : State) : Loc → State
  | .dram p g => (s.markDirtyPage p g).dropViews p g
  | .phys a =>
    match s.guestOf a with
    | some (p, g) => (s.markDirtyPage p g).dropViews p g
    | none => s
  | _ => s

/-- Bytes written at the home of a location within one line. -/
def State.writeHome (s : State) (l : Loc) (bs : List Byte) : State :=
  ((s.pokeBytes l bs).clearPoison l bs.length).noteWrite l

/-! ### Copies: the RDC and the L1 -/

/-- A list with elements replaced from an index on. -/
def splice {α : Type} (l : List α) (at_ : Nat) (v : List α) : List α := l.take at_ ++ v ++ l.drop (at_ + v.length)

/-- A line's copy with stored bytes; a doubleword written whole loses its poison (05 R131). -/
def Line.store (c : Line) (off : Nat) (bs : List Byte) : Line :=
  { c with
    data := splice c.data off bs
    poison := if off % 8 = 0 ∧ bs.length = 8 then splice c.poison (off / 8) [false] else c.poison }

/-- The copies of one line of a `VMID` with stored bytes. -/
def storeCopies (ls : List Line) (vmid gpa : Nat) (bs : List Byte) : List Line :=
  ls.map fun c => if c.vmid = vmid ∧ c.line = gpa / 64 then c.store (gpa % 64) bs else c

/-- The copies without one line of a `VMID`. -/
def dropCopies (ls : List Line) (vmid line : Nat) : List Line := ls.filter fun c => !(c.vmid == vmid && c.line == line)

/-- A copy of the line that holds a guest-physical address, as the home holds it now. -/
def State.homeLine (s : State) (p gpa : Nat) : Line :=
  let base : Loc := .dram p (gpa - gpa % 64)
  { vmid := (s.part p).vmid, line := gpa / 64, slice := 0, data := s.bytesAt base 64,
    poison := (upFrom 0 8).map fun k => s.dwordPoisoned (base.shift (8 * k)) }

/-- n bytes and their poison from a copy. -/
def Line.get (c : Line) (off n : Nat) : List Byte × Bool :=
  ((c.data.drop off).take n, ((c.poison.drop (off / 8)).take ((off % 8 + n + 7) / 8)).any id)

/-- An invalidation on its way to a die, once for each agent that waits for it. -/
def addInv (l : List RdcInv) (i : RdcInv) : List RdcInv := if l.contains i then l else l ++ [i]

/-- Every other die whose directory bit is set is sent an invalidation of the line; `own` is the die whose copy the write updated as
it passed. The bit stands until the invalidation is performed, so that a later write's release waits for it too (13 R319; 07 R156). -/
def State.sendInvalidations (s : State) (p gpa : Nat) (own : Option Nat) (writer : Nat) : State :=
  let h := s.homeDie p gpa
  let v := (s.part p).vmid
  let line := gpa / 64
  let hits := (s.die h).dirBits.filter fun e => e.1 == v && e.2.1 == line && decide (some e.2.2 ≠ own)
  hits.foldl (fun s e =>
    (s.mapDie e.2.2 fun d =>
      { d with rdcInv := addInv d.rdcInv { vmid := v, line := line, home := h, who := writer, seen := false } }).raise .rdcInv e.2.2 0 0) s

/-- The pending invalidations of a die that pass a test are performed: the lines leave its RDC, their directory bits are cleared,
and whoever else waits for one of these lines waits no longer (13 R319). DEDUCED (log 68). -/
def State.performInvalidations (s : State) (die : Nat) (test : RdcInv → Bool) : State :=
  let due := (s.die die).rdcInv.filter test
  let gone (v line : Nat) : Bool := due.any fun i => i.vmid == v && i.line == line
  if due.isEmpty then s
  else
    (due.foldl (fun (s : State) i => s.mapDie i.home fun d =>
      { d with dirBits := d.dirBits.filter fun e => !(e.1 == i.vmid && e.2.1 == i.line && e.2.2 == die) }) s).mapDie die fun d =>
      { d with
        rdc := d.rdc.filter fun c => !gone c.vmid c.line
        rdcInv := d.rdcInv.filter fun i => !gone i.vmid i.line }

/-- The pending host-bit invalidations of a die that pass a test are performed (13 R320). -/
def State.performHostInv (s : State) (die : Nat) (test : Nat → Bool) : State :=
  s.mapDie die fun d =>
    { d with
      hostLines := d.hostLines.filter fun c => !d.hostInv.any fun i => test i.2 && i.1 == c.line
      hostInv := d.hostInv.filter fun i => !test i.2 }

/-- A release at `.prt` waits for the RDC invalidations of the writer's earlier stores: they are performed (07 R156).
DEDUCED (log 68). -/
def State.releasePrt (s : State) (writer : Nat) : State :=
  (upFrom 0 4).foldl (fun s d => s.performInvalidations d fun i => i.who == writer) s

/-- A task has read a line at its home: its next acquire waits for an invalidation of the line that is on its way to its own die, so
that its later plain loads return what it has read or a later value (13 R308). DEDUCED (log 68). -/
def State.noteSeen (s : State) (cl who : Nat) (l : Loc) : State :=
  match l with
  | .dram p g =>
    let d := dieOfCluster cl
    match (s.die d).rdcInv.find? fun i => i.vmid == (s.part p).vmid && i.line == g / 64 with
    | some i => s.mapDie d fun k => { k with rdcInv := addInv k.rdcInv { i with who := who, seen := true } }
    | none => s
  | _ => s

/-- An acquire by a task of a cluster: the invalidations of lines that it has read at their homes reach its die (13 R308), and its
releases at `.prt` wait from now on for the invalidations of the writes that precede it: those of agents that no other die
runs, since a release at `.die` has not waited for them (13 R306). DEDUCED (log 68). -/
def State.acquireInv (s : State) (cl who : Nat) : State :=
  let own := dieOfCluster cl
  let s := s.performInvalidations own fun i => i.seen && i.who == who
  let far (w : Nat) : Bool := s.threads.any fun th => tidDie th.id != own && (match th.task with
    | some k => k.uid == w
    | none => false)
  (upFrom 0 4).foldl (fun s d =>
    let new := ((s.die d).rdcInv.filter fun i => i.who != who && !far i.who).map fun i => { i with who := who, seen := false }
    if new.isEmpty then s else s.mapDie d fun k => { k with rdcInv := new.foldl addInv k.rdcInv }) s

/-- A release at `.sys` waits besides for the writer's host-bit invalidations: they are performed (07 R156, 13 R320). -/
def State.releaseSys (s : State) (writer : Nat) : State :=
  (upFrom 0 4).foldl (fun s d => if (s.die d).hostInv.isEmpty then s else s.performHostInv d (· == writer))
    (s.releasePrt writer)

/-- The RDC copy of a host line that a die holds. -/
def Die.hostLine? (d : Die) (a : Nat) : Option HostLine := d.hostLines.find? fun c => c.line == a / 64

/-- A host line's copy with stored bytes. -/
def storeHostLine (ls : List HostLine) (a : Nat) (bs : List Byte) : List HostLine :=
  ls.map fun c => if c.line = a / 64 then
    { c with
      data := splice c.data (a % 64) bs
      poison := if a % 8 = 0 ∧ bs.length = 8 then splice c.poison (a % 64 / 8) [false] else c.poison }
  else c

/-- A write to host memory by a thread of a cluster: host memory, the copy of its own die's RDC, and a host-bit invalidation to
every other die that holds the line (13 R320). -/
def State.writeHost (s : State) (cl writer a : Nat) (bs : List Byte) : State :=
  let own := dieOfCluster cl
  let s := s.writeHome (.host a) bs
  (upFrom 0 4).foldl (fun s d =>
    if ((s.die d).hostLine? a).isNone then s
    else if d = own then s.mapDie d fun k => { k with hostLines := storeHostLine k.hostLines a bs }
    else (s.mapDie d fun k => { k with hostInv := k.hostInv ++ [(a / 64, writer)] }).raise .rdcInv d 0 0) s

/-- A host line taken into the RDC of a die over CXL.cache, from which every other die's copy leaves: a host line sits only in
the RDC of the die that took it (13 R320). -/
def State.takeHostLine (s : State) (d a : Nat) : State :=
  let base : Loc := .host (a - a % 64)
  let line : HostLine := { line := a / 64, data := s.bytesAt base 64,
                           poison := (upFrom 0 8).map fun k => s.dwordPoisoned (base.shift (8 * k)) }
  (upFrom 0 4).foldl (fun s e =>
    if e = d then s.mapDie d fun k => { k with hostLines := line :: k.hostLines.filter fun c => c.line != line.line }
    else if ((s.die e).hostLine? a).isNone then s
    else s.mapDie e fun k => { k with hostLines := k.hostLines.filter fun c => c.line != line.line }) s

/-- A store of a thread of a cluster performed at its home: the copy of its own die's RDC is updated as it passes, the
other dies' copies are invalidated (13 R318, R319). -/
def State.storeHome (s : State) (cl writer : Nat) (l : Loc) (bs : List Byte) : State :=
  match l with
  | .dram p g =>
    let d := dieOfCluster cl
    let s := s.writeHome l bs
    let s := if (s.die d).rdc.isEmpty then s else s.mapDie d fun k => { k with rdc := storeCopies k.rdc (s.part p).vmid g bs }
    s.sendInvalidations p g (some d) writer
  | .host a => s.writeHost cl writer a bs
  | .phys a =>
    match s.guestOf a with
    | some (p, g) => (s.writeHome l bs).sendInvalidations p g none writer
    | none => s.writeHome l bs
  | .scratch _ _ => s.writeHome l bs

/-- Any other write at a home (an atomic, an engine write, a commit): every die's copy is invalidated (13 R319). -/
def State.agentWrite (s : State) (writer : Nat) (l : Loc) (bs : List Byte) : State :=
  match l with
  | .dram p g => (s.writeHome l bs).sendInvalidations p g none writer
  | .phys a =>
    match s.guestOf a with
    | some (p, g) => (s.writeHome l bs).sendInvalidations p g none writer
    | none => s.writeHome l bs
  | _ => s.writeHome l bs

/-- The RDC copy of a line that a die holds is gone, with an invalidation of it that is on its way there. -/
def State.rdcDrop (s : State) (d p gpa : Nat) : State :=
  if (s.die d).rdc.isEmpty then s
  else s.mapDie d fun k => { k with rdc := dropCopies k.rdc (s.part p).vmid (gpa / 64) }

/-- An engine write that delivers poison with its data (05 R131, 08 R202). -/
def State.agentPoison (s : State) (l : Loc) (flags : List Bool) : State :=
  ((upFrom 0 flags.length).zip flags).foldl (fun s e => if e.2 then s.setPoison (l.shift (8 * e.1)) true else s) s

/-- The L1 copy of a line, if the cluster holds one. -/
def State.l1Copy (s : State) (cl p gpa : Nat) : Option Line :=
  (s.cluster cl).l1.find? fun c => c.vmid == (s.part p).vmid && c.line == gpa / 64

/-- The number of lines of one L1 set kept: 8 ways of 256 sets (01 R16; log 10). -/
def l1Insert (ls : List Line) (c : Line) : List Line :=
  let ls := c :: dropCopies ls c.vmid c.line
  let inSet := ls.filter fun x => x.line % 256 == c.line % 256
  if inSet.length ≤ 8 then ls
  else match inSet.getLast? with
    | some old => dropCopies ls old.vmid old.line
    | none => ls

/-- The L1 of a cluster emptied: what an acquire at `.die` or wider does (07 R156). DESIGN CHOICE (log 27). -/
def State.emptyL1 (s : State) (cl : Nat) : State :=
  if (s.cluster cl).l1.isEmpty then s else s.mapCluster cl fun c => { c with l1 := [] }

/-- The host lines leave the RDC of a cluster's die (13 R320). -/
def State.dropHostLines (s : State) (cl : Nat) : State :=
  if (s.die (dieOfCluster cl)).hostLines.isEmpty then s
  else s.mapDie (dieOfCluster cl) fun d => { d with hostLines := [] }

/-- The L1 copy of a stored line updated, without allocating (05 R124). -/
def State.l1Store (s : State) (cl : Nat) (l : Loc) (bs : List Byte) : State :=
  match l with
  | .dram p g =>
    if (s.cluster cl).l1.isEmpty then s else s.mapCluster cl fun c => { c with l1 := storeCopies c.l1 (s.part p).vmid g bs }
  | _ => s

/-- The L1 copy of a line invalidated. -/
def State.l1Drop (s : State) (cl : Nat) (l : Loc) : State :=
  match l with
  | .dram p g =>
    if (s.cluster cl).l1.isEmpty then s else s.mapCluster cl fun c => { c with l1 := dropCopies c.l1 (s.part p).vmid (g / 64) }
  | _ => s

/-- A write by an instruction of the running cluster that is performed at the home and is no store (an atomic, a rope, a future, a
counter): the copies through which that cluster's loads pass leave with it, so that a later load of the cluster returns the
write or a later one (05 R124, 12 R300). The other dies' invalidations carry the writer's name. -/
def State.ownWrite (s : State) (cl writer : Nat) (l : Loc) (bs : List Byte) : State :=
  match l with
  | .dram p g => ((s.agentWrite writer l bs).rdcDrop (dieOfCluster cl) p g).l1Drop cl l
  | _ => s.agentWrite writer l bs

/-- A line that an instruction of a cluster has written at its home through a structure (a rope, a future, a counter): the
invalidations of it that no agent claims yet are those of the instruction's task, for which its later releases wait
(07 R156), and the copies through which the cluster's loads pass are gone (05 R124, 12 R300). -/
def State.claimWrite (s : State) (cl uid p gpa : Nat) : State :=
  let unclaimed (i : RdcInv) : Bool := i.vmid == (s.part p).vmid && i.line == gpa / 64 && i.who == 0
  let s := if s.dies.any fun e => e.2.rdcInv.any unclaimed then
      { s with dies := s.dies.map fun e =>
        (e.1, { e.2 with rdcInv := e.2.rdcInv.map fun i => if unclaimed i then { i with who := uid } else i }) }
    else s
  (s.rdcDrop (dieOfCluster cl) p gpa).l1Drop cl (.dram p gpa)

/-- The RDC is bypassed: the partition names no slice (22 R398). -/
def Part.bypassesRdc (t : Part) : Bool := bits t.pshare 48 16 == 0

/-- The RDC slices that a partition's lines may use, ascending (22 R398). -/
def Part.rdcSlices (t : Part) : List Nat := (upFrom 0 16).filter fun k => bit t.pshare (48 + k)

/-- The slice of an RDC that takes a line: at position (gpa[9:6] ⊕ gpa[13:10]) mod k of the ascending list of the named slices
(22 R398). -/
def Part.rdcSlice (t : Part) (line : Nat) : Nat :=
  let l := t.rdcSlices
  (l[Nat.xor (line % 16) (line / 16 % 16) % l.length]?).getD 0

/-- The lines of 64 bytes that one slice of an RDC holds: 2 MiB (01 R18). -/
def rdcSliceLines : Nat := 32768

/-- A line put into an RDC; where its slice is full, the line of that slice filled longest ago leaves. -/
def rdcInsert (ls : List Line) (c : Line) : List Line :=
  let ls := c :: dropCopies ls c.vmid c.line
  if ls.length ≤ rdcSliceLines then ls
  else
    let mine := ls.filter fun x => x.slice == c.slice
    if mine.length ≤ rdcSliceLines then ls
    else match mine.getLast? with
      | some old => dropCopies ls old.vmid old.line
      | none => ls

/-- A plain load reads no home: the cluster's L1 holds the line, or the die's RDC holds a line homed elsewhere (05 R124,
13 R318). -/
def State.cachedLine (s : State) (cl : Nat) : Loc → Option Line
  | .dram p g =>
    match s.l1Copy cl p g with
    | some c => some c
    | none =>
      let d := dieOfCluster cl
      if s.homeDie p g = d ∨ (s.part p).bypassesRdc then none
      else (s.die d).rdc.find? fun c => c.vmid == (s.part p).vmid && c.line == g / 64 && c.slice == (s.part p).rdcSlice (g / 64)
  | _ => none

/-- A line taken into the RDC of a die that is not its home; the home's directory sets that die's bit (13 R318). -/
def State.rdcFill (s : State) (cl p gpa : Nat) (c : Line) : State :=
  let d := dieOfCluster cl
  let h := s.homeDie p gpa
  if h = d ∨ (s.part p).bypassesRdc then s
  else
    let s := s.mapDie d fun k => { k with rdc := rdcInsert k.rdc { c with slice := (s.part p).rdcSlice c.line } }
    s.mapDie h fun k =>
      { k with dirBits := if k.dirBits.contains (c.vmid, c.line, d) then k.dirBits else (c.vmid, c.line, d) :: k.dirBits }

/-- A plain or stream load: the bytes, their poison, and the caches after it. A stream miss allocates nothing in the L1
(05 R124). -/
def State.loadCached (s : State) (cl : Nat) (stream : Bool) (l : Loc) (n : Nat) : (List Byte × Bool) × State :=
  match l with
  | .dram p g =>
    let alloc (s : State) (c : Line) : State :=
      if stream then s else s.mapCluster cl fun k => { k with l1 := l1Insert k.l1 c }
    match s.l1Copy cl p g with
    | some c => (c.get (g % 64) n, s)
    | none =>
      match s.cachedLine cl l with
      | some c => (c.get (g % 64) n, alloc s { c with slice := 0 })
      | none =>
        let c := s.homeLine p g
        (c.get (g % 64) n, alloc (s.rdcFill cl p g c) c)
  | .host a =>
    let d := dieOfCluster cl
    match (s.die d).hostLine? a with
    | some c => (((c.data.drop (a % 64)).take n, ((c.poison.drop (a % 64 / 8)).take ((a % 8 + n + 7) / 8)).any id), s)
    | none => ((s.bytesAt l n, s.poisonedAt l n), s.takeHostLine d a)
  | _ => ((s.bytesAt l n, s.poisonedAt l n), s)

/-- A load that reads at the home and allocates nothing: direct loads, acquires, engines (05 R124). -/
def State.loadHome (s : State) (l : Loc) (n : Nat) : List Byte × Bool := (s.bytesAt l n, s.poisonedAt l n)

/-! ### The L2: residency, write marks and stage 2 (22 R405) -/

/-- The L2 line that holds a guest-physical address. -/
def State.l2Line? (s : State) (p gpa : Nat) : Option L2Line :=
  s.l2.find? fun l => l.vmid == (s.part p).vmid && l.line == gpa / 64 && l.slice == s.homeClusterOf p gpa

/-- The set of an L2 slice that takes a line: its home cluster and the bits 15:6 of its address (01 R16; 22 R398). -/
def L2Line.set (l : L2Line) : Nat × Nat := (l.slice, l.line % 1024)

/-- Two entries for one line of an L2 slice. -/
def L2Line.same (l x : L2Line) : Bool := x.vmid == l.vmid && x.line == l.line && x.slice == l.slice

/-- The ways of an L2 slice (01 R16). -/
def l2Ways : Nat := 16

/-- An L2 line put in place, where it becomes the most recently used line of its set, or with `last` the least recently used one. A
set that is full of other lines loses its least recently used line (01 R16; 05 R124). The list holds the lines of each set in
the order of their use, the latest first. -/
def State.putL2 (s : State) (l : L2Line) (last : Bool) : State :=
  let rest := s.l2.filter fun x => !l.same x
  let mine := rest.filter fun x => decide (x.set = l.set)
  let rest := if mine.length < l2Ways then rest
    else match mine.getLast? with
      | some old => rest.filter fun x => !old.same x
      | none => rest
  { s with l2 := if last then rest ++ [l] else l :: rest }

/-- An L2 line is used: it becomes the most recently used one of its set. -/
def State.touchL2 (s : State) (l : L2Line) : State :=
  match s.l2.find? fun x => decide (x.set = l.set) with
  | some x => if x = l then s else s.putL2 l false
  | none => s

/-- What the home answers to an access: granted, a miss that goes to the memory controller, a wait behind requests to the same
line that arrived earlier, or a stage-2 fault with the guest-physical address and its reason (22 R405, R407: 4 unmapped, 5
write protected). -/
inductive HomeAnswer where
  | granted (s : State)
  | miss
  | busy
  | fault (gpa reason : Nat)

/-- Stage 2 at the memory controller (22 R404, R405): the write permission, or the address and the reason of the fault. A view line
is read from its window's stored range and scale range, which stage 2 translates (02 R72). -/
def State.stage2 (s : State) (p gpa : Nat) (write : Bool) : Except (Nat × Nat) Bool :=
  match (s.part p).windowAt gpa with
  | some w =>
    let col := gpa - columnOffset gpa
    let line := columnOffset gpa - columnOffset gpa % 64 - w.view.toNat
    match (w.sources line 64).find? fun o => (s.s2 p (col + o)).isNone with
    | some o => .error (col + o, 4)
    | none => .ok false
  | none =>
    match s.s2 p gpa with
    | none => .error (gpa, 4)
    | some e => if write && !e.w then .error (gpa, 5) else .ok e.w

/-- An engine request holds a line at its home until its completion action is done (08 R201). -/
def State.lineHeld (s : State) (p gpa : Nat) : Bool := s.reqs.any fun q => q.holds == some (p, gpa / 64)

/-- An engine request holds the line of a location. -/
def State.lineHeldAt (s : State) (l : Loc) : Bool :=
  match l with
  | .dram p g => s.lineHeld p g
  | _ => false

/-- The line at whose home a thread's request waits, or whose turn it is there: it has arrived (07 R151). -/
def Thread.arrivedAt (th : Thread) : Option (Nat × Nat) :=
  match th.wait with
  | .access _ (.dram p g) => some (p, g / 64)
  | .home (.dram p g) => some (p, g / 64)
  | .ready => if th.mid then th.turn else none
  | _ => none

/-- An engine request holds a line, or other threads' requests to it have arrived earlier (07 R151, 08 R201). -/
def State.homeBusy (s : State) (p gpa : Nat) : Bool :=
  s.lineHeld p gpa ||
    (decide (s.cur.arrivedAt ≠ some (p, gpa / 64)) && s.others.any fun th => th.arrivedAt == some (p, gpa / 64))

/-- An access that meets the L2 slice: a hit is confirmed at once when it is a read or the write mark is set; a write with a
clear mark reads the map again (22 R405). -/
def State.askL2 (s : State) (l : Loc) (write : Bool) : HomeAnswer :=
  match l with
  | .dram p g =>
    match s.l2Line? p g with
    | none => .miss
    | some c =>
      if !write then .granted (s.touchL2 c)
      else if c.mark then
        .granted (if c.dirty then s.touchL2 c else s.putL2 { c with dirty := true } false)
      else match s.stage2 p g true with
        | .ok _ => .granted (s.putL2 { c with mark := true, dirty := true } false)
        | .error r => .fault r.1 r.2
  | _ => .granted s

/-- An access of the running thread that arrives at its home: it waits behind the requests to its line that arrived earlier
(07 R151). -/
def State.askHome (s : State) (l : Loc) (write : Bool) : HomeAnswer :=
  match l with
  | .dram p g => if s.homeBusy p g then .busy else s.askL2 l write
  | _ => .granted s

/-- An access that has reached the memory controller: stage 2, then the refill, at the least recently used place for a stream
access (05 R124; 22 R405). -/
def State.refill (s : State) (l : Loc) (write stream : Bool) : HomeAnswer :=
  match l with
  | .dram p g =>
    match s.stage2 p g write with
    | .ok w =>
      match s.l2Line? p g with
      | none => .granted (s.putL2 { vmid := (s.part p).vmid, line := g / 64, slice := s.homeClusterOf p g, mark := w, dirty := write } stream)
      | some c => .granted (s.putL2 { c with mark := w, dirty := write || c.dirty } false)
    | .error r => .fault r.1 r.2
  | _ => .granted s

/-! ### Speculation: the store buffer and the read signature (13 R310, R316) -/

/-- The line number of the signature: the GPA >> 6, or the global-window address >> 6 of a scratchpad byte (13 R310). -/
def State.sigLine (s : State) : Loc → Nat
  | .dram _ g => g / 64
  | .scratch c o =>
    match s.partOfCluster c with
    | some p => (globalWindow + (s.part p).logicalCl c * 2 ^ 20 + o) / 64
    | none => (globalWindow + o) / 64
  | .phys a => a / 64
  | .host a => a / 64

/-- The multipliers M_0 to M_3 (13 R310). -/
def sigMultipliers : List Nat := [0x9E3779B97F4A7C15, 0xC2B2AE3D27D4EB4F, 0x165667B19E3779F9, 0xD6E8FEB86659FD93]

/-- The signature bits H_0(L) to H_3(L) of a line (13 R310). -/
def sigBits (line : Nat) : List Nat := sigMultipliers.map fun m => (line * m % 2 ^ 64) >>> 53

/-- The signature with a line's bits set. -/
def sigAdd (sig : BitVec 2048) (line : Nat) : BitVec 2048 :=
  (sigBits line).foldl (fun g h => g ||| (1#2048 <<< h)) sig

/-- A line hits the signature when all four of its bits are set. -/
def sigHits (sig : BitVec 2048) (line : Nat) : Bool := (sigBits line).all fun h => sig.getLsbD h

/-- The number of bits set. -/
def sigCount (sig : BitVec 2048) : Nat := popCount 2048 sig.toNat

/-- A line's bits are all set already, or setting one is not barred by 1536 set bits (13 R316). -/
def sigRoom (sig : BitVec 2048) (line : Nat) : Bool := sigHits sig line || decide (sigCount sig < 1536)

/-- The SSB line of a task at a location, in its cluster. -/
def Cluster.ssbLine? (c : Cluster) (uid : Nat) (l : Loc) : Option SsbLine :=
  c.ssb.find? fun x => x.owner == uid && decide (x.loc = l.line.1)

/-- Bytes as a speculative task sees them: its own buffered bytes over the others (05 R126). DEDUCED (log 34). -/
def Cluster.overlay (c : Cluster) (uid : Nat) (l : Loc) (bs : List Byte) : List Byte :=
  match c.ssbLine? uid l with
  | none => bs
  | some x => ((upFrom l.line.2 bs.length).zip bs).map fun e => (x.bytes.find? fun b => b.1 == e.1).elim e.2 (·.2)

/-- Every doubleword of a range has been written whole by one of the task's buffered stores, which clears its poison
(05 R131). -/
def Cluster.ssbCovers (c : Cluster) (uid : Nat) (l : Loc) (n : Nat) : Bool :=
  match c.ssbLine? uid l with
  | none => false
  | some x => (upFrom l.line.2 n).all fun k => x.whole.contains (k / 8)

/-- A speculative task meets poison in a range of one line: a poisoned doubleword that it has not buffered whole. -/
def State.specPoisoned (s : State) (cl uid : Nat) (l : Loc) (n : Nat) : Bool :=
  (upFrom 0 n).any fun k => s.dwordPoisoned (l.shift k) && !(s.cluster cl).ssbCovers uid (l.shift k) 1

/-- The SSB has room for a store of the task at a location: its line is held already, or the task holds fewer than 4096 lines
(13 R316: its own 4097th line). DEDUCED (log 21). -/
def Cluster.ssbRoom (c : Cluster) (uid : Nat) (l : Loc) : Bool :=
  (c.ssbLine? uid l).isSome || decide ((c.ssb.filter fun x => x.owner == uid).length < 4096)

/-- A speculative store: the bytes enter the task's SSB line (05 R126). -/
def Cluster.ssbStore (c : Cluster) (uid : Nat) (l : Loc) (bs : List Byte) : Cluster :=
  let new := (upFrom l.line.2 bs.length).zip bs
  let whole := if l.line.2 % 8 = 0 ∧ bs.length = 8 then [l.line.2 / 8] else []
  match c.ssbLine? uid l with
  | some x =>
    let y : SsbLine := { x with
      bytes := (x.bytes.filter fun b => !new.any fun e => e.1 == b.1) ++ new
      whole := whole ++ x.whole.filter fun k => !whole.contains k }
    { c with ssb := c.ssb.map fun z => if z.owner = uid ∧ z.loc = l.line.1 then y else z }
  | none => { c with ssb := c.ssb ++ [{ owner := uid, loc := l.line.1, bytes := new, whole := whole }] }

end Sys2Proof.Machine
end

