-- ==== Sys2Proof/Machine/Walk.lean ====
section
/-! DEFINITION. Stage-1 translation as the tables give it: context descriptors, table entries, the walk and the permission
check (22 R400 to R403, R413). -/

namespace Sys2Proof.Machine

/-- A doubleword of device memory at its home, by guest-physical address; a view range reads as its window serves it (02 R72). -/
def State.readD (s : State) (p gpa : Nat) : Word := word (leNat (s.bytesAt (.dram p gpa) 8))

/-- A doubleword written at its home by the hardware (a walker's `A` and `D`, a record, a log). -/
def State.writeD (s : State) (p gpa : Nat) (v : Word) : State :=
  s.agentWrite 0 (.dram p gpa) (leBytes 8 v.toNat)

/-- A field of the descriptor of a context (22 R413). -/
def State.ctxField (s : State) (p c off : Nat) : Word := s.readD p ((s.part p).ctxdesc.toNat + 64 * c + off)

/-- The ASID of a context (22 R413). DESIGN CHOICE (log 66). -/
def State.asid (s : State) (p c : Nat) : Nat := bits (s.ctxField p c 8) 0 16

/-- The lowest VA bit that a level's index covers (22 R400). -/
def levelShift : Nat → Nat
  | 4 => 48
  | 3 => 36
  | 2 => 25
  | _ => 16

/-- The number of index bits of a level (22 R400). -/
def levelBits : Nat → Nat
  | 4 => 9
  | 3 => 12
  | 2 => 11
  | _ => 9

/-- The address bits of an entry. -/
def entryAddr (e : Word) : Nat := bits e 12 29 * 2 ^ 12

/-- The number of low address bits that have to be 0: of the page a leaf maps, or of the next table (22 R400, R401). -/
def entryAlign (level : Nat) (leaf : Bool) : Nat :=
  if leaf then levelShift level
  else match level with
    | 4 => 15
    | 3 => 14
    | _ => 12

/-- An entry at a level is a leaf. -/
def entryLeaf (level : Nat) (e : Word) : Bool := decide (level ≤ 1) || bit e 1

/-- An entry with `V` = 1 is malformed (22 R401). -/
def entryMalformed (level : Nat) (e : Word) : Bool :=
  let leaf := entryLeaf level e
  bits e 41 23 != 0 || bits e 9 3 != 0 || entryAddr e % 2 ^ entryAlign level leaf != 0 ||
  (level == 1 && !bit e 1) || (level == 4 && bit e 1) || (leaf && bit e 3 && !bit e 2) || (!leaf && bits e 2 7 != 0)

/-- How a walk ends: a leaf with its place and page size, a fault with its reason and level, or a stage-2 fault on a table
(22 R403, R405). -/
inductive WalkEnd where
  | leaf (e : Word) (at_ bits : Nat)
  | fault (reason level : Nat)
  | stage2 (gpa reason : Nat)
  deriving DecidableEq, Repr

/-- The walk from a table of a level downwards; it reads entries at their home and never through a cache (22 R402). -/
def State.walkFrom (s : State) (p : Nat) (va : Word) : Nat → Nat → WalkEnd
  | 0, _ => .fault 3 1
  | level + 1, table =>
    let l := level + 1
    let a := table + 8 * bits va (levelShift l) (levelBits l)
    match s.stage2 p a false with
    | .error r => .stage2 r.1 r.2
    | .ok _ =>
      let e := s.readD p a
      if !bit e 0 then .fault 1 l
      else if entryMalformed l e then .fault 3 l
      else if entryLeaf l e then .leaf e a (levelShift l)
      else State.walkFrom s p va level (entryAddr e)

/-- The walk from the root of a context. -/
def State.walkRoot (s : State) (p c : Nat) (va : Word) : WalkEnd :=
  s.walkFrom p va 4 (s.ctxField p c 0).toNat

/-- A leaf permits an access: 0 load, 1 store or atomic, 2 fetch; user mode needs `U`, supervisor mode passes it (22 R401). -/
def leafAllows (e : Word) (acc : Nat) (user : Bool) : Bool :=
  (!user || bit e 5) && (match acc with
    | 0 => bit e 2
    | 1 => bit e 3
    | _ => bit e 4)

/-- The guest-physical address a leaf gives. -/
def leafGpa (e : Word) (pageBits : Nat) (va : Word) : Nat :=
  (entryAddr e / 2 ^ pageBits) * 2 ^ pageBits + va.toNat % 2 ^ pageBits

/-- The chunk that backs a chunk of guest-physical space: an umbra's flip has changed its selector (08 R213, 14 R329). -/
def State.selected (s : State) (p gpa : Nat) : Nat :=
  let t := s.part p
  if t.select.isEmpty then gpa
  else (t.select.getD (gpa / 2 ^ 16) (gpa / 2 ^ 16)) * 2 ^ 16 + gpa % 2 ^ 16

/-- The guest-physical address of a VA by a valid leaf, without fault service and without setting `A` or `D`, as placement
translates (01 R26). -/
def State.quietGpa (s : State) (p c : Nat) (va : Word) : Option Nat :=
  if reservedVa va.toNat || !canonical va.toNat then none
  else match s.walkRoot p c va with
    | .leaf e _ b => some (s.selected p (leafGpa e b va))
    | _ => none

end Sys2Proof.Machine
end

