-- ==== Sys2Proof/Machine/Sched.lean ====
section
/-! DEFINITION. Ready queues, placement, parking and waking, ropes, futures, dependency counters and records of waiting
(01 R22 to R39; 07 R161 to R174). -/

namespace Sys2Proof.Machine

/-! ### Ready queues (01 R28, R29) -/

/-- `a` stands before `b` in a ready queue: priority, then free before ordered, then free tasks by stamp, with equal stamps by
header address (16 R339), and ordered ones by key (01 R28); entries that these leave equal keep their order of entry. -/
def QEntry.before (a b : QEntry) : Bool :=
  if a.prio ≠ b.prio then decide (b.prio < a.prio)
  else if a.ordered ≠ b.ordered then b.ordered
  else if a.ordered then
    (if a.key ≠ b.key then decide (a.key.toNat < b.key.toNat) else decide (a.seq < b.seq))
  else if a.stamp ≠ b.stamp then decide (a.stamp < b.stamp)
  else if a.hdr ≠ b.hdr then decide (a.hdr.toNat < b.hdr.toNat) else decide (a.seq < b.seq)

/-- The head of a ready queue. -/
def queueHead : List QEntry → Option QEntry
  | [] => none
  | e :: es =>
    match queueHead es with
    | none => some e
    | some h => if e.before h then some e else some h

/-- A ready queue without an entry, named by its order of entry. -/
def queueWithout (q : List QEntry) (e : QEntry) : List QEntry := q.filter fun x => x.seq != e.seq

/-- 2^20 ticks of waiting raise a task one level (01 R29). -/
def agingTicks : Nat := 2 ^ 20

/-- A registered header by its name. -/
def State.reg? (s : State) (id : Nat) : Option Registration := s.regs.find? fun r => r.id == id

/-- The state with a registration changed. -/
def State.mapReg (s : State) (id : Nat) (f : Registration → Registration) : State :=
  { s with regs := s.regs.map fun r => if r.id = id then f r else r }

/-- The class of a header's control word (07 R169). -/
def Header.ordered (h : Header) : Bool := bits h.ctrl 0 2 == 1

/-- `PRIO` of a header. -/
def Header.prio (h : Header) : Nat := bits h.ctrl 2 3

/-- `RESTART` of a header. -/
def Header.restart (h : Header) : Bool := bit h.ctrl 5

/-- `DEPS` of a header as read. -/
def Header.deps (h : Header) : Nat := bits h.ctrl 16 16

/-- `EST` of a header, in units of 1024 ticks (01 R33). -/
def Header.est (h : Header) : Nat := bits h.ctrl 32 32

/-- The key of instance i: `KEY` + i (07 R173). -/
def Registration.key (r : Registration) (i : Nat) : Word := if r.hdr.ordered then r.hdr.key + word i else 0

/-- A queue entry for a fresh start of an instance. -/
def State.freshEntry (s : State) (r : Registration) (i : Nat) (tie : Option Word) : QEntry :=
  { job := .fresh r.id i tie, part := r.part, ctx := r.ctx, prio := r.hdr.prio, ordered := r.hdr.ordered, key := r.key i,
    hdr := r.va, stamp := s.tick, seq := s.uidNext + 1, agedAt := s.tick + agingTicks, bound := none, sought := false }

/-- An ordered task counts on a die with its key: the die's report falls to it at once, and a new report is due (13 R311).
DEDUCED (log 38). -/
def State.noteKey (s : State) (p c d : Nat) (key : Word) : State :=
  (s.mapCtx p c fun x =>
    { x with reports := x.reports.put d (match x.reports.getD d none with
      | some k => some (if key.toNat < k.toNat then key else k)
      | none => some key) }).raise .report d p c

/-- An entry put into the ready queue of a cluster with its stamp taken now; a dispatch is due there (01 R28). -/
def State.enqueue (s : State) (cl : Nat) (e : QEntry) : State :=
  let s := s.newUid.2
  let e := { e with seq := s.uidNext, stamp := s.tick, agedAt := s.tick + agingTicks }
  let s := s.mapCluster cl fun c => { c with readyQ := c.readyQ ++ [e] }
  let s := if e.ordered then s.noteKey e.part e.ctx (dieOfCluster cl) e.key else s
  s.raise .dispatch cl 0 0

/-- A saved context becomes ready on a cluster at its task's current priority, with a stamp taken now (01 R31, R33). -/
def State.enqueueSaved (s : State) (cl : Nat) (th : Thread) (inArea : Bool) : State :=
  match th.task with
  | none => s
  | some k =>
    s.enqueue cl
      { job := .saved { th with wait := .ready } inArea, part := k.part, ctx := k.ctx, prio := k.prio,
        ordered := decide (k.cls = .ordered), key := k.key, hdr := k.hdr, stamp := s.tick, seq := 0,
        agedAt := s.tick + agingTicks, bound := none, sought := false }

/-! ### Placement (01 R26) -/

/-- A read tile of instance i: base + i × stride × 64 (01 R38). -/
def TileDesc.at (d : TileDesc) (i : Nat) : Nat × Nat := ((d.base + wordI (d.stride * 64 * i)).toNat, d.extent)

/-- The read tiles of an instance. DESIGN CHOICE (log 56). -/
def Header.tilesOf (h : Header) (i : Nat) : List (Nat × Nat) := (h.tiles.map fun d => d.at i).filter fun t => t.2 != 0

/-- The 2 MiB regions that a tile touches. -/
def regionsOf (t : Nat × Nat) : List Nat := upFrom (t.1 / 2 ^ 21) ((t.1 + t.2 - 1) / 2 ^ 21 + 1 - t.1 / 2 ^ 21)

/-- The clusters that a die's residency directory names for a region of a partition (01, 07 R181). -/
def Die.clustersFor (d : Die) (p region : Nat) : List Nat :=
  (d.dir.filter fun e => e.1 == p && e.2.1 == region).map fun e => e.2.2

/-- The directory die of a region: d_(m mod D) (01). -/
def Part.directoryDie (t : Part) (region : Nat) : Nat :=
  match t.dies[region % t.dies.length]? with
  | some d => d
  | none => 0

/-- A valid cairn entry covers the 4 KiB unit that starts at a VA (07 R179); a non-canonical base covers nothing. -/
def Cairn.covers (c : Cairn) (unit : Nat) : Bool :=
  c.valid && canonical c.base.toNat && decide (c.base.toNat ≤ unit) && decide (unit < c.base.toNat + c.units * 4096)

/-- The number of bytes of a tile that lie in the union of a cluster's valid cairn entries and on mapped pages (01 R26). -/
def State.coveredBytes (s : State) (p c cl : Nat) (t : Nat × Nat) : Nat :=
  let first := t.1 / 4096
  let cairn := (s.cluster cl).cairn
  ((upFrom first ((t.1 + t.2 - 1) / 4096 + 1 - first)).map fun u =>
    if cairn.any (fun e => e.2.covers (u * 4096)) && (s.quietGpa p c (word (u * 4096))).isSome then
      Nat.min (t.1 + t.2) (u * 4096 + 4096) - Nat.max t.1 (u * 4096)
    else 0).foldl (· + ·) 0

/-- The better of two candidates (covered bytes, ready-queue length, logical number). -/
def betterPlace (a b : Nat × Nat × Nat) : Nat × Nat × Nat :=
  if a.1 ≠ b.1 then (if b.1 < a.1 then a else b)
  else if a.2.1 ≠ b.2.1 then (if a.2.1 < b.2.1 then a else b)
  else if a.2.2 ≤ b.2.2 then a else b

/-- The clusters of a partition on a die, ascending. -/
def Part.clustersOnDie (t : Part) (d : Nat) : List Nat := t.clusterList.filter fun c => dieOfCluster c == d

/-- The cluster the round-robin of a die names, and the position after it (01 R26). -/
def State.roundRobin (s : State) (p d : Nat) : Nat × Nat :=
  let l := (s.part p).clustersOnDie d
  let n := l.length
  let k := (s.part p).rr.getD d 0 % (if n = 0 then 1 else n)
  ((l[k]?).getD 0, if n = 0 then 0 else (k + 1) % n)

/-- Where the first byte of the first read tile has its home, if both stages map it (01 R26). -/
def State.firstByteHome (s : State) (p c : Nat) (t : Nat × Nat) : Option Nat :=
  match s.quietGpa p c (word t.1) with
  | none => none
  | some g => if (s.s2 p g).isSome then some (s.homeClusterOf p g) else none

/-- The cluster that placement chooses for read tiles on a dispatcher's die, or `none` for the round-robin (01 R26). -/
def State.placeByTiles (s : State) (p c d : Nat) (tiles : List (Nat × Nat)) : Option Nat :=
  let t := s.part p
  let cand := ((tiles.flatMap fun tile => (regionsOf tile).flatMap fun r =>
    (s.die d).clustersFor p r ++ (s.die (t.directoryDie r)).clustersFor p r).eraseDups).filter t.hasCl
  let scored := cand.map fun cl =>
    (((tiles.map fun tile => s.coveredBytes p c cl tile).foldl (· + ·) 0), (s.cluster cl).readyQ.length, t.logicalCl cl)
  let best := scored.foldl (fun b x => some (b.elim x (betterPlace x))) none
  match best with
  | some (n, _, l) => if n ≠ 0 then some (t.globalCl l) else tiles.head?.bind (s.firstByteHome p c)
  | none => tiles.head?.bind (s.firstByteHome p c)

/-- The dispatcher of a die places an entry: by its tiles or by the round-robin; a cluster of another die gets it by its own
die's dispatcher (01 R26). -/
def State.placeOn (s : State) (d : Nat) (tiles : List (Nat × Nat)) (e : QEntry) : State :=
  let rr := s.roundRobin e.part d
  let byTiles := if tiles.isEmpty then none else s.placeByTiles e.part e.ctx d tiles
  let s := match byTiles with
    | some _ => s
    | none => s.mapPart e.part fun t => { t with rr := t.rr.put d rr.2 }
  let cl := byTiles.getD rr.1
  if dieOfCluster cl = d then s.enqueue cl e
  else
    let s := if e.ordered then s.noteKey e.part e.ctx d e.key else s
    (s.mapDie (dieOfCluster cl) fun k => { k with forwards := k.forwards ++ [{ src := d, cl := cl, entry := e }] }).raise
    .forwardArrive (dieOfCluster cl) 0 0

/-- The header's home die. -/
def State.regDie (s : State) (r : Registration) : Nat := s.homeDie r.part r.gpa

/-- The shares of a range over the dies of a partition: floor(N × c_d / C) each, the rest one each in ascending die order
(01 R39). -/
def shareCounts (n total : Nat) (counts : List (Nat × Nat)) : List (Nat × Nat) :=
  let floors := counts.map fun e => (e.1, n * e.2 / total)
  let rest := n - (floors.map (·.2)).foldl (· + ·) 0
  ((upFrom 0 floors.length).zip floors).map fun e => (e.2.1, if e.1 < rest then e.2.2 + 1 else e.2.2)

/-- Contiguous shares, first index first. -/
def shareStarts : Nat → List (Nat × Nat) → List (Nat × Nat × Nat)
  | _, [] => []
  | i, (d, n) :: es => (d, i, n) :: shareStarts (i + n) es

/-- A registered header is ready: a single task goes to its home die's dispatcher (01 R24), a range is split among the dies
first (R39). -/
def State.makeReady (s : State) (r : Registration) : State :=
  let s := s.mapReg r.id fun x => { x with held := false }
  if r.range then
    let t := s.part r.part
    let counts := t.dies.map fun d => (d, (t.clustersOnDie d).length)
    s.each (shareStarts 0 (shareCounts r.n t.clusters counts)) fun s e =>
      let s := if r.hdr.ordered ∧ e.2.2 ≠ 0 then s.noteKey r.part r.ctx e.1 (r.key e.2.1) else s
      -- a die with no instance of its own steals (01 R39)
      if e.2.2 = 0 then s.raise .rangeSteal r.part e.1 0
      else (s.mapDie e.1 fun k =>
        { k with shares := k.shares ++ [{ part := r.part, ctx := r.ctx, reg := r.id, next := e.2.1, left := e.2.2, src := none }] }).raise
          .rangePlace r.part e.1 0
  else s.placeOn (s.regDie r) (r.hdr.tilesOf 0) (s.freshEntry r 0 none)

/-! ### Dependency counters (01 R22, R23; 07 R170) -/

/-- The counter of a header lowered by one at its home; `true` where it stood at 0 already (01 R23). -/
def State.decrement (s : State) (p gpa : Nat) : Bool × State :=
  let ctrl := s.readD p (gpa + 0x18)
  let n := bits ctrl 16 16
  if n = 0 then (true, s)
  else
    let s := s.agentWrite 0 (.dram p (gpa + 0x18)) (leBytes 8 (setBits ctrl 16 16 (n - 1)).toNat)
    if n = 1 then
      match s.regs.find? (fun r => r.part == p && r.gpa == gpa && r.held) with
      | some r =>
        let s := { s with biv := s.biv.filter fun b => decide (b.kind ≠ BivKind.held r.id) }
        (false, s.makeReady r)
      | none => (false, s)
    else (false, s)

/-! ### Records of waiting (07 R168) -/

/-- The entries of one die's bivouac table (07 R168). -/
def bivouacSize : Nat := 4096

/-- A record entered: in the die's table, else in the partition's overflow list, whose size is `CAP[63:32]`; `none` when
both are full (07 R168). -/
def State.record (s : State) (b : BivRec) : Option State :=
  let inTable := (s.biv.filter fun x => x.die == b.die && !x.spill).length
  let spilled := (s.biv.filter fun x => x.part == b.part && x.ctx == b.ctx && x.spill).length
  if inTable < bivouacSize then some { s with biv := s.biv ++ [{ b with spill := false }] }
  else if spilled < bits (s.ctxField b.part b.ctx 0x30) 32 32 then
    some { s with biv := s.biv ++ [{ b with spill := true }] }
  else none

/-! ### Parking and waking (01 R30, R31) -/

/-- Contexts that the context store holds (01 R16). -/
def storeSize : Nat := 170

/-- A queue entry is a saved context of a task of a context, in the area or in the store. -/
def QEntry.savedIn (e : QEntry) (p c : Nat) (area : Bool) : Bool :=
  match e.job with
  | .saved _ a => a == area && e.part == p && e.ctx == c
  | .fresh _ _ _ => false

/-- A queue entry is a saved context of the store. -/
def QEntry.inStore (e : QEntry) : Bool :=
  match e.job with
  | .saved _ a => !a
  | .fresh _ _ _ => false

/-- The contexts that a cluster's context store holds: the parked ones, and those ready again and not dispatched.
DEDUCED (log 36). -/
def Cluster.stored (c : Cluster) : Nat :=
  (c.store.filter fun k => !k.inArea).length + (c.readyQ.filter fun e => e.inStore).length

/-- The memory-backed context area has room: `CAP[31:0]` contexts, and one more place per die for a checkpoint made for the
summit holder (01 R30, R35). DEDUCED (log 36). -/
def State.areaRoom (s : State) (p c : Nat) (forHolder : Bool) : Bool :=
  let held := (s.clusters.map fun e =>
    (e.2.store.filter fun k => k.inArea && (match k.thread.task with
      | some t => t.part == p && t.ctx == c
      | none => false)).length + (e.2.readyQ.filter fun q => q.savedIn p c true).length).foldl (· + ·) 0
  decide (held < bits (s.ctxField p c 0x30) 0 32) || forHolder

/-- A context of a cluster can be parked: the store has a place, or its oldest context can move to the area (01 R30).
DEDUCED (log 36). -/
def State.canPark (s : State) (cl p c : Nat) (forHolder : Bool) : Bool :=
  decide ((s.cluster cl).stored < storeSize) || s.areaRoom p c forHolder

/-- The oldest parked context of the store moves to the area (01 R30). -/
def moveOldest : List Parked → List Parked
  | [] => []
  | k :: ks => if k.inArea then k :: moveOldest ks else { k with inArea := true } :: ks

/-- The oldest saved context that is ready again moves to the area. -/
def moveSaved : List QEntry → List QEntry
  | [] => []
  | e :: es =>
    match e.job with
    | .saved th false => { e with job := .saved th true } :: es
    | _ => e :: moveSaved es

/-- Room made in a full context store (01 R30). DEDUCED (log 36). -/
def Cluster.makeRoom (c : Cluster) : Cluster :=
  if c.stored < storeSize then c
  else if c.store.any (fun k => !k.inArea) then { c with store := moveOldest c.store }
  else { c with readyQ := moveSaved c.readyQ }

/-- A context put into its cluster's context store. -/
def State.park (s : State) (cl : Nat) (k : Parked) : State :=
  s.mapCluster cl fun c => { c.makeRoom with store := c.makeRoom.store ++ [k] }

/-- What the waiting instruction writes when it completes (01 R31; 07 R163, R166, R184; 10 R263). -/
def Resume.apply (m : Resume) (v : Word) (r : Regs) : Regs :=
  match m with
  | .fwait d b => (r.writeG d (word (bits v 0 62))).writeG b (word (bits v 62 2))
  | .rpwait d => r.writeG d v
  | .waitwp d _ => r.writeG d v
  | .sysc d => r.writeG d v

/-- A thread whose wait is over: the instruction completes with its result, and the PC passes it. -/
def Thread.complete (th : Thread) (m : Resume) (len : Nat) (v : Word) : Thread :=
  let r := m.apply v th.regs
  { th with
    regs := { r with pc := r.pc + word len }
    wait := .ready
    task := th.task.map fun t => { t with retired := t.retired + 1 } }

/-- The wake of a wait is an acquire: of a rope, a future or a `SYSC`, not of a write pointer (07 R162, R163, R166, R184; 10 R263). -/
def Resume.acquires : Resume → Bool
  | .waitwp _ _ => false
  | _ => true

/-- A thread whose wait ended at a tick, with the acquire that this is noted. -/
def Thread.synchronise (th : Thread) (m : Resume) (now : Nat) : Thread := if m.acquires then { th with acquired := now } else th

/-- A parked context whose wait is over at a tick. -/
def Parked.complete (k : Parked) (v : Word) (now : Nat) : Thread := (k.thread.complete k.resume k.len v).synchronise k.resume now

/-- A parked context is that of a task. -/
def Parked.isTask (k : Parked) (uid : Nat) : Bool :=
  match k.thread.task with
  | some t => t.uid == uid
  | none => false

/-- A save area in which a parked task is woken, to take effect at switch-in (22 R418). -/
def State.wakeSaved (s : State) (uid : Nat) (v : Word) (a : SaveArea) : SaveArea :=
  match a.cluster.store.find? fun k => k.isTask uid with
  | none => a
  | some k =>
    let th := k.complete v s.tick
    let entries : List QEntry := match th.task with
      | none => []
      | some t => [{ job := .saved { th with wait := .ready } k.inArea, part := t.part, ctx := t.ctx, prio := t.prio,
                     ordered := decide (t.cls = .ordered), key := t.key, hdr := t.hdr, stamp := s.tick,
                     seq := s.uidNext + t.uid, agedAt := s.tick + agingTicks, bound := none, sought := false }]
    let store := a.cluster.store.filter fun x => !x.isTask uid
    { a with cluster := { a.cluster with store := store, readyQ := a.cluster.readyQ ++ entries } }

/-- The acquire that a wake performs on the cluster of the wait: at `.prt` for a rope or a future, at `.sys` for a `SYSC`, none for a
write pointer (07 R162, R163, R166, R184; 10 R263). -/
def State.wakeAcquire (s : State) (cl uid : Nat) (m : Resume) : State :=
  match m with
  | .waitwp _ _ => s
  | .sysc _ => ((s.acquireInv cl uid).emptyL1 cl).dropHostLines cl
  | _ => (s.acquireInv cl uid).emptyL1 cl

/-- The wait of a parked task ends with a value. The task becomes ready on the cluster where it parked (01 R31); its wake
acts as an acquire there. A context that is switched out is woken in its save area, to take effect at switch-in
(22 R418); its acquire is performed at the wake. -/
def State.wakeTask (s : State) (uid : Nat) (v : Word) : State :=
  match s.clusters.findSome? (fun e => (e.2.store.find? (fun k => k.isTask uid)).map fun k => (e.1, k)) with
  | some (cl, k) =>
    let s := s.mapCluster cl fun c => { c with store := c.store.filter fun x => !x.isTask uid }
    (s.wakeAcquire cl uid k.resume).enqueueSaved cl (k.complete v s.tick) k.inArea
  | none =>
    match s.threadOfTask uid with
    | some th =>
      match th.wait with
      | .held m len => (s.wakeAcquire (s.homeCluster th) uid m).setThread ((th.complete m len v).synchronise m s.tick)
      | _ => s
    | none =>
      let t : State := { s with parts := s.parts.map fun (e : Nat × Part) => (e.1, { e.2 with saves := e.2.saves.map (s.wakeSaved uid v) }) }
      let at_ := s.parts.flatMap fun (e : Nat × Part) => e.2.saves.filterMap fun a =>
        (a.cluster.store.find? fun k => k.isTask uid).map fun k => (e.2.globalCl a.l, k.resume)
      t.each at_ fun (t : State) (e : Nat × Resume) => t.wakeAcquire e.1 uid e.2

/-! ### Ropes (07 R161 to R164) -/

/-- The waiters of a rope, in parking order. -/
def State.ropeWaiters (s : State) (p gpa : Nat) : List Nat :=
  s.biv.filterMap fun b => if b.part = p ∧ b.gpa = gpa then
    match b.kind with
    | .rope uid _ => some uid
    | _ => none
  else none

/-- The waiters on a rope, or those of one phase bit, wake with a status, in parking order. DEDUCED (log 22). -/
def State.wakeRope (s : State) (p gpa : Nat) (phase : Option Bool) (status : Word) : State :=
  let waiter (b : BivRec) : Option Nat := match b.kind with
    | .rope uid x => if b.part = p ∧ b.gpa = gpa ∧ phase.all (· == x) then some uid else none
    | _ => none
  let ws := s.biv.filterMap waiter
  let s := { s with biv := s.biv.filter fun b => (waiter b).isNone }
  s.each ws fun s uid => s.wakeTask uid status

/-- The rope's word 0 written at its home. -/
def State.writeRope (s : State) (p gpa : Nat) (w0 : Word) : State := s.agentWrite 0 (.dram p gpa) (leBytes 8 w0.toNat)

/-- `PEND` of a rope's word 0 (07 R161). -/
def ropePend (w : Word) : Nat := bits w 32 30

/-- `PER` of a rope's word 0. -/
def ropePer (w : Word) : Nat := bits w 0 32

/-- `BROKEN` of a rope's word 0. -/
def ropeBroken (w : Word) : Bool := bit w 62

/-- The binding of a rope, if a range is bound to it (07 R164). -/
def State.binding? (s : State) (p gpa : Nat) : Option Binding :=
  (s.part p).bindings.find? fun b => b.gpa == gpa

/-- The state with a rope's binding changed. -/
def State.mapBinding (s : State) (p gpa : Nat) (f : Binding → Binding) : State :=
  s.mapPart p fun t => { t with bindings := t.bindings.map fun b => if b.gpa = gpa then f b else b }

/-- The rope breaks: `BROKEN` ← 1, and every waiter wakes with status 1. -/
def State.breakRope (s : State) (p gpa : Nat) : State :=
  let w := s.readD p gpa
  (s.writeRope p gpa (setBits w 62 1 1)).wakeRope p gpa none 1

/-- Whenever `PEND` > L − Q of a bound rope, it breaks (07 R164). -/
def State.testBreak (s : State) (p gpa : Nat) : State :=
  match s.binding? p gpa with
  | none => s
  | some b =>
    let w := s.readD p gpa
    if !ropeBroken w && decide (b.live - b.arrived.length < ropePend w) then s.breakRope p gpa else s

/-- A phase completes when both counts are zero: `PHASE` is inverted, `PEND` ← `PER`, Q ← 0 and the waiters on the old phase wake
with 0 (07 R162, R164). -/
def State.testComplete (s : State) (p gpa : Nat) : State :=
  let w := s.readD p gpa
  if ropePend w = 0 ∧ s.readD p (gpa + 8) = 0 then
    let w' := setBits (setBits w 32 30 (ropePer w)) 63 1 (1 - bits w 63 1)
    let s := (s.writeRope p gpa w').mapBinding p gpa fun b => { b with arrived := [] }
    (s.wakeRope p gpa (some (bit w 63)) 0).testBreak p gpa
  else s

/-- An arrival with bytes at a rope that is not broken: the cause of a misuse, or the state after it (07 R163). `member` is
the instance of the bound range that arrives. -/
def State.ropeArrive (s : State) (p gpa : Nat) (n : Word) (member : Option Nat) : Except Nat State :=
  let w := s.readD p gpa
  let bytes := s.readD p (gpa + 8)
  if ropePend w = 0 then .error 1
  else if bytes.toNat < n.toNat then .error 2
  else
    let s := s.writeRope p gpa (setBits w 32 30 (ropePend w - 1))
    let s := if n = 0 then s else s.agentWrite 0 (.dram p (gpa + 8)) (leBytes 8 (bytes - n).toNat)
    let s := match member with
      | none => s
      | some i => s.mapBinding p gpa fun b => { b with arrived := addMark b.arrived i }
    .ok ((s.testComplete p gpa).testBreak p gpa)

/-- An engine completion with bytes: it subtracts from `BYTES`; more than `BYTES` breaks the rope (07 R163, 08 R201). A
broken rope is left as it stands. -/
def State.ropeBytes (s : State) (p gpa : Nat) (n : Word) : State :=
  if ropeBroken (s.readD p gpa) then s
  else
    let bytes := s.readD p (gpa + 8)
    if bytes.toNat < n.toNat then s.breakRope p gpa
    else (s.agentWrite 0 (.dram p (gpa + 8)) (leBytes 8 (bytes - n).toNat)).testComplete p gpa

/-- A member of a bound range ends: L falls, Q too if it has arrived, the break test applies, and the binding ends with its
last member (07 R164). DEDUCED (log 22). -/
def State.memberExit (s : State) (p reg idx : Nat) : State :=
  match (s.part p).bindings.find? (fun b => b.reg == reg) with
  | none => s
  | some b =>
    let s := s.mapBinding p b.gpa fun x =>
      { x with live := x.live - 1, arrived := x.arrived.filter fun i => i != idx }
    let s := s.testBreak p b.gpa
    if b.live ≤ 1 then s.mapPart p fun t => { t with bindings := t.bindings.filter fun x => x.reg != reg } else s

/-! ### Futures (07 R165 to R167) -/

/-- The records on a future are served in the order they were recorded: each waiter wakes with the final word, each link
decrements its header. Answers the header of the first link that underflowed (07 R167). DESIGN CHOICE (log 71). -/
def State.serveFuture (s : State) (p gpa : Nat) (final : Word) : Option Word × State :=
  let mine (b : BivRec) : Bool := b.part == p && b.gpa == gpa && (match b.kind with
    | .future _ => true
    | .link _ _ => true
    | _ => false)
  let recs := s.biv.filter mine
  let s := { s with biv := s.biv.filter fun b => !mine b }
  recs.foldl (fun a b =>
    match b.kind with
    | .future uid => (a.1, a.2.wakeTask uid final)
    | .link hdr hgpa =>
      let r := a.2.decrement p hgpa
      (if r.1 then some (a.1.getD hdr) else a.1, r.2)
    | _ => a) (none, s)

/-- The queues of a partition that are held at a `WAITF` look at their futures again (21 R382). -/
def State.wakeQueues (s : State) (p : Nat) : State :=
  s.each ((s.part p).queues.filter fun e => bits e.2.qcb.state 0 8 == 1) fun s e => s.raise .waitf p e.1 0

/-- The future's word written and its records served; `state` is 2 resolved or 3 poisoned. -/
def State.resolveFuture (s : State) (p gpa state : Nat) (payload : Word) : Option Word × State :=
  let w := word (state * 2 ^ 62 + bits payload 0 62)
  ((s.agentWrite 0 (.dram p gpa) (leBytes 8 w.toNat)).wakeQueues p).serveFuture p gpa w

/-! ### Write pointers (07 R183, R184; 14 R326) -/

/-- The waiters on a write pointer whose condition now holds wake with its value. -/
def State.wakeWp (s : State) (cl n : Nat) : State :=
  let w := s.wp cl n
  let ready (b : BivRec) : Bool := match b.kind with
    | .wp _ c k target => c == cl && k == n && (w.brk || decide (target ≤ w.count) || w.req.isNone)
    | _ => false
  let ws := s.biv.filter ready
  let s := { s with biv := s.biv.filter fun b => !ready b }
  s.each ws fun s b => match b.kind with
    | .wp uid _ _ _ => s.wakeTask uid (wpWord w)
    | _ => s

end Sys2Proof.Machine
end

