-- ==== Sys2Proof/Machine/Translate.lean ====
section
/-! DEFINITION. Translation of a thread's accesses: TLBs, walks, the fault-service ring and the stage-2 log
(01 R32; 05 R129; 22 R402 to R412). -/

namespace Sys2Proof.Machine

/-- How one step of an instruction ends: with a value, with a trap, or with the thread dropped from the rotation. -/
inductive Acc (α : Type) where
  | ok (v : α) (s : State)
  | trap (r : TrapRec) (s : State)
  | wait (s : State)

/-- A step and what follows it. -/
def Acc.bind {α β : Type} (a : Acc α) (f : α → State → Acc β) : Acc β :=
  match a with
  | .ok v s => f v s
  | .trap r s => .trap r s
  | .wait s => .wait s

/-- `TINFO` in the layout of 05 R130. DEDUCED (log 25). -/
def accInfo (ord lsz acc : Nat) : Word := word (ord * 64 + lsz * 16 + acc)

/-- `TINFO` in the layout of 07 R153. -/
def causeInfo (cause detail : Nat) : Word := word (cause % 256 * 2 ^ 32 + detail % 2 ^ 32)

/-! ### TLBs (22 R402) -/

/-- The tags of a translation match a requester's page: the VA, the `VMID`, and the ASID or `G`, for a host context the PASID
(22 R402, R412). -/
def TlbEntry.hits (e : TlbEntry) (host : Bool) (vmid asid va : Nat) : Bool :=
  e.host == host && e.vmid == vmid && (e.asid == asid || (e.glob && !e.host)) && va / 2 ^ e.bits == e.va / 2 ^ e.bits

/-- The translation in a list that matches. -/
def tlbFind (l : List TlbEntry) (host : Bool) (vmid asid va : Nat) : Option TlbEntry :=
  l.find? fun e => e.hits host vmid asid va

/-- A translation put into a TLB of n entries; the oldest leaves (log 10). -/
def tlbInsert (n : Nat) (e : TlbEntry) (l : List TlbEntry) : List TlbEntry :=
  (e :: l.filter fun x => !x.hits e.host e.vmid e.asid e.va).take n

/-- The TLB of a stack base. DESIGN CHOICE (log 28). -/
def stackTlbOf (stack : Nat) : Nat := 512 + stack

/-- The number of the TLB a thread uses: its cluster's, or that of its memory core's stack base (22 R402). A command core
translates nothing. -/
def State.tlbOf (s : State) (th : Thread) : Nat :=
  match th.id.kind with
  | .barrel => th.id.unit
  | .memory => stackTlbOf (th.id.unit / 32)
  | .command => let _ := s; stackTlbOf (tidDie th.id * 4)

/-- A translation filled into the TLB of a requester and, for a barrel thread, the micro-TLB of its core. -/
def State.tlbFill (s : State) (tlb : Nat) (core : Option Nat) (e : TlbEntry) : State :=
  if tlb < 512 then
    s.mapCluster tlb fun c =>
      { c with
        tlb := tlbInsert 2048 e c.tlb
        utlb := match core with
          | some k => c.utlb.put k (tlbInsert 32 e (c.utlb.getD k []))
          | none => c.utlb }
  else s.mapStack (tlb - 512) fun d => { d with tlb := tlbInsert 2048 e d.tlb }

/-- The translation that a TLB or a micro-TLB holds for a partition's requester. -/
def State.tlbHit (s : State) (tlb : Nat) (core : Option Nat) (host : Bool) (p asid va : Nat) : Option TlbEntry :=
  let vmid := (s.part p).vmid
  if tlb < 512 then
    let c := s.cluster tlb
    match core.bind fun k => tlbFind (c.utlb.getD k []) host vmid asid va with
    | some e => some e
    | none => tlbFind c.tlb host vmid asid va
  else tlbFind (s.stack (tlb - 512)).tlb host vmid asid va

/-- A translation removed where a test says so, from a TLB, its micro-TLBs and its walk cache. -/
def State.tlbRemove (s : State) (tlb : Nat) (test : TlbEntry → Bool) (cached : WalkCacheEntry → Bool) : State :=
  if tlb < 512 then
    s.mapCluster tlb fun c =>
      { c with
        tlb := c.tlb.filter fun e => !test e
        utlb := c.utlb.map fun u => (u.1, u.2.filter fun e => !test e)
        walkCache := c.walkCache.filter fun e => !cached e }
  else s.mapStack (tlb - 512) fun d => { d with tlb := d.tlb.filter fun e => !test e }

/-- The translation that a leaf gives. -/
def leafEntry (vmid asid : Nat) (e : Word) (leafAt pageBits : Nat) (va : Word) : TlbEntry :=
  { host := false, hdm := false, vmid := vmid, asid := asid, glob := bit e 6, va := va.toNat / 2 ^ pageBits * 2 ^ pageBits,
    bits := pageBits, gpa := entryAddr e / 2 ^ pageBits * 2 ^ pageBits, r := bit e 2, w := bit e 3, x := bit e 4,
    u := bit e 5, d := bit e 8, leaf := leafAt }

/-- The guest-physical address of a VA by a held translation. -/
def TlbEntry.gpaOf (e : TlbEntry) (va : Word) : Nat := e.gpa + va.toNat % 2 ^ e.bits

/-- A held translation permits an access. DEDUCED (log 26). -/
def TlbEntry.allows (e : TlbEntry) (acc : Nat) (user : Bool) : Bool :=
  (!user || e.u) && (match acc with
    | 0 => e.r
    | 1 => e.w
    | _ => e.x)

/-- The leaf in memory is still the one that the translation was filled from, but for `A` and `D` (22 R402). -/
def TlbEntry.current (e : TlbEntry) (leaf : Word) : Bool :=
  bit leaf 0 && entryAddr leaf / 2 ^ e.bits * 2 ^ e.bits == e.gpa && bit leaf 2 == e.r && bit leaf 3 == e.w &&
  bit leaf 4 == e.x && bit leaf 5 == e.u && bit leaf 6 == e.glob

/-! ### Fault service (22 R405 to R408) -/

/-- A list without the first element that passes a test. -/
def eraseFirst {α : Type} (test : α → Bool) : List α → List α
  | [] => []
  | a :: as => if test a then as else a :: eraseFirst test as

/-- The `INFO` word of a record (22 R407). -/
def faultInfo (reason tk vmid asid level src acc : Nat) : Word :=
  word (reason * 2 ^ 56 + tk * 2 ^ 48 + vmid * 2 ^ 42 + asid % 2 ^ 16 * 2 ^ 26 + (level - 1) * 64 + src * 16 + acc)

/-- A record written into the partition's ring: `PROD` advances and the service rope is arrived at with 0 bytes (22 R407,
R408). -/
def State.putFaultRecord (s : State) (p : Nat) (token addr info : Word) : State :=
  let cb := (s.part p).fscb.toNat
  let size := (s.readD p (cb + 8)).toNat
  let prod := s.readD p (cb + 0x10)
  let at_ := (s.readD p cb).toNat + 32 * (if size = 0 then 0 else prod.toNat % size)
  let s := s.writeD p at_ token
  let s := s.writeD p (at_ + 8) addr
  let s := s.writeD p (at_ + 16) info
  let s := s.writeD p (at_ + 24) (word (s.part p).fsSeq)
  let s := s.mapPart p fun t => { t with fsSeq := t.fsSeq + 1 }
  let s := s.writeD p (cb + 0x10) (prod + 1)
  match s.ropeArrive p (s.readD p (cb + 0x20)).toNat 0 none with
  | .ok s => s
  | .error _ => s

/-- The ring holds fewer than `size` unconsumed records (22 R408). -/
def State.faultRoom (s : State) (p : Nat) : Bool :=
  let cb := (s.part p).fscb.toNat
  decide ((s.readD p (cb + 0x10) - s.readD p (cb + 0x18)).toNat < (s.readD p (cb + 8)).toNat)

/-- The records of outstanding tokens that could not be written yet, in fault order, while there is room (22 R408).
DEDUCED (log 29). -/
def State.flushFaults (s : State) (p : Nat) : State :=
  s.faults.foldl (fun (s : State) f =>
    if f.part = p ∧ !f.stage2 ∧ !f.written ∧ s.faultRoom p then
      let s := s.putFaultRecord p f.token f.addr f.info
      if f.token = 0 then { s with faults := eraseFirst (fun x => decide (x = f)) s.faults }
      else { s with faults := s.faults.map fun (x : FaultTok) => if x.token = f.token then { x with written := true } else x }
    else s) s

/-- A record in the PF's stage-2 log in host memory, and PF vector 0 (22 R405). -/
def State.putStage2Record (s : State) (token addr info : Word) : State :=
  let n := s.pf.s2size.toNat
  let at_ := s.pf.s2base.toNat + 32 * (if n = 0 then 0 else s.pf.s2prod % n)
  let m := ((s.hostMem.writeNat at_ 8 token.toNat).writeNat (at_ + 8) 8 addr.toNat).writeNat (at_ + 16) 8 info.toNat
  let m := m.writeNat (at_ + 24) 8 s.pf.s2prod
  { s with hostMem := m, pf := { s.pf with s2prod := s.pf.s2prod + 1 } }.interrupt (.pf 0)

/-- A requester is dropped until the token wakes it; `trap` is the record a fatal wake takes. -/
def State.dropFor (s : State) (who : Requester) (token : Word) (trap : TrapRec) : State :=
  match who with
  | .thread t =>
    match s.thread? t with
    | some th => s.setThread { th with wait := .fault token trap }
    | none => s
  | .engine r => s.mapReq r fun q => { q with token := some token }
  | .decrement _ _ _ => s
  | .saved _ => s
  | .commit _ _ => s

/-- A fault goes to fault service: it joins the outstanding record of the same `VMID`, ASID, 64 KiB page and access class, `ACC` 2
joining 0, or takes a token and a record of its own (22 R407, R408). DEDUCED (log 29). -/
def State.faultService (s : State) (who : Requester) (p c : Nat) (va : Word) (reason level src acc : Nat) (trap : TrapRec) :
    State :=
  let page := va.toNat / 2 ^ 16
  let cls := if acc = 1 then 1 else 0
  let same (f : FaultTok) : Bool := !f.stage2 && f.token != 0 && f.part == p && s.asid p f.ctx == s.asid p c && f.page == page && f.acc == cls
  match s.faults.find? same with
  | some f =>
    let s := { s with faults := s.faults.map fun (x : FaultTok) =>
      if x.token = f.token then { x with waiters := x.waiters ++ [who] } else x }
    s.dropFor who f.token trap
  | none =>
    let (token, s) := s.newToken
    let info := faultInfo reason 0 (s.part p).vmid (s.asid p c) level src acc
    let f : FaultTok := { token := token, part := p, ctx := c, page := page, acc := cls, stage2 := false, waiters := [who],
                          addr := va, info := info, written := false }
    ({ s with faults := s.faults ++ [f] }.flushFaults p).dropFor who token trap

/-- A stage-2 fault goes to the host: a token and a record in the PF's log (22 R405). -/
def State.stage2Fault (s : State) (who : Requester) (p c gpa reason src acc : Nat) (trap : TrapRec) : State :=
  let (token, s) := s.newToken
  let info := faultInfo reason 0 (s.part p).vmid (s.asid p c) 1 src acc
  let f : FaultTok := { token := token, part := p, ctx := c, page := gpa / 2 ^ 16, acc := acc, stage2 := true,
                        waiters := [who], addr := word gpa, info := info, written := true }
  ({ s with faults := s.faults ++ [f] }.putStage2Record token (word gpa) info).dropFor who token trap

/-! ### Walks (22 R402, R403, R411) -/

/-- The shoot-downs that a TLB has received, latest first, at most 8 (22 R411). -/
def State.shots (s : State) (tlb : Nat) : List Shootdown :=
  if tlb < 512 then (s.cluster tlb).shots else (s.stack (tlb - 512)).shots

/-- The shoot-downs of a partition that a TLB remembers: each partition numbers its own (22 R410). -/
def State.shotsOf (s : State) (tlb p : Nat) : List Shootdown := (s.shots tlb).filter fun h => h.part == p

/-- The highest shoot-down number of a partition that a TLB has received (22 R411). -/
def State.tlbStamp (s : State) (tlb p : Nat) : Nat :=
  match (s.shotsOf tlb p).head? with
  | some h => h.num
  | none => 0

/-- The walks that a cluster's walker keeps in flight (01 R16, 22 R402). -/
def walkerSize : Nat := 16

/-- A cluster's walker takes no further walk. The stack bases' TLBs have no stated limit. DEDUCED (log 26). -/
def State.walkerFull (s : State) (tlb : Nat) : Bool :=
  decide (tlb < 512) && decide (walkerSize ≤ (s.walks.filter fun w => w.tlb == tlb).length)

/-- A walk begins and its requester is dropped from the rotation until it ends (22 R403); with 16 walks in flight the requester
stays in the rotation and asks again. DEDUCED (log 26). -/
def State.startWalk (s : State) (who : Requester) (p c tlb : Nat) (va : Word) (acc : Nat) (user : Bool) (src : Nat)
    (trap : TrapRec) : State :=
  if s.walkerFull tlb then s
  else
  let (id, s) := s.newUid
  let w : Walk := { id := id, who := who, part := p, ctx := c, tlb := tlb, va := va, acc := acc, user := user, src := src,
                    stamp := s.tlbStamp tlb p, trap := trap }
  let s := { s with walks := s.walks ++ [w] }.raise .walkDone id 0 0
  match who with
  | .thread t =>
    match s.thread? t with
    | some th => s.setThread { th with wait := .walk id }
    | none => s
  | .engine _ => s
  | .decrement _ _ _ => s
  | .saved _ => s
  | .commit _ _ => s

/-- An agent's access to a location waits at its home: an engine request other than its own holds the line, or threads' requests to
it have arrived earlier and its own request does not hold it (07 R151, 08 R201). -/
def State.agentWaits (s : State) (l : Loc) (own : Nat) : Bool :=
  match l with
  | .dram p g =>
    match s.reqs.find? fun q => q.holds == some (p, g / 64) with
    | some q => q.id != own
    | none => s.threads.any fun th => th.arrivedAt == some (p, g / 64)
  | _ => false

/-- The home's answer to an agent's access of a location: its L2 line is at hand or refilled within the step (22 R405), or the access
waits behind the requests to the line that arrived earlier, and with a line that an engine request holds (07 R151, 08 R201). -/
def State.agentHome (s : State) (l : Loc) (write : Bool) (own : Nat := 0) : HomeAnswer :=
  if s.agentWaits l own then .busy
  else match s.askL2 l write with
  | .miss => s.refill l write false
  | x => x

/-- A leaf's `A` and `D` set at its home, indivisibly like an `AOR`: stage 2 may refuse that write as any other (22 R402, R405).
DEDUCED (log 26). -/
def State.setLeaf (s : State) (p at_ : Nat) (e e' : Word) : HomeAnswer :=
  if e' = e then .granted s
  else match s.agentHome (.dram p at_) true with
  | .granted s => .granted (s.writeD p at_ e')
  | x => x

/-- The leaf's word after a fill for an access: `A`, and for a store or an atomic `D` (22 R401, R402). -/
def leafUsed (e : Word) (acc : Nat) : Word :=
  let a := setBits e 7 1 1
  if acc = 1 then setBits a 8 1 1 else a

/-- The core of a thread whose micro-TLB it uses. -/
def coreOfThread (t : Tid) : Option Nat :=
  match t.kind with
  | .barrel => some (coreOf t.slot)
  | _ => none

/-- The running task is a host context: its PASID (22 R412). -/
def State.hostPasid (s : State) : Option Nat := s.cur.task.bind fun k => k.host

/-- An access of the running thread to a guest-physical address meets a view range that it may not: a store or an atomic
(02 R75, 05 R127), or any access of a memory core, which never applies a window and whose program's touch of a view range
is an access fault (02 R75). DEDUCED (log 26). -/
def State.viewBars (s : State) (p gpa acc : Nat) : Bool :=
  (acc == 1 || decide (s.cur.id.kind = .memory)) && ((s.part p).windowAt gpa).isSome

/-- The location of an address inside a host context's page: host memory, or the partition's HDM range (22 R412). -/
def TlbEntry.hostLoc (e : TlbEntry) (p : Nat) (va : Word) : Loc := if e.hdm then .dram p (e.gpaOf va) else .host (e.gpaOf va)

/-- The translation that a cluster's TLB holds for the running thread: by the host's tables for a host context (22 R412). -/
def State.callerEntry (s : State) (cl : Nat) (va : Word) : Option TlbEntry :=
  match s.hostPasid with
  | some pasid => s.tlbHit cl none true s.curPart pasid va.toNat
  | none => s.tlbHit cl none false s.curPart (s.asid s.curPart s.curCtx) va.toNat

/-- The guest-physical address, as stage 1 or a host context's translation gives it, that a paged VA of the running thread maps to. -/
def State.callerPage (s : State) (cl : Nat) (va : Word) : Option Nat :=
  match s.hostPasid with
  | none => s.quietGpa s.curPart s.curCtx va
  | some _ => ((s.callerEntry cl va).filter (·.hdm)).map (·.gpaOf va)

/-- The location of a paged VA for an access of the running thread, through its TLB; a miss or a violation starts a walk
(05 R129 steps 3 and 4; 22 R402, R403). A host context translates under the host's tables (22 R412). DEDUCED (log 26). -/
def State.translatePaged (s : State) (va : Word) (acc : Nat) (trap : TrapRec) : Acc Loc :=
  let p := s.curPart
  let c := s.curCtx
  let user := s.mode == 0
  let tlb := s.tlbOf s.cur
  let core := coreOfThread s.cur.id
  let walk (s : State) : Acc Loc := .wait (s.startWalk (.thread s.cur.id) p c tlb va acc user 0 trap)
  match s.hostPasid with
  | some pasid =>
    match s.tlbHit tlb core true p pasid va.toNat with
    | some e =>
      if e.hdm && s.viewBars p (e.gpaOf va) acc then .trap { trap with kind := 0x03 } s
      else .ok (e.hostLoc p va) s
    | none => walk s
  | none =>
    match s.tlbHit tlb core false p (s.asid p c) va.toNat with
    | none => walk s
    | some e =>
      let gpa := s.selected p (e.gpaOf va)
      if s.viewBars p gpa acc then .trap { trap with kind := 0x03 } s
      else if !e.allows acc user then walk s
      else if acc = 1 && !e.d then
        let leaf := s.readD p e.leaf
        if e.current leaf then
          match s.setLeaf p e.leaf leaf (setBits leaf 8 1 1) with
          | .granted s => .ok (.dram p gpa) (s.tlbFill tlb core { e with d := true })
          | .fault g r => .wait (s.stage2Fault (.thread s.cur.id) p c g r 0 1 trap)
          | _ => .wait s
        else walk (s.tlbRemove tlb (fun x => decide (x = e)) fun _ => false)
      else .ok (.dram p gpa) s

/-- The location of an address for an access of the running thread: the checks of 05 R129 from step 2 to stage 1. A command
core addresses memory physically, and an address that no memory answers traps unmapped (log 12). -/
def State.locate (s : State) (va : Word) (acc : Nat) (trap : TrapRec) : Acc Loc :=
  match s.cur.id.kind with
  | .command => if populated va.toNat then .ok (.phys va.toNat) s else .trap { trap with kind := 0x04 } s
  | _ =>
    match s.place s.curPart s.curCluster va with
    | .at l => .ok l s
    | .unmapped => .trap { trap with kind := 0x04 } s
    | .paged => s.translatePaged va acc trap

/-- A number of shoot-downs is above another, modulo 2^32 (22 R411). -/
def numAbove (n stamp : Nat) : Bool :=
  let d := (n % 2 ^ 32 + 2 ^ 32 - stamp % 2 ^ 32) % 2 ^ 32
  decide (0 < d) && decide (d < 2 ^ 31)

/-- A shoot-down covers a page of 2^b bytes of an ASID, global or not: any of the page's 64 KiB pages (22 R410, R411). -/
def Shootdown.covers (h : Shootdown) (asid : Nat) (glob : Bool) (va b : Nat) : Bool :=
  let first := va / 2 ^ b * 2 ^ b / 2 ^ 16
  h.all || ((h.any || glob || h.asid == asid) && decide (first < h.first + h.pages) && decide (h.first < first + 2 ^ (b - 16)))

/-- A fill is dropped and its walk restarted: a shoot-down received since it began covers the filled page, or its stamp is older
than the oldest remembered number (22 R411). -/
def State.fillDropped (s : State) (w : Walk) (e : TlbEntry) : Bool :=
  let c := s.shotsOf w.tlb w.part
  c.any (fun h => numAbove h.num w.stamp && h.covers e.asid e.glob e.va e.bits) ||
    (match c.getLast? with
      | some old => numAbove old.num w.stamp
      | none => false)

/-- A requester whose walk succeeded is woken with retry (22 R403). An agent's walk ends within its own step. -/
def State.retryRequester (s : State) (who : Requester) : State :=
  match who with
  | .thread t =>
    match s.thread? t with
    | some th => s.setThread th.again
    | none => s
  | .engine _ => s
  | .decrement _ _ _ => s
  | .saved _ => s
  | .commit _ _ => s

/-- A host context's translation comes from the host by ATS: it fails, or gives a page of host or device memory that the
host chooses (22 R412; log 2). DESIGN CHOICE (log 28). -/
def State.atsAnswer (s : State) (p pasid : Nat) (va : Word) : Option TlbEntry × State :=
  let (ok, s) := s.freeB
  let (page, s) := s.freeW
  (if ok then
    some { host := true, hdm := bit page 63, vmid := (s.part p).vmid, asid := pasid, glob := false,
           va := va.toNat / 2 ^ 16 * 2 ^ 16, bits := 16, gpa := bits page 16 25 * 2 ^ 16, r := true, w := true, x := true, u := true,
           d := true, leaf := 0 }
  else none, s)

/-- A page request to the host; its requester is dropped until the host's response (22 R412). -/
def State.pageRequest (s : State) (who : Requester) (pasid : Nat) (va : Word) (write : Bool) (trap : TrapRec) : State :=
  let (token, s) := s.newToken
  let req : Outgoing := .pageRequest token pasid va write
  { s with sent := s.sent ++ [req] }.dropFor who token trap

/-- A walk of a host context ends with the host's answer (22 R412). DESIGN CHOICE (log 28). -/
def State.atsComplete (s : State) (w : Walk) (pasid : Nat) : State :=
  match s.atsAnswer w.part pasid w.va with
  | (some e, s) =>
    let core := match w.who with
      | .thread t => coreOfThread t
      | _ => none
    (s.tlbFill w.tlb core e).retryRequester w.who
  | (none, s) => s.pageRequest w.who pasid w.va (w.acc == 1) w.trap

/-- The non-leaf entries on the path of a walk: the VA bits below what each covers, and the table it points to. -/
def State.walkTables (s : State) (p : Nat) (va : Word) : Nat → Nat → List (Nat × Nat)
  | 0, _ => []
  | level + 1, table =>
    let l := level + 1
    let e := s.readD p (table + 8 * bits va (levelShift l) (levelBits l))
    if !bit e 0 || entryMalformed l e || entryLeaf l e then []
    else (levelShift l, entryAddr e) :: State.walkTables s p va level (entryAddr e)

/-- Where a walk begins: the level and table of the deepest non-leaf entry in the walk cache, else the root (22 R402). -/
def State.walkStart (s : State) (w : Walk) : Nat × Nat :=
  let asid := s.asid w.part w.ctx
  let hit (b : Nat) : Option WalkCacheEntry := (s.cluster w.tlb).walkCache.find? fun e =>
    e.vmid == (s.part w.part).vmid && e.asid == asid && e.bits == b && e.va == w.va.toNat / 2 ^ b
  match hit 25, hit 36, hit 48 with
  | some e, _, _ => (1, e.table)
  | none, some e, _ => (2, e.table)
  | none, none, some e => (3, e.table)
  | none, none, none => (4, (s.ctxField w.part w.ctx 0).toNat)

/-- The walk cache after a walk; its size is not given (log 10: 64 entries, the oldest leave). -/
def State.walkCacheFill (s : State) (w : Walk) (start : Nat × Nat) : State :=
  if w.tlb < 512 then
    let asid := s.asid w.part w.ctx
    let new := (s.walkTables w.part w.va start.1 start.2).map fun e =>
      ({ vmid := (s.part w.part).vmid, asid := asid, va := w.va.toNat / 2 ^ e.1, bits := e.1, table := e.2 } : WalkCacheEntry)
    s.mapCluster w.tlb fun c => { c with walkCache := (new ++ c.walkCache).take 64 }
  else s

/-! ### Translation by an agent: an engine, a commit decrement, the host's packets -/

/-- How an agent's translation ends: a location, an address that is unmapped without a walk, a leaf whose home serves earlier
requests first, or a fault for fault service or for the host. -/
inductive AgentAns where
  | at (l : Loc) (s : State)
  | unmapped
  | busy
  | fault (reason level : Nat)
  | stage2 (gpa reason : Nat)

/-- The location of a VA for an agent of a context: the scratchpad windows as seen from a cluster, else the die's stack-base
TLB, else a walk within the step, which sets `A` and, for a write, `D` (22 R402, R403). DESIGN CHOICE (log 28). -/
def State.agentLocate (s : State) (p c cl tlb : Nat) (va : Word) (acc : Nat) (user : Bool) : AgentAns :=
  match s.place p cl va with
  | .at l => .at l s
  | .unmapped => .unmapped
  | .paged =>
    let asid := s.asid p c
    let held := (s.tlbHit tlb none false p asid va.toNat).filter fun e => e.allows acc user && (acc != 1 || e.d)
    match held with
    | some e => .at (.dram p (s.selected p (e.gpaOf va))) s
    | none =>
      match s.walkRoot p c va with
      | .leaf e at_ b =>
        if leafAllows e acc user then
          let e' := leafUsed e acc
          match s.setLeaf p at_ e e' with
          | .granted s => .at (.dram p (s.selected p (leafGpa e' b va))) (s.tlbFill tlb none (leafEntry (s.part p).vmid asid e' at_ b va))
          | .fault g r => .stage2 g r
          | _ => .busy
        else .fault 2 (if b = 16 then 1 else if b = 25 then 2 else 3)
      | .fault r l => .fault r l
      | .stage2 g r => .stage2 g r

/-- An agent's address lies in a view range, by the TLB it uses or by its leaf, whatever the leaf permits: the view is looked at before
stage 1 (02 R75; 05 R129). DEDUCED (log 26). -/
def State.agentView (s : State) (p c cl tlb : Nat) (va : Word) : Bool :=
  let viewed (gpa : Nat) : Bool := ((s.part p).windowAt (s.selected p gpa)).isSome
  match s.place p cl va with
  | .paged =>
    match s.tlbHit tlb none false p (s.asid p c) va.toNat with
    | some e => viewed (e.gpaOf va)
    | none =>
      match s.walkRoot p c va with
      | .leaf e _ b => viewed (leafGpa e b va)
      | _ => false
  | _ => false

/-- The state after an answer of `agentHome` that is no fault. -/
def HomeAnswer.after (x : HomeAnswer) (s : State) : State :=
  match x with
  | .granted t => t
  | _ => s

/-- A walk whose fill is dropped, or whose leaf's home serves earlier requests first, ends later. -/
def State.walkAgain (s : State) (w : Walk) : State := { s with walks := s.walks ++ [w] }.raise .walkDone w.id 0 0

/-- A walk ends: a valid, permitted leaf gets `A`, and `D` for a store, and fills the TLB; anything else goes to fault
service or, for a table or a leaf behind a stage-2 fault, to the host (22 R402, R403, R405). DEDUCED (log 26). -/
def State.finishWalk (s : State) (w : Walk) : State :=
  let s := { s with walks := s.walks.filter fun x => x.id != w.id }
  let pasid := match w.who with
    | .thread t => (s.thread? t).bind fun th => th.task.bind fun k => k.host
    | _ => none
  match pasid with
  | some k => s.atsComplete w k
  | none =>
    let core := match w.who with
      | .thread t => coreOfThread t
      | _ => none
    -- a memory core's program may not touch a view range at all (02 R75)
    let barred := w.acc == 1 || (match w.who with
      | .thread t => decide (t.kind = .memory)
      | _ => false)
    let vmid := (s.part w.part).vmid
    let asid := s.asid w.part w.ctx
    let start := s.walkStart w
    let s := s.walkCacheFill w start
    match s.walkFrom w.part w.va start.1 start.2 with
    | .leaf e at_ b =>
      -- an access that the view bars traps before stage 1 looks at its permission (05 R129 steps 3 and 4): the fill sets `A` alone
      let view := barred && ((s.part w.part).windowAt (s.selected w.part (leafGpa e b w.va))).isSome
      if s.fillDropped w (leafEntry vmid asid e at_ b w.va) then s.walkAgain { w with stamp := s.tlbStamp w.tlb w.part }
      else if view || leafAllows e w.acc w.user then
        let e' := leafUsed e (if view then 0 else w.acc)
        match s.setLeaf w.part at_ e e' with
        | .granted s => (s.tlbFill w.tlb core (leafEntry vmid asid e' at_ b w.va)).retryRequester w.who
        | .fault g r => s.stage2Fault w.who w.part w.ctx g r w.src 1 w.trap
        | _ => s.walkAgain w
      else s.faultService w.who w.part w.ctx w.va 2 (if b = 16 then 1 else if b = 25 then 2 else 3) w.src w.acc w.trap
    | .fault r l => s.faultService w.who w.part w.ctx w.va r l w.src w.acc w.trap
    | .stage2 g r => s.stage2Fault w.who w.part w.ctx g r w.src w.acc w.trap

end Sys2Proof.Machine
end

