-- ==== Sys2Proof/Machine/Ops.lean ====
section
/-! DEFINITION. The operations that every family shares: ending a task, aborting an ordered one, taking an exception,
returning from one, and how a step of an instruction ends (01 R32 to R37; 10 R255 to R262; 13 R313). -/

namespace Sys2Proof.Machine

/-! ### Leaving a thread context -/

/-- The tiles and counter-bank sets of a task freed, and its waiting requests dropped; a waiting request of another task may
now be granted (09 R218 to R220). -/
def State.freeArray (s : State) (cl uid : Nat) : State :=
  let c := s.cluster cl
  if (c.tiles.any fun t => t.owner == uid) || (c.sets.any fun t => t.owner == uid) || (c.allocs.any fun a => a.uid == uid) then
    (s.setCluster cl
      { c with
        tiles := c.tiles.filter fun t => t.owner != uid
        sets := c.sets.filter fun t => t.owner != uid
        allocs := c.allocs.filter fun a => a.uid != uid }).raise .grant cl 0 0
  else s

/-- Every record, walk, fault waiter and packet result that names a thread context or its task is dropped with it. -/
def State.forget (s : State) (t : Tid) (uid : Nat) : State :=
  let ofThread (w : Requester) : Bool := decide (w = .thread t)
  let ofTask (b : BivRec) : Bool := match b.kind with
    | .future u => u == uid
    | .rope u _ => u == uid
    | .wp u _ _ _ => u == uid
    | _ => false
  { s with
    walks := s.walks.filter fun w => !ofThread w.who
    faults := s.faults.map fun f => { f with waiters := f.waiters.filter fun w => !(ofThread w || decide (w = .saved uid)) }
    biv := s.biv.filter fun b => !ofTask b }

/-- A thread context is free again: its task is gone, its queue discarded, and the cluster dispatches (01 R28). -/
def State.freeContext (s : State) (t : Tid) : State :=
  match s.thread? t with
  | none => s
  | some th =>
    let s := s.setThread { th with wait := .free, task := none, tq := [] }
    match t.kind with
    | .barrel => s.raise .dispatch t.unit 0 0
    | _ => s

/-- The umbras that an ordered task has open are discarded, and the pool regains their shadows (13 R313, 08 R211). Its requests with
`UMB` = 1 run on without a destination, a record and an action, and with a `COPYP` those that its loader program has issued
(08 R206; 14 R332). DEDUCED (log 45). -/
def State.discardUmbras (s : State) (p uid : Nat) : State :=
  let open_ := (s.part p).umbras.filter fun u => u.owner == uid && u.ordered
  let shadows := open_.flatMap fun u => u.chunks.map fun c => c.shadow
  let s := if open_.isEmpty then s else s.mapPart p fun t =>
    { t with
      umbras := t.umbras.filter fun u => !(u.owner == uid && u.ordered)
      poolUsed := t.poolUsed.filter fun c => !shadows.contains c }
  let mine (r : Req) : Bool := r.uid == uid && r.ordered && bit ((r.blk[5]?).getD 0) 2
  let child (r : Req) : Bool := match r.parent with
    | some x => s.reqs.any fun y => y.id == x && mine y
    | none => false
  let lost (r : Req) : Option Nat := r.umbra.filter fun n => !(r.part == p && open_.any fun u => u.id == n)
  { s with reqs := s.reqs.map fun (r : Req) => if mine r || child r then { r with aborted := true, umbra := lost r } else r }

/-- Every task of the device: running, parked, saved in a queue, or finished and not committed. -/
def State.allTasks (s : State) : List Task :=
  (s.threads.filterMap fun th => th.task) ++
  (s.clusters.flatMap fun e =>
    (e.2.store.filterMap fun k => k.thread.task) ++
    (e.2.readyQ.filterMap fun q => match q.job with
      | .saved th _ => th.task
      | .fresh _ _ _ => none)) ++
  (s.parts.flatMap fun e => (e.2.ctxs.flatMap fun c => c.2.finished) ++ e.2.saves.flatMap fun a =>
    (a.threads.filterMap fun th => th.task) ++ (a.cluster.store.filterMap fun k => k.thread.task) ++
    (a.cluster.readyQ.filterMap fun q => match q.job with
      | .saved th _ => th.task
      | .fresh _ _ _ => none))

/-- A request in an inbox that a task still waits for. -/
def InboxItem.ofTask (i : InboxItem) (uid : Nat) : Bool :=
  match i with
  | .send _ u _ => u == uid
  | .access _ u _ => u == uid
  | .array u => u == uid
  | _ => false

/-- The inboxes of a partition without the requests that a task waits for. -/
def Part.dropWaits (t : Part) (uid : Nat) : Part :=
  { t with inboxes := t.inboxes.map fun b => { b with items := b.items.filter fun i => !i.ofTask uid } }

/-- The inboxes of a partition without the accesses of AGEs of the fabrics that a test names, by cluster and fabric. -/
def Part.dropAges (t : Part) (test : Nat → Nat → Bool) : Part :=
  let keep (i : InboxItem) : Bool := match i with
    | .age cl f _ => !test cl f
    | _ => true
  { t with inboxes := t.inboxes.map fun b => { b with items := b.items.filter keep } }

/-- Everything a task holds outside its registers is dropped, wherever it runs or waits: its context, its parked or queued
image, its tiles, its SSB lines and its umbras (01 R33; 13 R313). -/
def State.discardTask (s : State) (p uid : Nat) : State :=
  let keepParked (k : Parked) : Bool := !k.isTask uid
  let keepEntry (e : QEntry) : Bool := match e.job with
    | .saved th _ => (match th.task with
      | some k => k.uid != uid
      | none => true)
    | .fresh _ _ _ => true
  let s := match s.threadOfTask uid with
    | some th => ((s.forget th.id uid).freeArray th.id.unit uid).freeContext th.id
    | none => s
  -- what a saved context holds of a cluster's array is free too, and a waiting request may now fit (09 R219)
  let owners : Tbl Cluster := s.clusters.filter fun (e : Nat × Cluster) =>
    e.2.tiles.any (fun x => x.owner == uid) || e.2.sets.any (fun x => x.owner == uid)
  let s : State := s.each owners fun s e => s.raise .grant e.1 0 0
  -- a stream of the task that was saved with its checkpoint runs on (14 R334, R335)
  let streams : Tbl Cluster := s.clusters.filter fun (e : Nat × Cluster) => e.2.paused.any fun x => x.uid == uid
  let s : State := s.each streams fun s e => s.raise .unpause e.1 0 0
  let s : State := { s with
    faults := s.faults.map fun (f : FaultTok) => { f with waiters := f.waiters.filter fun w => decide (w ≠ Requester.saved uid) }
    clusters := s.clusters.map fun (e : Nat × Cluster) =>
      (e.1, { e.2 with
        store := e.2.store.filter keepParked
        readyQ := e.2.readyQ.filter keepEntry
        ssb := e.2.ssb.filter fun x => x.owner != uid
        tiles := e.2.tiles.filter fun x => x.owner != uid
        sets := e.2.sets.filter fun x => x.owner != uid })
    biv := s.biv.filter fun b => match b.kind with
      | .future u => u != uid
      | .rope u _ => u != uid
      | .wp u _ _ _ => u != uid
      | _ => true }
  (s.mapPart p fun t =>
    { t.dropWaits uid with
      ctxs := t.ctxs.map fun e => (e.1, { e.2 with
        finished := e.2.finished.filter fun k => k.uid != uid
        stalled := e.2.stalled.filter fun u => u != uid })
      saves := t.saves.map fun a => { a with
        threads := a.threads.filter fun th => (th.task.map fun k => k.uid) != some uid
        cluster := { a.cluster with
          store := a.cluster.store.filter keepParked
          readyQ := a.cluster.readyQ.filter keepEntry
          ssb := a.cluster.ssb.filter fun x => x.owner != uid
          tiles := a.cluster.tiles.filter fun x => x.owner != uid
          sets := a.cluster.sets.filter fun x => x.owner != uid } } }).discardUmbras p uid

/-- A registration leaves with everything that waits for it: queue entries, shares, forwards, its record and its rope
binding, which ends and leaves the rope as it stands (07 R164, 13 R313). -/
def State.unregister (s : State) (p id : Nat) : State :=
  let other (e : QEntry) : Bool := match e.job with
    | .fresh r _ _ => r != id
    | .saved _ _ => true
  let s := { s with
    regs := s.regs.filter fun r => r.id != id
    clusters := s.clusters.map fun (e : Nat × Cluster) => (e.1, { e.2 with readyQ := e.2.readyQ.filter other })
    dies := s.dies.map fun (e : Nat × Die) => (e.1, { e.2 with
      shares := e.2.shares.filter fun h => h.reg != id
      forwards := e.2.forwards.filter fun f => other f.entry })
    biv := s.biv.filter fun b => decide (b.kind ≠ BivKind.held id) }
  s.mapPart p fun t =>
    { t with
      bindings := t.bindings.filter fun b => b.reg != id
      ctxs := t.ctxs.map fun e => (e.1, { e.2 with
        holder := match e.2.holder with
          | some (r, i) => if r = id then none else some (r, i)
          | none => none }) }

/-- The ordered children that a task spawned are aborted with it and unregistered, and theirs in turn (13 R313). The first
argument bounds the depth by the number of registrations. -/
def State.abortChildren : Nat → State → Nat → State
  | 0, s, _ => s
  | fuel + 1, s, parent =>
    s.each (s.regs.filter fun r => r.spawner == some parent) fun s r =>
      let tasks := s.allTasks.filter fun k => k.reg == r.id
      let s := s.each tasks fun s k => (State.abortChildren fuel s k.uid).discardTask r.part k.uid
      s.unregister r.part r.id

/-- The children of a task aborted, to any depth. -/
def State.abortOffspring (s : State) (uid : Nat) : State := State.abortChildren (s.regs.length + 1) s uid

/-- A task that was killed or aborted starts again from its header, at its header priority, by its home die's dispatcher
(01 R24, R29, R33; log 14). -/
def State.restartTask (s : State) (k : Task) (tie : Option Word) : State :=
  match s.reg? k.reg with
  | none => s
  | some r => s.placeOn (s.regDie r) (r.hdr.tilesOf k.idx) (s.freshEntry r k.idx tie)

/-- An ordered task is aborted: everything of it is dropped, its children with it, and it is re-enqueued from its header;
`tie` is the conflicting line of an equal-key conflict (13 R313, R314). -/
def State.abortTask (s : State) (k : Task) (tie : Option Word) : State :=
  ((s.abortOffspring k.uid).discardTask k.part k.uid).restartTask k tie

/-- One instance of a registered header has ended; the registration leaves with its last one. `exited` is false for an
ending under 10 R258, after which the range never decrements its successors (01 R38). -/
def State.instanceEnd (s : State) (id : Nat) (exited : Bool) : State :=
  match s.reg? id with
  | none => s
  | some r =>
    let r' := { r with live := r.live - 1, ended := r.ended || !exited }
    if r.live ≤ 1 then { s with regs := s.regs.filter fun x => x.id != id } else s.mapReg id fun _ => r'

/-! ### Command cores: the watchdog's end of an event (21 R385, R386, R395) -/

/-- The recovery of a queue control block: an odd `SEQW` marks the copy whose update was cut off, and that update of the core is
lost whole (21 R386). An update that no core makes starts again. -/
def Queue.recover (q : Queue) : Queue :=
  let q := { q with writing := (q.writing.filter fun w => !w.core).map fun w => { w with step := 0 } }
  if bit q.qcb.seqw 0 then { q with qcb := q.shadow }
  else if bit q.shadow.seqw 0 then { q with shadow := q.qcb }
  else q

/-- The fields with those of an update put in. -/
def QcbFields.put (c : QcbFields) (w : QcbPatch) : QcbFields :=
  { c with
    head := w.head.getD c.head, nseq := w.nseq.getD c.nseq, state := w.state.getD c.state, lasterr := w.lasterr.getD c.lasterr,
    tshad := w.tshad.getD c.tshad }

/-- No field changed. -/
def QcbPatch.none : QcbPatch := { head := .none, nseq := .none, state := .none, lasterr := .none, tshad := .none }

/-- The fields of a queue's control block as they stand once the updates under way are made. -/
def Queue.now (q : Queue) : QcbFields := q.writing.foldl (fun c w => c.put w.patch) q.qcb

/-- `STATE` of a queue: 0 running, 1 held at `WAITF`, 2 halted, 3 switched out (21 R385). -/
def Queue.state (q : Queue) : Nat := bits q.now.state 0 8

/-- An update of a queue's control block begins, behind those under way (21 R386). -/
def State.updateQcb (s : State) (p q : Nat) (core packet irq : Bool) (w : QcbPatch) : State :=
  let s := if (s.queue p q).writing.isEmpty then s.raise .packet p q 7 else s
  s.mapQueue p q fun x => { x with writing := x.writing ++ [{ step := 0, patch := w, core := core, packet := packet, irq := irq }] }

/-- The ordering lock that an event holds (21 R394). -/
def CmdEvent.lock (e : CmdEvent) : Option Nat := if bit e.word 55 then some (bits e.word 45 10) else none

/-- `KIND` of an event (21 R394). -/
def CmdEvent.kind (e : CmdEvent) : Nat := bits e.word 56 8

/-- The event serves a queue: kinds 1 to 4 and 6 (21 R394). -/
def CmdEvent.ofQueue (e : CmdEvent) : Bool := e.kind != 5 && e.kind != 7

/-- A recovery event put ahead of the other waiting events of its lock (21 R395). -/
def putAhead (e : CmdEvent) : List CmdEvent → List CmdEvent
  | [] => [e]
  | x :: xs => if x.lock = e.lock then e :: x :: xs else x :: putAhead e xs

/-- A command core by its number. -/
def State.cmd (s : State) (core : Nat) : CmdCore := s.cmds.getD core { event := none, since := 0, done := false }

/-- The command cores of the device (21 R393). -/
def commandCores : Nat := 12

/-- Every idle command core is offered the waiting events (21 R393). -/
def State.offerEvents (s : State) : State :=
  s.each ((upFrom 0 commandCores).filter fun c => (s.cmd c).event.isNone) fun s c => s.raise .handoff c 0 0

/-- The word of an event (21 R394). -/
def eventWord (kind : Nat) (lock : Option Nat) (part arg : Nat) : Word :=
  word (kind * 2 ^ 56 + (match lock with
    | some l => 2 ^ 55 + l % 1024 * 2 ^ 45
    | none => 0) + part % 64 * 2 ^ 39 + arg % 2 ^ 39)

/-- An event enters the event queue (21 R393); a full queue's sources hold theirs in the order in which they came (R394). -/
def State.pushEvent (s : State) (e : CmdEvent) : State := ({ s with events := s.events ++ [e] }).offerEvents

/-- An event of a queue, under the queue's lock. -/
def State.queueEvent (s : State) (kind p q : Nat) : CmdEvent :=
  { word := eventWord kind (some (bits (s.queue p q).qcb.ctrl 20 10)) p q, part := p, q := q, recovery := false }

/-- A doorbell event of a queue, when none is waiting (21 R394). -/
def State.ring (s : State) (p q : Nat) : State :=
  if s.events.any fun e => e.kind == 1 && e.part == p && e.q == q then s else s.pushEvent (s.queueEvent 1 p q)

/-- A command core has executed `HALT`, or has been reset, since it took its event. -/
def State.halted (s : State) (core : Nat) : Bool :=
  match s.thread? { kind := .command, unit := core, slot := 0 } with
  | some th => decide (th.wait = .idle)
  | none => true

/-- The event of a command core ends with its `HALT`, once the work that the rules give the event is over: its lock is free and the
core takes another (21 R393). -/
def State.freeCore (s : State) (core : Nat) : State :=
  if s.halted core ∧ (s.cmd core).done then
    ({ s with cmds := s.cmds.put core { s.cmd core with event := none, done := false } }).raise .handoff core 0 0
  else s

/-- The work of the event of a command core is over. -/
def State.endEvent (s : State) (core : Nat) : State :=
  ({ s with cmds := s.cmds.put core { s.cmd core with done := true } }).freeCore core

/-- The core that works on an event of a queue. -/
def State.coreOfQueue (s : State) (p q : Nat) : Option Nat :=
  (s.cmds.find? fun e => !e.2.done && match e.2.event with
    | some x => x.ofQueue && x.part == p && x.q == q
    | none => false).map (·.1)

/-- The event of a queue that a core runs ends. -/
def State.endQueueEvent (s : State) (p q : Nat) : State :=
  match s.coreOfQueue p q with
  | some c => s.endEvent c
  | none => s

/-- A command core has a packet of a queue in hand: a `LAUNCH` that drains, a `SIGNAL` that is performed, or a packet whose control
block is being updated (21 R386, R391). -/
def State.inHand (s : State) (p q : Nat) : Bool :=
  let x := s.queue p q
  (s.coreOfQueue p q).isSome &&
  (x.performed || (x.writing.any fun w => w.packet) || (((s.part p).pending.map fun e => e.1) == some q))

/-- A queue halts with a code before the packet at its head, and raises its vector: nothing outside its control block changes. A
packet that a core has in hand is finished; no later one is read (21 R380). -/
def State.haltQueue (s : State) (p q code : Nat) : State :=
  s.updateQcb p q false false true
    { QcbPatch.none with state := some (word ((s.queue p q).now.head.toNat % 2 ^ 32 * 2 ^ 32 + code * 2 ^ 8 + 2)) }

/-- A record of the error log and its event of kind 7 (23 R431, 21 R394). The spec gives the 32 bytes of a record no layout:
they are free (log 2). The base is a host address (log 10). DESIGN CHOICE (log 46). -/
def State.reportError (s : State) (kind : ErrKind) (unit addr count : Nat) : State :=
  let n := s.pf.errSize.toNat
  let s := if n = 0 then s
    else s.each (upFrom 0 4) fun s i =>
      let r := s.freeW
      let m := r.2.hostMem.writeNat (s.pf.errBase.toNat + 32 * (s.pf.errProd % n) + 8 * i) 8 r.1.toNat
      { r.2 with hostMem := m }
  let index := s.pf.errProd
  let x : ErrRec := { kind := kind, unit := unit, addr := addr, count := count }
  let s : State := { s with pf := { s.pf with errProd := index + 1, errors := s.pf.errors ++ [x] } }
  s.pushEvent { word := eventWord 7 none 0 index, part := 0, q := 0, recovery := false }

/-- A command core that runs no event (21 R393): `TVEC` stays as its firmware has set it. -/
def State.resetCore (s : State) (core : Nat) : State :=
  let t : Tid := { kind := .command, unit := core, slot := 0 }
  let tvec := ((s.thread? t).getD (Thread.idle t)).regs.tvec
  let regs : Regs := { Regs.reset with tvec := tvec, status := setBits 0 11 2 2 }
  s.setThread { Thread.idle t with wait := .idle, regs := regs }

/-- The core is reset, the event's lock is freed, the QCB recovered, and a recovery event queued ahead of the other waiting
events of the lock. The expiry of a recovery event halts the queue with code 7, and the device reports it (21 R395,
10 R259). -/
def State.watchdogEnd (s : State) (core : Nat) : State :=
  let s := s.resetCore core
  match (s.cmd core).event with
  | none => s
  | some e =>
    if !e.ofQueue then s.endEvent core
    else
      let s := s.mapQueue e.part e.q Queue.recover
      let s := if (s.queue e.part e.q).writing.isEmpty then s else s.raise .packet e.part e.q 7
      if e.recovery then ((s.haltQueue e.part e.q 7).endEvent core).reportError .queueHalted e.part e.q 1
      else
        let again := { e with recovery := true, word := setBits e.word 56 8 6 }
        ({ s with events := putAhead again s.events }).endEvent core

/-! ### Taking an exception (10 R255 to R259) -/

/-- The trap registers written with a record; `TNEST` is written 0 by every kind (10 R256). -/
def Regs.writeTrap (r : Regs) (t : TrapRec) : Regs :=
  { r with tpc := r.pc, tkind := word t.kind, taddr := t.taddr, tinfo := t.tinfo, tnest := 0 }

/-- The entry of 10 R255: `PMODE` ← `MODE`, user mode becomes supervisor, `TA` ← 1, PC ← `TVEC`. -/
def Regs.enterTrap (r : Regs) (t : TrapRec) : Regs :=
  let w := r.writeTrap t
  let st := setBits r.status 13 2 (bits r.status 11 2)
  let st := if bits r.status 11 2 = 0 then setBits st 11 2 1 else st
  { w with status := setBits st 15 1 1, pc := r.tvec }

/-- A task ends as a termination by the driver ends one: a trap taken while `TA` = 1 (10 R258). Its tiles, sets and context
are freed, a bound rope counts the ending as an exit, no successor is decremented, an ordered task ends as an abort that is
not re-enqueued, and a record of reason 8 goes to fault service. -/
def State.endTask (s : State) (k : Task) (die : Nat) (trap : TrapRec) : State :=
  let s := match k.cls with
    | .ordered => s.abortOffspring k.uid
    | .free => s
  let s := s.mapCtx k.part k.ctx fun x => { x with holder := if x.holder = some (k.reg, k.idx) then none else x.holder }
  let s := (s.memberExit k.part k.reg k.idx).instanceEnd k.reg false
  let s := if k.cls = .ordered then s.raise .report die k.part k.ctx else s
  let info := faultInfo 8 trap.kind (s.part k.part).vmid (s.asid k.part k.ctx) 1 0 0
  let f : FaultTok := { token := 0, part := k.part, ctx := k.ctx, page := 0, acc := 0, stage2 := false, waiters := [],
                        addr := trap.taddr, info := info, written := false }
  let s := { s with faults := s.faults ++ [f] }.flushFaults k.part
  s.discardTask k.part k.uid

/-- The running task ends under 10 R258. -/
def State.terminate (s : State) (trap : TrapRec) : State :=
  match s.cur.task with
  | none => s
  | some k => s.endTask k (tidDie s.cur.id) trap

/-- A loader program ends: its request ends with the trap kind, its context is freed, and a `COPYP` that waits for a context of
that core may start (08 R206, 10 R259). -/
def State.endLoader (s : State) (kind : Option Nat) (faddr : Word) : State :=
  match s.cur.task with
  | none => s
  | some k =>
    let t := s.cur.id
    -- what the program has stored is acknowledged before its request completes (08 R201, R206)
    let s := (s.freeArray (s.homeCluster s.cur) k.uid).releasePrt k.uid
    let s := match k.loader with
      | none => s
      | some r => (s.mapReq r fun q =>
          { q with
            exited := true
            endKind := if q.endKind.isSome then q.endKind else kind
            faddr := if kind.isSome then faddr else q.faddr }).raise .engineDone r 0 0
    let waiting := s.reqs.filter fun q => decide (q.kind = .copyp) && !q.started && q.core == t.unit
    s.each waiting (fun s q => s.raise .lineDeliver q.id 0 0) |>.forget t k.uid |>.freeContext t

/-- Taking an exception at the PC of the running thread (10 R255, R258, R259). -/
def State.takeTrap (s : State) (t : TrapRec) : State :=
  match s.cur.id.kind with
  | .memory => s.endLoader (some t.kind) t.taddr
  | .command =>
    if s.cur.regs.ta then (s.mapRegs fun r => r.writeTrap t).watchdogEnd s.cur.id.unit
    else ((s.mapRegs fun r => r.enterTrap t).setWait .ready).mapCur fun t => { t with mid := false }
  | .barrel =>
    if s.cur.regs.ta then (s.mapRegs fun r => r.writeTrap t).terminate t
    else ((s.mapRegs fun r => r.enterTrap t).setWait .ready).mapCur fun t => { t with mid := false }

/-- Another thread context takes the place of the running one. -/
def State.focus (s : State) (t : Tid) : State :=
  if s.cur.id = t then s
  else match s.others.find? (fun th => decide (th.id = t)) with
    | none => s
    | some th => { s with cur := th, others := putThread s.cur (s.others.filter fun u => decide (u.id ≠ t)) }

/-- An operation of the running thread performed for a thread context named; afterwards the thread that was running runs
again. -/
def State.asThread (s : State) (t : Tid) (f : State → State) : State :=
  match s.thread? t with
  | none => s
  | some _ => (f (s.focus t)).focus s.cur.id

/-- The return from an exception: `MODE` ← `PMODE`, `TA` ← 0, and then PC ← `TPC`, or a misaligned trap taken in the new
mode when `TPC` is odd (10 R262). -/
def State.returnFromTrap (s : State) : State :=
  let t := s.cur.regs.tpc
  let s := s.mapRegs fun r => { r with status := setBits (setBits r.status 11 2 (bits r.status 13 2)) 15 1 0 }
  if bit t 0 then s.takeTrap { kind := 0x02, taddr := t, tinfo := 0 } else s.jump t

/-! ### How an instruction ends -/

/-- The privilege trap of 10 R252 and R260. -/
def privilegeTrap (cause detail : Nat) : TrapRec := { kind := 0x0E, taddr := 0, tinfo := causeInfo cause detail }

/-- A trap in the layout of 07 R153. -/
def structTrap (kind : Nat) (addr : Word) (cause detail : Nat) : TrapRec :=
  { kind := kind, taddr := addr, tinfo := causeInfo cause detail }

/-- A step of an instruction as the outcome of the machine: a value ends in the continuation's state, a trap is taken, and a
dropped thread keeps its PC. DEDUCED (log 50). -/
def Acc.run {α : Type} (a : Acc α) (f : α → State → State) : Out :=
  match a with
  | .ok v s => .next (f v s)
  | .trap r s => .next (s.takeTrap r)
  | .wait s => .next s

/-- The kind that a fatal wake gives (22 R408, 10 R267). -/
def fatalKind (kind : Nat) : Nat := if kind = 1 then 0x04 else 0x03

/-- A thread woken from a fault-service wait: by a retry its instruction is issued again, by a fatal wake its access becomes
a precise trap with the kind the wake carries (01 R32). A server fault keeps its kind and records cause 2 and that kind
(08 R194); a fatal wake of an image's fetch is a rejected image (08 R191). -/
def State.wakeThread (s : State) (t : Tid) (kind : Nat) (trap : TrapRec) : State :=
  s.asThread t fun s =>
    let s := s.mapCur Thread.again
    if kind = 0 then s
    else
      let k := fatalKind kind
      if trap.kind = 0x05 then
        s.takeTrap { trap with tinfo := setBits (setBits trap.tinfo 32 8 2) 8 8 k }
      else if trap.kind = 0x06 then s.takeTrap trap
      else s.takeTrap { trap with kind := k }

/-- The fabric of a cluster on which the stream of a request runs. -/
def State.streamFabric (s : State) (cl r : Nat) : Option Nat :=
  ((s.cluster cl).fabrics.find? fun e => match e.2.stream with
    | some x => x.req == r
    | none => false).map (·.1)

/-- A stream has ended or stopped: its accesses no longer wait for fault service (08 R209; 10 R267). -/
def State.forgetStream (s : State) (r : Nat) : State :=
  { s with faults := s.faults.map fun (f : FaultTok) => { f with waiters := f.waiters.filter fun w => decide (w ≠ Requester.engine r) } }

/-- The accesses of a stream that waited for a token go on, or the first of them stops the stream (08 R209). -/
def State.wakeStream (s : State) (q : Req) (token : Word) (kind : Nat) : State :=
  match s.streamFabric q.cl q.id with
  | none => s
  | some f =>
    let mine := (s.fabric q.cl f).ages.filter fun a => a.waits == some token
    let s := s.mapFabric q.cl f fun x =>
      { x with ages := x.ages.map fun a => if a.waits = some token then { a with waits := none } else a }
    if kind = 0 then s.each mine fun s a => s.raise .ageDone q.cl f a.elem
    else match mine with
      | [] => s
      | a :: _ => ((s.mapReq q.id fun x =>
          if x.endKind.isSome then x else { x with endKind := some (fatalKind kind), faddr := a.va, elem := a.elem }).forgetStream
            q.id).raise .streamFatal q.cl f 0

/-- An engine request woken from a fault-service wait: it resumes, or ends with the kind; a fatal wake at the record leaves it
out, and one at the word of the completion action leaves the action out (08 R200, R202). -/
def State.wakeEngine (s : State) (token : Word) (r kind : Nat) : State :=
  match s.req? r with
  | none => s
  | some q =>
    let s := s.mapReq r fun x => { x with token := none }
    if q.stage = 0 ∧ q.kind = .strm then s.wakeStream q token kind
    else if kind = 0 then s.raise (if q.stage = 0 then .lineDeliver else .engineDone) r 0 0
    else (s.mapReq r fun x =>
      match x.stage with
      | 0 => { x with endKind := some (fatalKind kind), stage := 1 }
      | 1 => { x with endKind := some (fatalKind kind), noRecord := true }
      | _ => { x with noAction := true }).raise .engineDone r 0 0

/-- A record of a commit decrement that was dropped: `SRC` 3, `ACC` 1 and the header's address (01 R37). DEDUCED (log 33). -/
def State.droppedDecrement (s : State) (p c : Nat) (hdr : Word) (info : Word) : State :=
  let f : FaultTok := { token := 0, part := p, ctx := c, page := 0, acc := 1, stage2 := false, waiters := [], addr := hdr,
                        info := info, written := false }
  { s with faults := s.faults ++ [f] }.flushFaults p

/-- A successor decrement of a commit, which waits for fault service as an engine request does; an underflow enqueues
nothing (01 R23, R37). DEDUCED (log 33). -/
def State.commitDecrement (s : State) (p c cl : Nat) (hdr : Word) : State :=
  let info (r : Nat) : Word := faultInfo r 0 (s.part p).vmid (s.asid p c) 1 3 1
  let trap : TrapRec := { kind := 0, taddr := hdr, tinfo := 0 }
  match s.agentLocate p c cl (stackTlbOf (dieOfCluster cl * 4)) hdr 1 true with
  | .at l s =>
    match l with
    | .dram q g =>
      match s.agentHome l true with
      | .fault g r => s.stage2Fault (.decrement p c hdr) p c g r 3 1 trap
      | .busy => s.raise .decrement p c hdr.toNat
      | home => ((home.after s).decrement q g).2
    | _ => s.droppedDecrement p c hdr (info 1)
  | .unmapped => s.droppedDecrement p c hdr (info 1)
  | .busy => s.raise .decrement p c hdr.toNat
  | .fault r l => s.faultService (.decrement p c hdr) p c hdr r l 3 1 trap
  | .stage2 g r => s.stage2Fault (.decrement p c hdr) p c g r 3 1 trap

/-- A commit whose buffered line stage 2 has refused goes on; after a fatal wake without the lines of that 64 KiB page.
DESIGN CHOICE (log 69). -/
def State.wakeCommit (s : State) (p c page kind : Nat) : State :=
  let mine (uid : Nat) : Bool := s.allTasks.any fun k => k.uid == uid && k.part == p && k.ctx == c
  let refused (x : SsbLine) : Bool := mine x.owner && (match x.loc with
    | .dram q g => q == p && g / 2 ^ 16 == page
    | _ => false)
  let s := if kind = 0 then s else
    { s with clusters := s.clusters.map fun (e : Nat × Cluster) => (e.1, { e.2 with ssb := e.2.ssb.filter fun x => !refused x }) }
  (s.raise .commit p c 0).raise .irrevocable p c 0

/-- A task whose context is switched out is woken from fault service, to take effect at switch-in (22 R418).
DEDUCED (log 29). -/
def State.wakeSwitchedOut (s : State) (p uid kind : Nat) : State :=
  let mark (th : Thread) : Thread := match th.wait, th.task with
    | .fault _ trap, some k => if k.uid = uid then { th with wait := .woken kind trap } else th
    | _, _ => th
  s.mapPart p fun t => { t with saves := t.saves.map fun a => { a with threads := a.threads.map mark } }

/-- The wait that a token names ends, for every joined waiter; `none` for a token that names none (22 R408, 10 R267).
DEDUCED (log 29). DEDUCED (log 33). -/
def State.wakeToken (s : State) (token : Word) (kind : Nat) : Option State :=
  match s.faults.find? (fun f => f.token == token && !f.waiters.isEmpty) with
  | none => none
  | some f =>
    let s := { s with faults := s.faults.filter fun (x : FaultTok) => decide (x ≠ f) }
    some (s.each f.waiters fun s w => match w with
      | .engine r => s.wakeEngine token r kind
      | .decrement p c hdr =>
        if kind = 0 then s.commitDecrement p c ((s.part p).globalCl 0) hdr
        -- the record is the commit unit's, whoever's record the decrement had joined (01 R37)
        else s.droppedDecrement p c hdr (setBits (setBits f.info 4 2 3) 0 2 1)
      | .saved uid => s.wakeSwitchedOut f.part uid kind
      | .commit p c => s.wakeCommit p c f.page kind
      | .thread t =>
        match s.thread? t with
        | some th =>
          match th.wait with
          | .fault tok trap => if tok = token then s.wakeThread t kind trap else s
          | _ => s
        | none => s)

end Sys2Proof.Machine
end

