-- ==== Sys2Proof/Machine/Access.lean ====
section
/-! DEFINITION. Memory accesses of a thread: loads, stores and atomics with their orders, faults, poison and speculation
(05 R121 to R131; 07 R151 to R158; 13 R310 to R316). -/

namespace Sys2Proof.Machine

/-! ### Commit broadcasts and the summit stall (13 R311 to R316) -/

/-- The summit holder of a context is this task. -/
def State.isHolder (s : State) (k : Task) : Bool := decide ((s.ctxState k.part k.ctx).holder = some (k.reg, k.idx))

/-- The running task is the summit holder of its context. -/
def State.holdsSummit (s : State) : Bool :=
  match s.cur.task with
  | some k => decide (k.cls = .ordered) && s.isHolder k
  | none => false

/-- A broadcast of line numbers reaches every cluster of the partition: it drops their L1 copies, so that no gap is left for a
stale read, and aborts the ordered tasks of the context with a key not below the committer's and a line in their signature;
with an equal key the first line that hit is recorded (13 R312 step 6, R314). DEDUCED (log 32). -/
def State.broadcast (s : State) (k : Task) (lines : List Nat) : State :=
  let s := { s with
    clusters := s.clusters.map fun (e : Nat × Cluster) =>
      (e.1, { e.2 with l1 := e.2.l1.filter fun c => !(c.vmid == (s.part k.part).vmid && lines.contains c.line) }) }
  let hit (t : Task) : Option Nat :=
    if t.part = k.part ∧ t.ctx = k.ctx ∧ t.uid ≠ k.uid ∧ t.cls = .ordered ∧ !t.irrevocable ∧ k.key.toNat ≤ t.key.toNat then
      lines.find? fun l => sigHits t.sig l
    else none
  s.each (s.allTasks.filterMap fun t => (hit t).map fun l => (t, l)) fun s e =>
    if s.allTasks.any (fun x => x.uid == e.1.uid) then
      if e.1.key = k.key then
        ((s.mapCtx k.part k.ctx fun x => { x with tiecnt := x.tiecnt + 1 }).abortTask e.1 (some (word (e.2 * 64))))
      else s.abortTask e.1 none
    else s

/-- The running thread stalls until its task holds the summit (07 R155). -/
def State.stallSummit (s : State) : State :=
  match s.cur.task with
  | none => s
  | some k =>
    let s := s.mapCtx k.part k.ctx fun x => { x with stalled := addMark x.stalled k.uid }
    (s.setWait .summit).raise .irrevocable k.part k.ctx 0

/-- The running task is discarded and re-enqueued from its header: a poisoned load in a speculative task (05 R131). -/
def State.abortCurrent (s : State) : State :=
  match s.cur.task with
  | none => s
  | some k => s.abortTask k none

/-! ### Sizes and values (05 R121) -/

/-- The size of a load. -/
def ldSize : LdKind → Nat
  | .b => 1
  | .bz => 1
  | .h => 2
  | .hz => 2
  | .w => 4
  | .wz => 4
  | .d => 8

/-- The value a load writes: its bytes, sign- or zero-extended. -/
def ldValue (k : LdKind) (bs : List Byte) : Word :=
  match k with
  | .b => sextW (word (leNat bs)) 8
  | .h => sextW (word (leNat bs)) 16
  | .w => sextW (word (leNat bs)) 32
  | _ => word (leNat bs)

/-- The size of a store. -/
def stSize : StKind → Nat
  | .b => 1
  | .h => 2
  | .w => 4
  | .d => 8

/-- The size of an atomic. -/
def atomBytes : AtomSize → Nat
  | .w => 4
  | .d => 8

/-- log2 of a size from 1 to 8. -/
def log2Size : Nat → Nat
  | 1 => 0
  | 2 => 1
  | 4 => 2
  | _ => 3

/-- The size of an access. -/
def AccessOp.size : AccessOp → Nat
  | .load k _ => ldSize k
  | .store k _ => stSize k
  | .atomic _ sz _ _ _ _ _ => atomBytes sz

/-- A store or an atomic. -/
def AccessOp.writes : AccessOp → Bool
  | .load _ _ => false
  | _ => true

/-- The code of an order in `TINFO` (05 R130). -/
def orderCode : MemOrder → Nat
  | .plain => 0
  | .acqRel => 1
  | .direct => 2
  | .stream => 3

/-- The record of a trap of an access, but for its kind (05 R130; 07 R153 for an atomic). -/
def Access.trap (a : Access) (kind : Nat) : TrapRec :=
  let ord := match a.op with
    | .atomic _ _ _ _ _ _ _ => 1
    | _ => orderCode a.order
  { kind := kind, taddr := a.va, tinfo := accInfo ord (log2Size a.op.size) (if a.op.writes then 1 else 0) }

/-- The new value of an atomic of w bits, on unsigned w-bit numbers (07 R157). -/
def atomNew (op : AtomOp) (w old b cmp : Nat) : Nat :=
  match op with
  | .add => (old + b) % 2 ^ w
  | .and => Nat.land old b
  | .or => Nat.lor old b
  | .xor => Nat.xor old b
  | .min => if signedN old w ≤ signedN b w then old else b
  | .max => if signedN old w ≤ signedN b w then b else old
  | .minn => if old ≤ b then old else b
  | .maxn => if old ≤ b then b else old
  | .swap => b
  | .cas => if old = cmp then b else old

/-! ### Releases and acquires (07 R156) -/

/-- A release at a scope by the running thread: from `.prt` on, the RDC invalidations of its stores are acknowledged, and at
`.sys` the host-bit invalidations too. -/
def State.release (s : State) (c : Scope) : State :=
  match c with
  | .cl => s
  | .die => s
  | .prt => s.releasePrt s.curUid
  | .sys => s.releaseSys s.curUid

/-- An acquire at a scope by the running thread: from `.die` on, the cluster's L1 is emptied, and at `.sys` the die's RDC loses
its copies of host lines (13 R320). -/
def State.acquire (s : State) (c : Scope) : State :=
  let s := s.synchronise.acquireInv s.curCluster s.curUid
  match c with
  | .cl => s
  | .die => s.emptyL1 s.curCluster
  | .prt => s.emptyL1 s.curCluster
  | .sys => (s.emptyL1 s.curCluster).dropHostLines s.curCluster

/-! ### Performing an access -/

/-- A location of a scratchpad where a context of a partition is not resident, other than on the requester's own cluster
(22 R416). -/
def State.elsewhereOf (s : State) (p c : Nat) (own : Option Nat) (l : Loc) : Option Nat :=
  match l with
  | .scratch cl _ =>
    let t := s.part p
    if some cl ≠ own ∧ t.residentAt (t.logicalCl cl) ≠ some c then some (t.logicalCl cl) else none
  | _ => none

/-- A location of a scratchpad of another cluster where the running thread's context is not resident (22 R416). -/
def State.elsewhere (s : State) (l : Loc) : Option Nat := s.elsewhereOf s.curPart s.curCtx (some s.curCluster) l

/-- The number of requests a memory-backed inbox holds (07 R185, 22 R416). -/
def inboxSize : Nat := 4096

/-- The inbox of a context for a logical cluster. -/
def Part.inboxOf (t : Part) (l c : Nat) : List InboxItem :=
  match t.inboxes.find? fun b => b.l == l && b.c == c with
  | some b => b.items
  | none => []

/-- An inbox of a partition with other contents. -/
def Part.setInbox (t : Part) (l c : Nat) (items : List InboxItem) : Part :=
  { t with inboxes := { l := l, c := c, items := items } :: t.inboxes.filter fun b => !(b.l == l && b.c == c) }

/-- A request put at the end of an inbox. -/
def State.toInbox (s : State) (p l c : Nat) (i : InboxItem) : State :=
  s.mapPart p fun t => t.setInbox l c (t.inboxOf l c ++ [i])

/-- A thread's access waits in an inbox of a partition. -/
def Part.queuedAccess (t : Part) (th : Tid) : Bool :=
  t.inboxes.any fun b => b.items.any fun i => match i with
    | .access u _ _ => decide (u = th)
    | .send u _ _ => decide (u = th)
    | _ => false

/-- Threads that wait for a place in an inbox issue again (07 R185). -/
def State.wakeInboxWaiters (s : State) (p : Nat) : State :=
  let t := s.part p
  let wake (th : Thread) : Thread :=
    let waits := decide (th.wait = .inbox true) || decide (th.wait = .inbox false)
    if waits ∧ (th.task.map fun k => k.part) = some p ∧ !t.queuedAccess th.id then
      { th with wait := .ready, mid := decide (th.wait = .inbox false) } else th
  { s with cur := wake s.cur, others := s.others.map wake }

/-- The location of the halfword that holds a location. -/
def Loc.even : Loc → Loc
  | .dram p g => .dram p (g - g % 2)
  | .scratch c o => .scratch c (o - o % 2)
  | .phys a => .phys (a - a % 2)
  | .host a => .host (a - a % 2)

/-- The halfwords that a store of n bytes by a task or a request goes over, with the values before it as those see them whose fetches
the note concerns (12 R298, R302). -/
def State.noteOldFor (s : State) (whom : OldFor) (cl writer : Nat) (l : Loc) (n : Nat) : State :=
  match l with
  | .scratch _ _ => s
  | .phys _ => s
  | _ =>
    let first := l.even
    let old (h : Loc) : BitVec 16 :=
      let bs := s.bytesAt h 2
      let bs := if whom = .writer then (s.cluster cl).overlay writer h bs else bs
      (bs.drop 1).headD 0 ++ bs.headD 0
    let new := (upFrom 0 ((n + 1) / 2)).map fun k =>
      let h := first.shift (2 * k)
      ({ loc := h, old := old h, tick := s.tick, writer := writer, whom := whom } : OldCode)
    s.mapCluster cl fun c => { c with oldCode := c.oldCode ++ new }

/-- The halfwords that a store performed at its home goes over. -/
def State.noteOldCode (s : State) (cl writer : Nat) (l : Loc) (n : Nat) : State := s.noteOldFor .all cl writer l n

/-- The software consumer count of the fault ring has moved: records that waited are written (22 R408). -/
def State.noteFscb (s : State) (l : Loc) : State :=
  match l with
  | .dram p g => if g / 64 = (s.part p).fscb.toNat / 64 ∧ !s.faults.isEmpty then s.flushFaults p else s
  | .phys a =>
    match s.guestOf a with
    | some (p, g) => if g / 64 = (s.part p).fscb.toNat / 64 ∧ !s.faults.isEmpty then s.flushFaults p else s
    | none => s
  | _ => s

/-- A task, where it is irrevocable: its stores are one-line commits (13 R316). -/
def Task.committer (k : Task) : Option Task := if k.cls = .ordered ∧ k.irrevocable then some k else none

/-- The running task, where it is irrevocable. -/
def State.committer (s : State) : Option Task := s.cur.task.bind Task.committer

/-- A store of an irrevocable task is broadcast as a one-line commit (13 R316). -/
def State.noteCommit (s : State) (by_ : Option Task) (l : Loc) : State :=
  match by_ with
  | some k => s.broadcast k [s.sigLine l]
  | none => s

/-- A store of the running task, where it is irrevocable, is broadcast as a one-line commit (13 R316). -/
def State.noteIrrevocable (s : State) (l : Loc) : State := s.noteCommit s.committer l

/-- A store performed at its home, with its L1 copy updated, or invalidated by a direct store (05 R124). -/
def State.performStore (s : State) (o : MemOrder) (l : Loc) (bs : List Byte) : State :=
  let cl := s.curCluster
  let s := s.noteOldCode cl s.curUid l bs.length
  let s := s.storeHome cl s.curUid l bs
  let s := if o = .direct then s.l1Drop cl l else s.l1Store cl l bs
  (s.noteFscb l).noteIrrevocable l

/-- An access of a thread that is not speculative, granted by its home: its effect, and the thread goes on.
DEDUCED (log 24). DEDUCED (log 32). -/
def State.performFree (s : State) (a : Access) (l : Loc) : Acc Unit :=
  let cl := s.curCluster
  match a.op with
  | .load k v =>
    let cached := a.order = .plain ∨ a.order = .stream
    let r := if cached then s.loadCached cl (decide (a.order = .stream)) l (ldSize k)
      else (s.loadHome l (ldSize k), s.noteSeen cl s.curUid l)
    if r.1.2 then .trap (a.trap 0x10) r.2
    else
      let s := if a.order = .acqRel then r.2.acquire .prt else r.2
      .ok () ((s.setG v (ldValue k r.1.1)).advance a.len)
  | .store k v =>
    let s := if a.order = .acqRel then s.release .prt else s
    .ok () ((s.performStore a.order l (leBytes (stSize k) v.toNat)).advance a.len)
  | .atomic op sz o c d b cmp =>
    let n := atomBytes sz
    let s := if o = .rel ∨ o = .ar then s.release c else s
    let r := s.loadHome l n
    if r.2 then .trap (a.trap 0x10) s
    else
      let old := leNat r.1
      let new := atomNew op (8 * n) old (b.toNat % 256 ^ n) (cmp.toNat % 256 ^ n)
      -- host memory: at the issuing die's RDC, which takes the line first (07 R158, 13 R320)
      let s := match l with
        | .host h => s.takeHostLine (dieOfCluster cl) h
        | _ => s
      let s := if op = .cas ∧ new = old then s
        else match l with
          | .host h => s.writeHost cl s.curUid h (leBytes n new)
          | _ => ((s.noteOldCode cl s.curUid l n).ownWrite cl s.curUid l (leBytes n new)).noteFscb l
      let s := s.noteSeen cl s.curUid l
      let s := s.l1Drop cl l
      let s := s.setG d (if n = 4 then sextW (word old) 32 else word old)
      .ok () ((if o = .acq ∨ o = .ar then s.acquire c else s).advance a.len)

/-- The first access of an ordered task acts as an acquire at `.prt` (13 R315). DEDUCED (log 30). -/
def State.firstAccess (s : State) : State :=
  match s.cur.task with
  | some t => if t.cls = .ordered ∧ !t.accessed then (s.acquire .prt).mapTask fun t => { t with accessed := true } else s
  | none => s

/-- The signature of the running task takes a line; the first access of an ordered task acts as an acquire (13 R310, R315). -/
def State.sign (s : State) (l : Loc) : State :=
  s.firstAccess.mapTask fun t => { t with sig := sigAdd t.sig (s.sigLine l) }

/-- An access of a speculative task, granted: a load enters the signature and sees the task's own buffered bytes, a store
enters the SSB (05 R126; 13 R310, R315). DEDUCED (log 32). -/
def State.performSpec (s : State) (a : Access) (l : Loc) : Acc Unit :=
  let cl := s.curCluster
  let uid := s.curUid
  match a.op with
  | .load k v =>
    let n := ldSize k
    let s := s.sign l
    let r := if a.order = .acqRel then (s.loadHome l n, s.noteSeen cl uid l) else s.loadCached cl (decide (a.order = .stream)) l n
    let covered := (s.cluster cl).ssbCovers uid l n
    if r.1.2 && !covered then
      if s.holdsSummit then .trap (a.trap 0x10) r.2 else .wait r.2.abortCurrent
    else
      let bs := (s.cluster cl).overlay uid l r.1.1
      let s := if a.order = .acqRel then r.2.acquire .prt else r.2
      .ok () ((s.setG v (ldValue k bs)).advance a.len)
  | .store k v =>
    let s := s.noteOldFor .writer cl uid l (stSize k)
    .ok () ((s.mapCluster cl fun c => c.ssbStore uid l (leBytes (stSize k) v.toNat)).advance a.len)
  | .atomic _ _ _ _ _ _ _ => .wait s.stallSummit

/-- The signature of a speculative task has no room for a line (13 R316). -/
def State.noSigRoom (s : State) (l : Loc) : Bool :=
  match s.cur.task with
  | some k => !sigRoom k.sig (s.sigLine l)
  | none => false

/-- A speculative access has to stall for the summit: atomics, direct accesses, a store without an SSB line, a load without
room in the signature (05 R126; 07 R155; 13 R316). DEDUCED (log 21). DEDUCED (log 32). -/
def State.mustStall (s : State) (a : Access) (l : Loc) : Bool :=
  match a.op with
  | .atomic _ _ _ _ _ _ _ => true
  | .load _ _ => decide (a.order = .direct) || s.noSigRoom l
  | .store _ _ => decide (a.order = .direct) || !(s.cluster s.curCluster).ssbRoom s.curUid l

/-- An access reads no home: a plain or stream load that a copy answers. A speculative store is granted by its home like any
other, and held in the SSB then (05 R128, R129). -/
def State.needsNoHome (s : State) (a : Access) (l : Loc) : Bool :=
  match a.op with
  | .load _ _ => (decide (a.order = .plain) || decide (a.order = .stream)) && (s.cachedLine s.curCluster l).isSome
  | .store _ _ => false
  | .atomic _ _ _ _ _ _ _ => false

/-- An access at its location, once its home has granted it. -/
def State.perform (s : State) (a : Access) (l : Loc) : Acc Unit :=
  if s.speculative then s.performSpec a l else s.performFree a l

/-- An access that has passed stage 1 meets its home: granted, in flight to the memory controller, faulting at stage 2, or
waiting in an inbox (05 R128, R129 step 5; 22 R405, R416). `refilled` is true at the memory controller. -/
def State.meetHome (s : State) (a : Access) (l : Loc) (refilled : Bool) : Acc Unit :=
  if s.speculative && s.mustStall a l then .wait s.stallSummit
  else
  let s := s.firstAccess
  match s.elsewhere l with
    | some lc =>
      match a.op with
      | .store k v =>
        let s := if !s.speculative && decide (a.order = .acqRel) then s.release .prt else s
        if s.speculative then s.perform a l
        else if ((s.part s.curPart).inboxOf lc s.curCtx).length < inboxSize then
          .ok () ((s.toInbox s.curPart lc s.curCtx (.store l.offset (stSize k) v s.committer)).advance a.len)
        else .wait ((s.toInbox s.curPart lc s.curCtx (.access s.cur.id s.curUid (some (a, l)))).setWait (.inbox false))
      | _ => .wait ((s.toInbox s.curPart lc s.curCtx (.access s.cur.id s.curUid (some (a, l)))).setWait (.inbox false))
    | none =>
      if s.needsNoHome a l then s.perform a l
      else match (if refilled then s.refill l a.op.writes (decide (a.order = .stream) && !a.op.writes) else s.askHome l a.op.writes) with
        | .granted s => s.perform a l
        | .miss => .wait ((s.setWait (.access a l)).raiseFor .retire s.cur.id)
        | .busy => .wait ((s.setWait (.access a l)).raiseFor .retire s.cur.id)
        | .fault g r =>
          .wait (s.stage2Fault (.thread s.cur.id) s.curPart s.curCtx g r 0 (if a.op.writes then 1 else 0) (a.trap 0))

/-- One load, store or atomic of the running thread, from step 1 of 05 R129. -/
def State.access (s : State) (a : Access) : Acc Unit :=
  if a.va.toNat % a.op.size ≠ 0 then .trap (a.trap 0x02) s
  else (s.locate a.va (if a.op.writes then 1 else 0) (a.trap 0)).bind fun l s => s.meetHome a l false

/-- A load instruction. -/
def State.load (s : State) (k : LdKind) (o : MemOrder) (v : Reg) (va : Word) (len : Nat) : Out :=
  (s.access { op := .load k v, order := o, va := va, len := len }).run fun _ s => s

/-- A store instruction. -/
def State.store (s : State) (k : StKind) (o : MemOrder) (v va : Word) (len : Nat) : Out :=
  (s.access { op := .store k v, order := o, va := va, len := len }).run fun _ s => s

/-- An atomic instruction (07 R157). -/
def State.atomic (s : State) (op : AtomOp) (sz : AtomSize) (o : AtomOrder) (c : Scope) (d a b : Reg) : Out :=
  (s.access { op := .atomic op sz o c d (s.g b) (s.g d), order := .plain, va := s.g a, len := 4 }).run fun _ s => s

/-! ### Structures and blocks read or written whole by an instruction -/

/-- Stage 2 for a structure: its line is at hand in the L2 or refilled within the instruction (05 R129 step 5); behind requests
to the line that arrived earlier the thread waits for its turn at the home (07 R151). What it reads there it has seen (13 R308).
DEDUCED (log 24). -/
def State.structHome (s : State) (l : Loc) (write : Bool) (trap : TrapRec) : Acc Unit :=
  let fault (g r : Nat) : Acc Unit :=
    .wait (s.stage2Fault (.thread s.cur.id) s.curPart s.curCtx g r 0 (if write then 1 else 0) trap)
  let seen (s : State) : Acc Unit := .ok () (s.noteSeen s.curCluster s.curUid l)
  let turn (s : State) : Acc Unit := .wait ((s.setWait (.home l)).raiseFor .retire s.cur.id)
  match s.askHome l write with
  | .granted s => seen s
  | .fault g r => fault g r
  | .busy => turn s
  | .miss =>
    match s.refill l write false with
    | .granted s => seen s
    | .fault g r => fault g r
    | .miss => seen s
    | .busy => turn s

/-- The location of a structure's address. One in a view range traps access with structure cause 8, also where the steps of
05 R129 would bar the access there (07 R152). -/
def State.locateStruct (s : State) (va : Word) (acc : Nat) (trap : TrapRec) : Acc Loc :=
  match s.locate va acc trap with
  | .trap r s => .trap (if r.kind = 0x03 then structTrap 0x03 va 8 0 else r) s
  | x => x

/-- The location of a structure of the `SYNC` and `TASK` majors: alignment, the steps of 05 R129, then device memory of the
partition only (07 R152, R153). Poison counts in the words that the instruction reads: a rope's two, a future's one, a
header's counter. DEDUCED (log 24). -/
def State.structure_ (s : State) (va : Word) (align acc : Nat) : Acc Loc :=
  let info := accInfo 1 3 1
  if va.toNat % align ≠ 0 then .trap { kind := 0x02, taddr := va, tinfo := info } s
  else (s.firstAccess.locateStruct va acc { kind := 0, taddr := va, tinfo := info }).bind fun l s =>
    match l with
    | .dram p g =>
      if ((s.part p).windowAt g).isSome then .trap (structTrap 0x03 va 8 0) s
      else (s.structHome l (acc == 1) { kind := 0, taddr := va, tinfo := info }).bind fun _ s =>
        let w := if align = 64 then l.shift 0x18 else l
        let n := if align = 16 then 16 else 8
        if (if s.speculative then s.specPoisoned s.curCluster s.curUid w n else s.poisonedAt w n) then
          (if s.speculative && !s.holdsSummit then .wait s.abortCurrent
           else .trap { kind := 0x10, taddr := va, tinfo := info } s)
        else .ok l s
    | _ => .trap (structTrap 0x03 va 8 0) s

/-- A location of another cluster's scratchpad where the caller's context is not resident: the instruction waits in that
context's inbox and is issued again (22 R416). -/
def State.atHand (s : State) (l : Loc) : Acc Unit :=
  match s.elsewhere l with
  | some lc => .wait ((s.toInbox s.curPart lc s.curCtx (.access s.cur.id s.curUid none)).setWait (.inbox false))
  | none => .ok () s

/-- n bytes from a VA read at their homes, in pieces of at most a 64-byte line, each under the steps of 05 R129; `info` is the
`TINFO` of a trap of one of those steps (08 R197; 09 R241; 10 R263). -/
def State.readBlock (s : State) (va : Word) (info : Word) : Nat → Nat → Acc (List Byte)
  | 0, _ => .ok [] s
  | lines + 1, k =>
    let at_ := va + word (64 * k)
    let trap : TrapRec := { kind := 0, taddr := at_, tinfo := info }
    (s.firstAccess.locate at_ 0 trap).bind fun l s => (s.atHand l).bind fun _ s =>
      (s.structHome l false trap).bind fun _ s =>
        if s.speculative && s.noSigRoom l then .wait s.stallSummit
        else if (if s.speculative then s.specPoisoned s.curCluster s.curUid l 64 else s.poisonedAt l 64) then
          (if s.speculative && !s.holdsSummit then .wait s.abortCurrent else .trap { trap with kind := 0x10 } s)
        else
          let bs := if s.speculative then (s.cluster s.curCluster).overlay s.curUid l (s.bytesAt l 64) else s.bytesAt l 64
          let s := if s.speculative then s.sign l else s
          (State.readBlock s va info lines (k + 1)).bind fun rest s => .ok (bs ++ rest) s

/-- The k-th doubleword of a block of bytes. -/
def blockD (bs : List Byte) (off : Nat) : Word := word (leNat ((bs.drop off).take 8))

/-- The field of n bytes of a block. -/
def blockN (bs : List Byte) (off n : Nat) : Nat := leNat ((bs.drop off).take n)

end Sys2Proof.Machine
end

