-- ==== Sys2Proof/Machine/Operands.lean ====
section
/-! DEFINITION. The operand forms of the instructions, the results of the integer and lane operations on words, and the two
ways an instruction that neither jumps nor touches memory ends (03 R82 to R89; 05 R115 to R119; 06 R147 to R150). -/

namespace Sys2Proof.Machine

/-! ### Operands -/

/-- imm14 of an arithmetic, logical or compare immediate: sign-extended (03 R85). -/
def simm14 (i : BitVec 14) : Word := i.signExtend 64

/-- imm9 of the M format: sign-extended and scaled by the access size (03 R86). -/
def addrM (base : Word) (i : BitVec 9) (size : Nat) : Word := base + i.signExtend 64 * word size

/-- The indexed address of `MEMX`: g[a] + (g[b] << log2(size)) (03 R86, 05 R121). -/
def addrX (base index : Word) (size : Nat) : Word := base + index * word size

/-- A branch target: PC + sext(off, w) × 2 (05 R132, R133). -/
def target {w : Nat} (pc : Word) (off : BitVec w) : Word := pc + off.signExtend 64 * 2

/-- `lk` is g31 (03 R81). -/
def lk : Reg := 31

/-- `sp` is g30 (03 R81). -/
def sp : Reg := 30

/-! ### Ends of an instruction -/

/-- An instruction of `len` bytes that only writes g[d]. -/
def State.result (s : State) (d : Reg) (v : Word) (len : Nat := 4) : Out := .next ((s.setG d v).advance len)

/-- An instruction of `len` bytes that only writes g[d] and raises flags. -/
def State.resultF (s : State) (d : Reg) (v : Word) (f : FFlags) : Out :=
  .next (((s.setG d v).raiseFlags f).advance 4)

/-- An instruction that writes nothing. -/
def State.pass (s : State) (len : Nat := 4) : Out := .next (s.advance len)

/-- A command core runs no task: an instruction of a task is refused there (10 R259). DEDUCED (log 40). -/
def State.needTask (s : State) (mnemonic : String) (f : Task → Out) : Out :=
  match s.cur.task with
  | some k => f k
  | none => .refused (.noTask mnemonic)

/-! ### Integer results (05 R116, R117; 02 R44) -/

/-- The upper half of a signed product. -/
def mulHigh (a b : Word) : Word := wordI (a.toInt * b.toInt / 2 ^ 64)

/-- The upper half of an unsigned product. -/
def mulHighN (a b : Word) : Word := word (a.toNat * b.toNat / 2 ^ 64)

/-- Signed quotient: all ones for a divisor 0, MIN for MIN ÷ −1, else rounded toward zero (02 R44). -/
def quotS (a b : Word) : Word := if b = 0 then -1 else wordI (a.toInt.tdiv b.toInt)

/-- Unsigned quotient; all ones for a divisor 0 (02 R44). -/
def quotN (a b : Word) : Word := if b = 0 then -1 else word (a.toNat / b.toNat)

/-- Signed remainder, with the sign of the dividend; the dividend for a divisor 0 (02 R44). -/
def remS (a b : Word) : Word := if b = 0 then a else wordI (a.toInt.tmod b.toInt)

/-- Unsigned remainder; the dividend for a divisor 0 (02 R44). -/
def remN (a b : Word) : Word := if b = 0 then a else word (a.toNat % b.toNat)

/-- The shift amount of a 64-bit shift. -/
def sh6 (b : Word) : Nat := bits b 0 6

/-- The shift amount of a 32-bit shift. -/
def sh5 (b : Word) : Nat := bits b 0 5

/-- `sx32(v)`: the low 32 bits, sign-extended. -/
def sx32 (v : Word) : Word := (v.setWidth 32).signExtend 64

/-- The length of a bit field, 0 meaning 64 (05 R117). -/
def fieldLen (b : Word) : Nat := if bits b 8 6 = 0 then 64 else bits b 8 6

/-- `BFX` (05 R117). -/
def bitsExtract (a b : Word) : Word := word (a.toNat / 2 ^ bits b 0 6 % 2 ^ fieldLen b)

/-- `BFI` (05 R117). -/
def bitsInsert (d a b : Word) : Word :=
  let p := bits b 0 6
  let m := word ((2 ^ fieldLen b - 1) * 2 ^ p)
  (d &&& ~~~m) ||| ((a <<< p) &&& m)

/-! ### Lanes (06 R147 to R149) -/

/-- The lane width of a shape. -/
def laneWidth : PkShape → Nat
  | .b8 => 8
  | .h4 => 16
  | .w2 => 32

/-- The number of lanes of a shape. -/
def laneCount : PkShape → Nat
  | .b8 => 8
  | .h4 => 4
  | .w2 => 2

/-- Lane i of a word. -/
def lane (h : PkShape) (w : Word) (i : Nat) : Nat := bits w (i * laneWidth h) (laneWidth h)

/-- A word of lanes, lane i holding f i modulo 2^w. -/
def ofLanes (h : PkShape) (f : Nat → Nat) : Word :=
  word (((upFrom 0 (laneCount h)).map fun i => f i % 2 ^ laneWidth h * 2 ^ (i * laneWidth h)).foldl (· + ·) 0)

/-- A lane-by-lane operation on unsigned lanes. -/
def lanes2 (h : PkShape) (f : Nat → Nat → Nat) (a b : Word) : Word := ofLanes h fun i => f (lane h a i) (lane h b i)

/-- A lane-by-lane operation on signed lanes. -/
def lanesS (h : PkShape) (f : Int → Int → Int) (a b : Word) : Word :=
  ofLanes h fun i => unsignedN (f (signedN (lane h a i) (laneWidth h)) (signedN (lane h b i) (laneWidth h))) (laneWidth h)

/-- A sum clamped to the signed range of a lane. -/
def saturate (h : PkShape) (v : Int) : Int := clampI v (-2 ^ (laneWidth h - 1)) (2 ^ (laneWidth h - 1) - 1)

/-- `PSHUF` (06 R148). -/
def shuffle (h : PkShape) (a b : Word) : Word :=
  ofLanes h fun i =>
    let c := lane h b i
    if 2 ^ (laneWidth h - 1) ≤ c then 0 else lane h a (c % laneCount h)

/-- `PDOT` (06 R149). -/
def laneDot (h : PkShape) (d a b : Word) : Word :=
  wordI (d.toInt + ((upFrom 0 (laneCount h)).map fun i =>
    signedN (lane h a i) (laneWidth h) * signedN (lane h b i) (laneWidth h)).foldl (· + ·) 0)

/-! ### Philox4x32-10 and the uniforms (02 R69 to R71) -/

/-- One round of Philox on the counter words with the key words. -/
def philoxRound (c : Nat × Nat × Nat × Nat) (k0 k1 : Nat) : Nat × Nat × Nat × Nat :=
  let p0 := 0xD2511F53 * c.1
  let p1 := 0xCD9E8D57 * c.2.2.1
  (Nat.xor (Nat.xor (p1 / 2 ^ 32) c.2.1) k0, p1 % 2 ^ 32, Nat.xor (Nat.xor (p0 / 2 ^ 32) c.2.2.2) k1, p0 % 2 ^ 32)

/-- n rounds of Philox, the key bumped between rounds. -/
def philoxRounds : Nat → Nat × Nat × Nat × Nat → Nat → Nat → Nat × Nat × Nat × Nat
  | 0, c, _, _ => c
  | n + 1, c, k0, k1 =>
    philoxRounds n (philoxRound c k0 k1) ((k0 + 0x9E3779B9) % 2 ^ 32) ((k1 + 0xBB67AE85) % 2 ^ 32)

/-- The two result words of `RNGP`: output words 0 and 1, and 2 and 3 (02 R70). -/
def philox (a b key : Word) : Word × Word :=
  let c := philoxRounds 10 (bits a 0 32, bits a 32 32, bits b 0 32, bits b 32 32) (bits key 0 32) (bits key 32 32)
  (word (c.1 + c.2.1 * 2 ^ 32), word (c.2.2.1 + c.2.2.2 * 2 ^ 32))

end Sys2Proof.Machine
end

