-- ==== Sys2Proof/Machine/Park.lean ====
section
/-! DEFINITION. Parking the running task, checkpointing a task, and the thread that holds a task's tile queue
(01 R30 to R35; 09 R220, R242). -/

namespace Sys2Proof.Machine

/-- The ticks a task has run since its dispatch are added to those before it: parked time does not count (01 R33). -/
def Task.stopClock (k : Task) (now : Nat) : Task := { k with ranBefore := k.ranBefore + (now - k.dispatched) }

/-- The elapsed time of a running task in units of 1024 ticks (01 R33). -/
def Task.elapsed (k : Task) (now : Nat) : Nat := (k.ranBefore + (now - k.dispatched)) / 1024

/-- The running task's context moves to the context store and its thread context is free (01 R30); a memory core has no
context store, so a loader program waits in its context (log 15). -/
def State.parkRunning (s : State) (m : Resume) (len : Nat) : State :=
  if s.cur.id.kind ≠ .barrel then s.setWait (.held m len) else
  let th := { s.cur with wait := .ready, ckpt := false, mid := false, task := s.cur.task.map fun k => k.stopClock s.tick }
  (s.park s.curCluster { thread := th, resume := m, len := len, inArea := false }).freeContext s.cur.id

/-- The running task waits on a record: the record is entered, the word is marked and the task parks; without room it traps
wait capacity with cause 6, or the cause of its instruction, and records nothing (01 R30, 07 R168). DESIGN CHOICE (log 35).
DESIGN CHOICE (log 71). -/
def State.parkOn (s : State) (b : BivRec) (cause : Nat) (awaited : Word) (m : Resume) (mark : State → State) : Acc Unit :=
  if s.cur.id.kind = .barrel ∧ !s.canPark s.curCluster b.part b.ctx false then .trap (structTrap 0x0C awaited 6 0) s
  else match s.record b with
    | none => .trap (structTrap 0x0C awaited cause 0) s
    | some s => .ok () ((mark s).parkRunning m 4)

/-- A task's tile queue leaves it free to be checkpointed: it is empty, or holds only a `TCHAIN` that still waits for its
message (09 R242). -/
def Thread.queueAtRest (th : Thread) : Bool :=
  match th.tq with
  | [] => true
  | [.tchain _ _ true _ _] => true
  | _ => false

/-- A task can be checkpointed now: it stands between two instructions, or waits in `TALLOC`, `CALLOC` or `MSND`, with no
result pending (01 R33). -/
def Thread.canCheckpoint (th : Thread) : Bool :=
  th.queueAtRest && ((decide (th.wait = .ready) && !th.mid) || decide (th.wait = .alloc) || decide (th.wait = .inbox true))

/-- The threads of a cluster that wait for a fabric or an image issue again, and a stream's saved fabric may
return. DEDUCED (log 50). -/
def State.wakeImage (s : State) (cl : Nat) : State :=
  let wake (th : Thread) : Thread := match th.wait with
    | .image _ => if s.homeCluster th = cl then th.again else th
    | _ => th
  let s := if (s.cluster cl).paused.isEmpty then s else s.raise .unpause cl 0 0
  { s with cur := wake s.cur, others := s.others.map wake }

/-- A fabric as it is saved: an access that has not performed is issued afresh at its restore (14 R335). -/
def Fabric.saved (f : Fabric) : Fabric := { f with ages := f.ages.map fun (a : AgeAccess) => { a with waits := none, queued := false } }

/-- A fabric emptied; its rate limit and its place in the use order stay. -/
def Fabric.emptied (f : Fabric) : Fabric :=
  { Fabric.reset with limit := f.limit, admitted := f.admitted, window := f.window, lastUse := f.lastUse }

/-- The fabric of a cluster runs a stream of a task that has not stopped. -/
def State.streamsFor (s : State) (cl f uid : Nat) : Bool :=
  let g := s.fabric cl f
  !g.draining && (g.stream.bind fun x => s.req? x.req).any fun q => q.uid == uid && q.endKind.isNone

/-- The stream fabrics of a task that is checkpointed are saved whole, and their places are free (14 R335). -/
def State.pauseStreams (s : State) (cl uid : Nat) : State :=
  let mine := (upFrom 0 4).filter fun f => s.streamsFor cl f uid
  if mine.isEmpty then s
  else
    let s := s.each mine fun s f =>
      s.mapCluster cl fun c =>
        let g := c.fabrics.getD f Fabric.reset
        { c with paused := c.paused ++ [{ uid := uid, slot := f, fab := g.saved }], fabrics := c.fabrics.put f g.emptied }
    (s.mapPart s.curPart fun t => t.dropAges fun k f => k == cl && mine.contains f).wakeImage cl

/-- The running task is checkpointed: its context is saved and is ready again at once, with a stamp taken now (01 R33). What it
waits with in `TALLOC`, `CALLOC` or `MSND` is dropped, since that instruction is issued afresh. -/
def State.checkpointRunning (s : State) : State :=
  let cl := s.curCluster
  let uid := s.curUid
  let th := { s.cur with wait := .ready, ckpt := false, mid := false, task := s.cur.task.map fun k => k.stopClock s.tick }
  let waited := (s.cluster cl).allocs.any fun a => a.uid == uid
  let s := s.mapCluster cl fun c => { c.makeRoom with allocs := c.allocs.filter fun a => a.uid != uid }
  let s := if waited then s.raise .grant cl 0 0 else s
  let s := (s.mapPart s.curPart fun t => t.dropWaits uid).pauseStreams cl uid
  (s.enqueueSaved cl th false).freeContext s.cur.id

/-- Where a task stands with its registers: a thread context, the context store, or a ready queue; with its cluster. -/
def State.taskThread? (s : State) (uid : Nat) : Option (Nat × Thread) :=
  match s.threadOfTask uid with
  | some th => some (s.homeCluster th, th)
  | none =>
    s.clusters.findSome? fun e =>
      match e.2.store.find? (fun k => k.isTask uid) with
      | some k => some (e.1, k.thread)
      | none => e.2.readyQ.findSome? fun q => match q.job with
        | .saved th _ => (match th.task with
          | some k => if k.uid = uid then some (e.1, th) else none
          | none => none)
        | .fresh _ _ _ => none

/-- A saved context of a task changed. -/
def QEntry.mapSaved (q : QEntry) (uid : Nat) (f : Thread → Thread) : QEntry :=
  match q.job with
  | .saved th a => (match th.task with
    | some k => if k.uid = uid then { q with job := .saved (f th) a } else q
    | none => q)
  | .fresh _ _ _ => q

/-- The thread of a task changed, wherever it stands. -/
def State.mapTaskThread (s : State) (uid : Nat) (f : Thread → Thread) : State :=
  match s.threadOfTask uid with
  | some th => s.setThread (f th)
  | none =>
    { s with
      clusters := s.clusters.map fun (e : Nat × Cluster) =>
        (e.1, { e.2 with
          store := e.2.store.map fun k => if k.isTask uid then { k with thread := f k.thread } else k
          readyQ := e.2.readyQ.map fun q => q.mapSaved uid f }) }

/-- A thread that waits for its tile queue goes on: its instruction is issued again. -/
def State.queueMoved (s : State) (uid : Nat) : State :=
  s.mapTaskThread uid fun th => if th.wait = .queue then th.again else th

end Sys2Proof.Machine
end

