-- ==== Sys2Proof/Machine/Belay.lean ====
section
/-! DEFINITION. The belay: leave for the heavy operations of a die, and the two limits of its current (23 R424 to R426). -/

namespace Sys2Proof.Machine

/-- The current, in milliamperes, that each class of operation holds (23 R424). -/
def arrayMilli : Nat := 1600

/-- The current of a `STRM`. -/
def streamMilli : Nat := 500

/-- The current of a copy. -/
def copyMilli : Nat := 400

/-- The current of an image load. -/
def imageMilli : Nat := 200

/-- The granted current of a die. -/
def Die.current (d : Die) : Nat := (d.granted.map fun b => b.milli).foldl (· + ·) 0

/-- S = 408 A × `PCAP` / 2000, in milliamperes (23 R425). -/
def currentS (pcap : Nat) : Nat := 204 * pcap

/-- The stretch above S begins or ends with the granted current (23 R425). -/
def Die.noteCurrent (d : Die) (pcap now : Nat) : Die :=
  if currentS pcap < d.current then { d with aboveSince := some (d.aboveSince.getD now) }
  else { d with aboveSince := none, stretch := false }

/-- The longest stretch above S, in ticks (23 R425). -/
def stretchTicks : Nat := 66000

/-- The stretch above S has lasted 66,000 ticks (23 R425). -/
def Die.stretched (d : Die) (now : Nat) : Bool :=
  match d.aboveSince with
  | some t => decide (t + stretchTicks ≤ now)
  | none => false

/-- The granted current that a slowed partition may hold on a die: its share of the 1000 A (23 R425, R426).
DESIGN CHOICE (log 44). -/
def Part.currentShare (t : Part) : Nat := 1000000 * t.share / 256

/-- The limits allow a request: 1000 A, no stretch to be ended, and for a slowed partition its share, or nothing else of it
granted. DESIGN CHOICE (log 44). -/
def State.belayAllows (s : State) (d : Die) (b : Belay) : Bool :=
  let t := s.part b.part
  let own := ((d.granted.filter fun x => x.part == b.part).map fun x => x.milli).foldl (· + ·) 0
  decide (d.current + b.milli ≤ 1000000) && !d.stretch && !d.stretched s.tick &&
  (t.shed == 0 || own == 0 || decide (own + b.milli ≤ t.currentShare))

/-- The name under which the image load of a fabric asks for leave. -/
def imageBelay (cl f : Nat) : Nat := 2 ^ 48 + cl * 4 + f

/-- An operation asks its die's belay for leave. -/
def State.askBelay (s : State) (die : Nat) (b : Belay) : State :=
  (s.mapDie die fun d => { d with belayQ := d.belayQ ++ [b] }).raise .belay die 0 0

/-- An operation holds its grant. -/
def State.hasLeave (s : State) (die id : Nat) : Bool := (s.die die).granted.any fun b => b.id == id

/-- An operation is granted leave or waits for it already. -/
def State.askedLeave (s : State) (die id : Nat) : Bool :=
  s.hasLeave die id || (s.die die).belayQ.any fun b => b.id == id

/-- An operation ends: it gives its current back, or no longer asks for leave. -/
def State.giveBack (s : State) (die id : Nat) : State :=
  if s.askedLeave die id then
    (s.mapDie die fun d =>
      ({ d with granted := d.granted.filter fun b => b.id != id, belayQ := d.belayQ.filter fun b => b.id != id }).noteCurrent
        s.pf.pcap s.tick).raise .belay die 0 0
  else s

/-- What waited for leave goes on. -/
def State.leaveGranted (s : State) (b : Belay) : State :=
  if b.milli = imageMilli then s.raise .imageLoad ((b.id - 2 ^ 48) / 4) ((b.id - 2 ^ 48) % 4) 0
  else if b.milli = arrayMilli then s.raise .tileExec b.id 0 0
  else
    let s := s.mapReq b.id fun q => { q with belay := false }
    match s.req? b.id with
    | none => s
    | some q =>
      if q.kind = .strm then
        match s.streamFabric q.cl q.id with
        | some f =>
          let s := s.each (upFrom 0 4) fun s i => s.raise .streamEmit q.cl f i
          match (s.fabric q.cl f).image with
          | some i => s.each i.elems fun s e => s.raise .fire q.cl f e.1
          | none => s
        | none => s
      else s.raise .lineDeliver q.id 0 0

/-- The head of a die's queue is granted when the limits allow it; a request that does not fit holds every later one. -/
def State.grantBelay (s : State) (die : Nat) : State :=
  match (s.die die).belayQ with
  | [] => s
  | b :: rest =>
    if s.belayAllows (s.die die) b then
      let s := s.mapDie die fun d =>
        ({ d with belayQ := rest, granted := d.granted ++ [b] }).noteCurrent s.pf.pcap s.tick
      let s := if rest.isEmpty then s else s.raise .belay die 0 0
      s.leaveGranted b
    else s

/-- `BELAY_GRANT` (23 R425). -/
def execBelayGrant (die : Nat) (s : State) : Out := .next (s.grantBelay die)

/-- `BELAY_STRETCH_LIMIT`: after a stretch of 66,000 ticks nothing is granted until the current has fallen to S (23 R425). -/
def execBelayStretchLimit (die : Nat) (s : State) : Out :=
  .next (s.mapDie die fun d => if d.stretched s.tick then { d with stretch := true } else d)

end Sys2Proof.Machine
end

