-- ==== Sys2Proof/Machine/Cluster.lean ====
section
/-! DEFINITION. The cluster scheduler and the dispatchers: task entry, dispatch, pre-emption, aging, checkpoints, forwarding
and ranges (01 R24 to R39; 13 R314). -/

namespace Sys2Proof.Machine

/-! ### Thread contexts of a cluster (01 R28) -/

/-- A thread context is free. -/
def State.isFree (s : State) (t : Tid) : Bool :=
  match s.thread? t with
  | some th => decide (th.wait = .free)
  | none => true

/-- The occupied thread contexts of a cluster. -/
def State.running (s : State) (cl : Nat) : List Thread :=
  s.threads.filter fun th => decide (th.id.kind = .barrel) && th.id.unit == cl && decide (th.wait ≠ .free)

/-- The thread context a dispatched task takes: on the core that holds the fewest occupied contexts, a tie going to the lower
core, the free slot of lowest number. -/
def State.freeSlot (s : State) (cl : Nat) : Option Tid :=
  let occ := (s.running cl).map fun th => th.id.slot
  let load (k : Nat) : Nat := (occ.filter fun n => coreOf n == k).length
  let core := (upFrom 0 4).foldl (fun b k => if load k < load b then k else b) 0
  ((upFrom (32 * core) 32).find? fun n => !occ.contains n).map fun n => { kind := .barrel, unit := cl, slot := n }

/-! ### Task entry (01 R25, 22 R413) -/

/-- The registers at entry to an instance of a registered header in a thread context. -/
def State.entryRegs (s : State) (r : Registration) (i : Nat) (t : Tid) (tie : Bool) : Regs :=
  let p := s.part r.part
  let size := s.ctxField r.part r.ctx 0x20
  let top := s.ctxField r.part r.ctx 0x18 + word (128 * p.logicalCl t.unit + t.slot + 1) * size
  let g := (((Vector.replicate 32 (0 : Word)).set 28 r.va).set 1 r.hdr.arg).set 2 (if r.range then word i else 0)
  { Regs.reset with
    g := g.set 30 top
    pc := r.hdr.entry
    status := setBits (setBits 0 10 1 (if p.det then 1 else 0)) 9 1 (if tie && !p.det then 1 else 0)
    tvec := setBits (s.ctxField r.part r.ctx 0x10) 0 1 0 }

/-- The task of an instance of a registered header. -/
def Registration.task (r : Registration) (uid i prio now : Nat) : Task :=
  { uid := uid, part := r.part, ctx := r.ctx, hdr := r.va, reg := r.id, idx := i,
    cls := if r.hdr.ordered then .ordered else .free, key := r.key i, prio := prio, dispatched := now, ranBefore := 0,
    retired := 0, exitAt := none, sig := 0, irrevocable := false, accessed := false, finished := none, pubs := [], host := none,
    loader := none }

/-- A queue entry starts in a thread context: a fresh task from its header, or a saved context where it stopped. In
deterministic mode a re-run after an equal-key conflict traps tie conflict before its first instruction (13 R314). -/
def State.startEntry (s : State) (cl : Nat) (t : Tid) (e : QEntry) : State :=
  let s := s.mapCluster cl fun c => { c with readyQ := queueWithout c.readyQ e }
  match e.job with
  | .saved th _ =>
    -- the streams that were saved with the task's checkpoint may return (14 R335)
    let s := if (s.cluster cl).paused.isEmpty then s else s.raise .unpause cl 0 0
    -- the task keeps the priority that it has reached through aging (01 R29)
    s.setThread { th with id := t, wait := .ready, task := th.task.map fun k => { k with dispatched := s.tick, prio := e.prio } }
  | .fresh reg i tie =>
    match s.reg? reg with
    | none => s
    | some r =>
      let (uid, s) := s.newUid
      let th : Thread := { Thread.idle t with
        wait := .ready
        regs := s.entryRegs r i t tie.isSome
        task := some (r.task uid i e.prio s.tick) }
      let s := s.setThread th
      match tie with
      | some line =>
        if (s.part r.part).det then
          s.asThread t fun s => s.takeTrap (structTrap 0x13 line 1 (bits (r.key i) 0 16))
        else s
      | none => s

/-! ### Victims (01 R33, R35; 22 R414) -/

/-- `a` comes before `b` as a victim: lower priority, less elapsed time, lower thread-context number. -/
def victimBefore (now : Nat) (a b : Thread × Task) : Bool :=
  if a.2.prio ≠ b.2.prio then decide (a.2.prio < b.2.prio)
  else if a.2.elapsed now ≠ b.2.elapsed now then decide (a.2.elapsed now < b.2.elapsed now)
  else decide (a.1.id.slot < b.1.id.slot)

/-- The tasks of a cluster in victim order, without those dropped for fault service and without the summit holder. -/
def State.victims (s : State) (cl : Nat) : List (Thread × Task) :=
  let c := (s.running cl).filterMap fun th => th.task.map fun k => (th, k)
  sortBy (victimBefore s.tick) (c.filter fun e => !s.isHolder e.2 && (match e.1.wait with
    | .fault _ _ => false
    | _ => true))

/-- What is done with a victim. -/
inductive Victim where
  | drain | kill | abort | checkpoint | pass
  deriving DecidableEq, Repr

/-- A thread that waits in a `SERVE`. -/
def Thread.inServe (th : Thread) : Bool :=
  match th.wait with
  | .serve _ => true
  | .image _ => true
  | _ => false

/-- A limit of a pre-emption token is met; `0xFFFF_FFFF` passes every test (22 R414). -/
def underLimit (strict : Bool) (v limit : Nat) : Bool :=
  limit == 0xFFFFFFFF || (if strict then decide (v < limit) else decide (v ≤ limit))

/-- The first rule of 01 R33 that fits a victim, under the token of the newcomer's priority. -/
def State.victimRule (s : State) (token : Word) (e : Thread × Task) : Victim :=
  let hdr := (s.reg? e.2.reg).map fun r => r.hdr
  let est := (hdr.map Header.est).getD 0
  let restart := (hdr.map Header.restart).getD false
  let el := e.2.elapsed s.tick
  if underLimit false (est - el) (bits token 32 32) then .drain
  else if e.2.cls = .ordered then .abort
  else if restart && underLimit true el (bits token 0 32) then .kill
  else if e.1.inServe then .pass
  else .checkpoint

/-- A free task is killed: its context is discarded and its header re-enqueued as ready (01 R33). -/
def State.killTask (s : State) (k : Task) : State := (s.discardTask k.part k.uid).restartTask k none

/-- A thread context is chosen for a checkpoint (01 R33). -/
def State.chooseCheckpoint (s : State) (th : Thread) : State :=
  ((s.setThread { th with ckpt := true }).raiseFor .checkpoint th.id)

/-- The head of a ready queue finds no free context: a victim of lower priority is drained, killed or checkpointed, passing
over tasks in a `SERVE` that would be checkpointed (01 R33). While a checkpoint made for it is due, no other victim is taken for
it, and no victim is chosen again while its checkpoint is due or a drain binding of it is open. -/
def State.preempt (s : State) (cl : Nat) (h : QEntry) : State :=
  let c := s.cluster cl
  if h.sought && (s.running cl).any (fun th => th.ckpt) then s
  else
    let token := ((s.part h.part).pretok[h.prio]?).getD 0
    let open_ := (s.victims cl).filter fun e =>
      decide (e.2.prio < h.prio) && !e.1.ckpt && !c.readyQ.any fun q => decide (q.bound = some e.1.id)
    match open_.find? fun e => decide (s.victimRule token e ≠ .pass) with
    | none => s
    | some e =>
      match s.victimRule token e with
      | .drain => s.mapCluster cl fun c =>
          { c with readyQ := c.readyQ.map fun q => if q.seq = h.seq then { q with bound := some e.1.id } else q }
      | .kill => s.killTask e.2
      | .abort => s.abortTask e.2 none
      | .checkpoint =>
        if s.canPark cl e.2.part e.2.ctx false then
          (s.mapCluster cl fun c =>
            { c with readyQ := c.readyQ.map fun q => if q.seq = h.seq then { q with sought := true } else q }).chooseCheckpoint e.1
        else s
      | .pass => s

/-! ### Dispatch (01 R28, R35) -/

/-- The entry of a ready queue that is the summit holder. -/
def State.holderEntry (s : State) (cl : Nat) (q : List QEntry) : Option QEntry :=
  let _ := cl
  q.find? fun e =>
    match e.job, (s.ctxState e.part e.ctx).holder with
    | .fresh r i _, some h => decide (h = (r, i)) && e.ordered
    | .saved th _, some h => (match th.task with
      | some k => decide (h = (k.reg, k.idx))
      | none => false)
    | _, none => false

/-- The entries of a ready queue that may be dispatched: those of the context that is resident there. -/
def State.dispatchable (s : State) (cl : Nat) : List QEntry :=
  match s.partOfCluster cl with
  | none => []
  | some p =>
    let t := s.part p
    (s.cluster cl).readyQ.filter fun e => e.part == p && decide (t.residentAt (t.logicalCl cl) = some e.ctx)

/-- A cluster whose queue is empty asks its die's dispatcher for the next instance of a range. -/
def State.askRange (s : State) (cl : Nat) : State :=
  match s.partOfCluster cl with
  | none => s
  | some p => if (s.die (dieOfCluster cl)).shares.any (fun h => h.part == p) then s.raise .rangePlace p (dieOfCluster cl) 0 else s

/-- A cluster dispatches: the summit holder before all others, a newcomer bound to a context that is free, or the head of the queue;
with no free context the head looks for a victim (01 R28, R33, R35). -/
def State.dispatchAt (s : State) (cl : Nat) : State :=
  if (s.cluster cl).stopped then s
  else
    let q := s.dispatchable cl
    match (s.holderEntry cl q).bind fun e => (s.freeSlot cl).map fun t => (e, t) with
    | some (e, t) => (s.startEntry cl t { e with bound := none }).raise .dispatch cl 0 0
    | none =>
    let bound := q.findSome? fun e => e.bound.bind fun t => if s.isFree t then some (e, t) else none
    match bound with
    | some (e, t) => (s.startEntry cl t { e with bound := none }).raise .dispatch cl 0 0
    | none =>
      let loose := q.filter fun e => e.bound.isNone
      match queueHead loose with
      | none => s.askRange cl
      | some h =>
        match s.freeSlot cl with
        | some t => (s.startEntry cl t h).raise .dispatch cl 0 0
        | none => s.preempt cl h

/-- The cluster where the summit holder of a context is queued, with its entry. -/
def State.holderQueued (s : State) (p c : Nat) : Option (Nat × QEntry) :=
  s.clusters.findSome? fun e =>
    (s.holderEntry e.1 (e.2.readyQ.filter fun q => q.part == p && q.ctx == c)).map fun q => (e.1, q)

/-- The summit holder waits without a context: it is dispatched on its own cluster ahead of any head; if no context is free, a
victim makes room without the priority condition and without the drain choice (01 R35). Where a checkpoint makes that room, the
dispatch follows it; a cluster that dispatches nothing, or that holds another context, keeps the holder waiting. -/
def State.dispatchHolder (s : State) (p c : Nat) : State :=
  match s.holderQueued p c with
  | none => s
  | some (cl, e) =>
    let t := s.part p
    if (s.cluster cl).stopped ∨ t.residentAt (t.logicalCl cl) ≠ some c then s
    else match s.freeSlot cl with
    | some t => s.startEntry cl t { e with bound := none }
    | none =>
      if e.sought && (s.running cl).any (fun th => th.ckpt) then s
      else
        let restart (k : Task) : Bool := ((s.reg? k.reg).map fun r => r.hdr.restart).getD false
        let ok (v : Thread × Task) : Bool := decide (v.2.cls = .ordered) || restart v.2 || !v.1.inServe
        let drained (t : Tid) : Bool := (s.cluster cl).readyQ.any fun q => decide (q.bound = some t)
        match (s.victims cl).find? fun v => ok v && !v.1.ckpt && !drained v.1.id with
        | none => s
        | some v =>
          let s := s.raise .holderDispatch p c 0
          if v.2.cls = .ordered then s.abortTask v.2 none
          else if restart v.2 then s.killTask v.2
          else (s.mapCluster cl fun c =>
            { c with readyQ := c.readyQ.map fun q => if q.seq = e.seq then { q with sought := true } else q }).chooseCheckpoint v.1

/-! ### Checkpoints (01 R33) -/

/-- The running thread was chosen for a checkpoint and can be checkpointed: it is, if there is room for its context, with the place
reserved for the summit holder's sake (01 R30, R35); without room it is not taken and the newcomer stays queued. -/
def State.checkpointDue (s : State) : State :=
  if s.cur.ckpt && s.cur.canCheckpoint then
    let cl := s.curCluster
    let forHolder := (s.holderEntry cl (s.cluster cl).readyQ).isSome
    if s.canPark cl s.curPart s.curCtx forHolder then s.checkpointRunning
    else s.mapCur fun t => { t with ckpt := false }
  else s

/-! ### Ranges (01 R38, R39) -/

/-- The dies of a partition that hold nothing of a registration's range try to steal (01 R39). DEDUCED (log 38). -/
def State.offerShares (s : State) (p reg : Nat) : State :=
  s.each ((s.part p).dies.filter fun d => !(s.die d).shares.any fun h => h.part == p && h.reg == reg) fun s d => s.raise .rangeSteal p d 0

/-- The stolen shares that are on their way to a die arrive: their instances count there from now on, and a die that has nothing left
may steal of them (01 R39; 13 R321). DEDUCED (log 38). -/
def State.landShares (s : State) (p d : Nat) : State :=
  let coming := (s.die d).shares.filter fun h => h.part == p && h.src.isSome
  let s := s.mapDie d fun k => { k with shares := k.shares.map fun h => if h.part = p then { h with src := none } else h }
  s.each coming fun s h =>
    let s := if h.left < 2 then s else s.offerShares p h.reg
    match s.reg? h.reg with
    | some r => if r.hdr.ordered then s.noteKey p h.ctx d (r.key h.next) else s
    | none => s

/-- A die places the next instance of its share when a context of the partition is free on it and every ready queue of the
partition on it is empty; shares that it has stolen arrive first. DESIGN CHOICE (log 70). -/
def State.placeRange (s : State) (p d : Nat) : State :=
  let t := s.part p
  if (s.die d).shares.any fun h => h.part == p && h.src.isSome then (s.landShares p d).raise .rangePlace p d 0
  else
  let cls := t.clustersOnDie d
  let ready := !t.vacant && cls.any (fun cl => (s.freeSlot cl).isSome && !(s.cluster cl).stopped) &&
    cls.all fun cl => (s.cluster cl).readyQ.isEmpty
  if !ready then s
  else match (s.die d).shares.find? (fun h => h.part == p && h.ctx == t.resident) with
    | none => s
    | some h =>
      match s.reg? h.reg with
      | none => s.mapDie d fun k => { k with shares := k.shares.filter fun x => decide (x ≠ h) }
      | some r =>
        let rest : List Share := if h.left ≤ 1 then [] else [{ h with next := h.next + 1, left := h.left - 1 }]
        let s := s.mapDie d fun k => { k with shares := rest ++ k.shares.filter fun x => decide (x ≠ h) }
        let s := s.placeOn d (r.hdr.tilesOf h.next) (s.freshEntry r h.next none)
        s.raise (if rest.isEmpty then .rangeSteal else .rangePlace) p d 0

/-- The share of the most instances of a registration, the lower die on a tie. DESIGN CHOICE (log 70). -/
def bestShare (l : List (Nat × Share)) : Option (Nat × Share) :=
  l.foldl (fun b e => match b with
    | none => some e
    | some x => if x.2.left < e.2.left then some e else b) none

/-- A die with nothing left of a range steals the upper half of the largest share of it; one instance is not stolen. Of several ranges
of the partition it takes the largest share of a range of which it holds nothing, and it places from the first of its own.
DESIGN CHOICE (log 70). -/
def State.stealRange (s : State) (p d : Nat) : State :=
  let t := s.part p
  let all := t.dies.flatMap fun e => ((s.die e).shares.filter fun h => h.part == p).map fun h => (e, h)
  let all := all.filter fun e => e.1 == d || e.2.src.isNone
  let mine := all.filter fun e => e.1 == d
  let others := all.filter fun e => e.1 != d && !mine.any fun m => m.2.reg == e.2.reg
  match bestShare others with
  | none => s
  | some (e, h) =>
    let n := h.left / 2
    if n = 0 ∨ !t.dies.contains d then s
    else
      let taken : Share := { h with next := h.next + (h.left - n), left := n, src := some e }
      let s := s.mapDie e fun k =>
        { k with shares := k.shares.map fun x => if x = h then { h with left := h.left - n } else x }
      (s.mapDie d fun k => { k with shares := k.shares ++ [taken] }).raise .rangePlace p d 0

/-! ### The steps of the table -/

/-- `TASK_FORWARD_ARRIVE`: the receiving dispatcher enqueues the task without placing it again (01 R26).
DESIGN CHOICE (log 49). -/
def execTaskForwardArrive (die : Nat) (s : State) : Out :=
  match (s.die die).forwards with
  | [] => .next s
  | f :: rest => .next ((s.mapDie die fun d => { d with forwards := rest }).enqueue f.cl f.entry)

/-- `TASK_DISPATCH` (01 R28, R33). -/
def execTaskDispatch (cl : Nat) (s : State) : Out := .next (s.dispatchAt cl)

/-- `RANGE_INSTANCE_PLACE` (01 R39). -/
def execRangeInstancePlace (p die : Nat) (s : State) : Out := .next (s.placeRange p die)

/-- `RANGE_STEAL` (01 R39). -/
def execRangeSteal (p die : Nat) (s : State) : Out := .next (s.stealRange p die)

/-- An entry that has waited 2^20 ticks rises one level, up to 7, and keeps its stamp (01 R29). -/
def QEntry.age (e : QEntry) (now : Nat) : QEntry :=
  if e.agedAt ≤ now ∧ e.prio < 7 then { e with prio := e.prio + 1, agedAt := e.agedAt + agingTicks } else e

/-- `TASK_AGING` (01 R29). -/
def execTaskAging (cl : Nat) (s : State) : Out :=
  .next ((s.mapCluster cl fun c => { c with readyQ := c.readyQ.map fun e => e.age s.tick }).raise .dispatch cl 0 0)

/-- `CHECKPOINT_TAKE` (01 R33): a chosen victim is parked once its current instruction has retired. -/
def execCheckpointTake (t : Tid) (s : State) : Out := .next (s.asThread t State.checkpointDue)

/-- `SUMMIT_HOLDER_DISPATCH` (01 R35). -/
def execSummitHolderDispatch (p c : Nat) (s : State) : Out := .next (s.dispatchHolder p c)

end Sys2Proof.Machine
end

