-- ==== Sys2Proof/Machine/Control.lean ====
section
/-! DEFINITION. Jumps and branches (05 R132 to R135). -/

namespace Sys2Proof.Machine

/-- `J` (05 R133). -/
def execJ (o : BitVec 24) (s : State) : Out := .next (s.jump (target s.pc o))

/-- `JL`: `lk` ← PC + 4, then the jump (05 R133). -/
def execJl (o : BitVec 24) (s : State) : Out := .next ((s.setG lk (s.pc + 4)).jump (target s.pc o))

/-- A jump through a register: an odd target traps misaligned (05 R134). -/
def State.jumpReg (s : State) (t : Word) (link : Option Word) : Out :=
  if bit t 0 then .next (s.takeTrap { kind := 0x02, taddr := t, tinfo := 0 })
  else match link with
    | some l => .next ((s.setG lk l).jump t)
    | none => .next (s.jump t)

/-- `JR` (05 R134). -/
def execJr (a : Reg) (s : State) : Out := s.jumpReg (s.g a) none

/-- `JLR` (05 R134). -/
def execJlr (a : Reg) (s : State) : Out := s.jumpReg (s.g a) (some (s.pc + 4))

/-- A conditional branch of `len` bytes (05 R132). -/
def State.branch {w : Nat} (s : State) (taken : Bool) (off : BitVec w) (len : Nat := 4) : Out :=
  .next (if taken then s.jump (target s.pc off) else s.advance len)

/-- `BEQ` (05 R132). -/
def execBeq (a b : Reg) (o : BitVec 14) (s : State) : Out := s.branch (decide (s.g a = s.g b)) o

/-- `BNE` (05 R132). -/
def execBne (a b : Reg) (o : BitVec 14) (s : State) : Out := s.branch (decide (s.g a ≠ s.g b)) o

/-- `BLT` (05 R132). -/
def execBlt (a b : Reg) (o : BitVec 14) (s : State) : Out := s.branch (decide ((s.g a).toInt < (s.g b).toInt)) o

/-- `BGE` (05 R132). -/
def execBge (a b : Reg) (o : BitVec 14) (s : State) : Out := s.branch (decide ((s.g b).toInt ≤ (s.g a).toInt)) o

/-- `BLTN` (05 R132). -/
def execBltn (a b : Reg) (o : BitVec 14) (s : State) : Out := s.branch (decide ((s.g a).toNat < (s.g b).toNat)) o

/-- `BGEN` (05 R132). -/
def execBgen (a b : Reg) (o : BitVec 14) (s : State) : Out := s.branch (decide ((s.g b).toNat ≤ (s.g a).toNat)) o

end Sys2Proof.Machine
end

