-- ==== Sys2Proof/WellFormed.lean ====
section
/-! DEFINITION. Well-formed instructions: the operand rules that no operand type says already. -/

namespace Sys2Proof

/-- The system registers that exist (10 R254). -/
def sysregAssigned (n : BitVec 10) : Bool :=
  n.toNat ≤ 7 || (0x10 ≤ n.toNat && n.toNat ≤ 0x12) || n == 0x20 || n == 0x30 || n == 0x40

/-- The conversions that are exact widenings and carry mode 0: destination, source (04 R108). -/
def exactWidening (t s : FpFmt) : Bool :=
  match t, s with
  | .f64, .f32 => true
  | .f32, .f16 => true
  | .f64, .f16 => true
  | .f32, .bf16 => true
  | .f64, .bf16 => true
  | _, _ => false

/-- The register ranges of a `SERVE` stay inside g0 to g31; the fields hold the counts minus one (03 R87). -/
def serveRanges (d a : Reg) (n r : BitVec 3) : Bool := a.toNat + n.toNat + 1 ≤ 32 && d.toNat + r.toNat + 1 ≤ 32

/-- The thread contexts that exist (01 R16, R18; 21 R393). -/
def Tid.wf (t : Tid) : Bool :=
  match t.kind with
  | .barrel => t.unit < 512 && t.slot < 128
  | .memory => t.unit < 512 && t.slot < 4
  | .command => t.unit < 12 && t.slot == 0

/-- The links that exist: three boundaries between dies, sixteen Shuig ports, the CXL link and four meshes (01 R14). -/
def FlitLink.wf : FlitLink → Bool
  | .bridge b => b < 3
  | .shuig p => p < 16
  | .cxl => true
  | .mesh d => d < 4

/-- The register spaces that exist: the PF's and those of 64 partitions (22 R396). -/
def RegSpace.wf : RegSpace → Bool
  | .pf => true
  | .vf p => p < 64

/-- An instruction or step that the spec admits. -/
def Instr.wf : Instr → Bool
  | .add _ _ _ => true
  | .sub _ _ _ => true
  | .mul _ _ _ => true
  | .mulh _ _ _ => true
  | .mulhn _ _ _ => true
  | .div _ _ _ => true
  | .divn _ _ _ => true
  | .rem _ _ _ => true
  | .remn _ _ _ => true
  | .and _ _ _ => true
  | .or _ _ _ => true
  | .xor _ _ _ => true
  | .andn _ _ _ => true
  | .orn _ _ _ => true
  | .shl _ _ _ => true
  | .shr _ _ _ => true
  | .sra _ _ _ => true
  | .rol _ _ _ => true
  | .ror _ _ _ => true
  | .min _ _ _ => true
  | .max _ _ _ => true
  | .minn _ _ _ => true
  | .maxn _ _ _ => true
  | .slt _ _ _ => true
  | .sltn _ _ _ => true
  | .seq _ _ _ => true
  | .sne _ _ _ => true
  | .clz _ _ => true
  | .ctz _ _ => true
  | .popc _ _ => true
  | .brev _ _ => true
  | .bswap _ _ => true
  | .sext _ _ _ => true
  | .zext _ _ _ => true
  | .bfx _ _ _ => true
  | .bfi _ _ _ => true
  | .cmovz _ _ _ => true
  | .cmovnz _ _ _ => true
  | .addw _ _ _ => true
  | .subw _ _ _ => true
  | .mulw _ _ _ => true
  | .shlw _ _ _ => true
  | .shrw _ _ _ => true
  | .sraw _ _ _ => true
  | .addi _ _ _ => true
  | .addwi _ _ _ => true
  | .andi _ _ _ => true
  | .ori _ _ _ => true
  | .xori _ _ _ => true
  | .shli _ _ _ => true
  | .shri _ _ _ => true
  | .srai _ _ _ => true
  | .slti _ _ _ => true
  | .sltni _ _ _ => true
  | .li _ _ => true
  | .lix _ _ => true
  | .xmov _ _ => true
  | .movgx _ _ => true
  | .xclr _ => true
  | .ldb _ _ _ _ => true
  | .ldbz _ _ _ _ => true
  | .ldh _ _ _ _ => true
  | .ldhz _ _ _ _ => true
  | .ldw _ _ _ _ => true
  | .ldwz _ _ _ _ => true
  | .ldd _ _ _ _ => true
  | .stb _ _ _ _ => true
  | .sth _ _ _ _ => true
  | .stw _ _ _ _ => true
  | .std _ _ _ _ => true
  | .ldx _ _ _ _ _ => true
  | .stx _ _ _ _ _ => true
  | .aadd _ _ _ _ _ _ => true
  | .aand _ _ _ _ _ _ => true
  | .aor _ _ _ _ _ _ => true
  | .axor _ _ _ _ _ _ => true
  | .amin _ _ _ _ _ _ => true
  | .amax _ _ _ _ _ _ => true
  | .aminn _ _ _ _ _ _ => true
  | .amaxn _ _ _ _ _ _ => true
  | .aswap _ _ _ _ _ _ => true
  | .cas _ _ _ _ _ _ => true
  | .fence o _ => o != .rlx
  | .fencei => true
  | .j _ => true
  | .jl _ => true
  | .jr _ => true
  | .jlr _ => true
  | .beq _ _ _ => true
  | .bne _ _ _ => true
  | .blt _ _ _ => true
  | .bge _ _ _ => true
  | .bltn _ _ _ => true
  | .bgen _ _ _ => true
  | .fadd _ _ _ _ _ => true
  | .fsub _ _ _ _ _ => true
  | .fmul _ _ _ _ _ => true
  | .fdiv _ _ _ _ _ => true
  | .fsqrt _ _ _ _ => true
  | .fmad _ _ _ _ _ => true
  | .fnmad _ _ _ _ _ => true
  | .fmin _ _ _ _ => true
  | .fmax _ _ _ _ => true
  | .fneg _ _ _ => true
  | .fabs _ _ _ => true
  | .fcpys _ _ _ _ => true
  | .feq _ _ _ _ => true
  | .flt _ _ _ _ => true
  | .fle _ _ _ _ => true
  | .fclass _ _ _ => true
  | .frnd _ _ _ _ => true
  | .fcvt _ _ t s m => t != s && (!exactWidening t s || m == .rne)
  | .ftoi _ _ _ _ => true
  | .fton _ _ _ _ => true
  | .itof _ _ _ _ => true
  | .ntof _ _ _ _ => true
  | .b8tof _ _ _ => true
  | .ftob8 _ _ _ => true
  | .padd _ _ _ _ => true
  | .psub _ _ _ _ => true
  | .pmul _ _ _ _ => true
  | .padds _ _ _ _ => true
  | .psubs _ _ _ _ => true
  | .pmin _ _ _ _ => true
  | .pmax _ _ _ _ => true
  | .pminn _ _ _ _ => true
  | .pmaxn _ _ _ _ => true
  | .pceq _ _ _ _ => true
  | .pcgt _ _ _ _ => true
  | .pshuf _ _ _ _ => true
  | .pdot _ _ _ _ => true
  | .rngp _ _ _ => true
  | .rngf64 _ _ => true
  | .rngf32 _ _ => true
  | .rpinit _ _ => true
  | .rparr _ _ _ => true
  | .rpexp _ _ => true
  | .rpwait _ _ _ => true
  | .rptest _ _ => true
  | .dcdec _ => true
  | .fres _ _ => true
  | .fpois _ _ => true
  | .fwait _ _ _ => true
  | .flink _ _ => true
  | .ftest _ _ => true
  | .spawn _ => true
  | .spawnr _ _ _ => true
  | .exit => true
  | .yield => true
  | .tkey _ _ _ => true
  | .rsset _ _ _ => true
  | .rsclr _ _ => true
  | .rsqry _ _ => true
  | .waitwp _ _ _ => true
  | .msnd _ _ => true
  | .mrcv _ _ => true
  | .clid _ => true
  | .serve d a n r _ => serveRanges d a n r
  | .strm _ _ => true
  | .strmr _ => true
  | .copy _ => true
  | .copyp _ => true
  | .gather _ => true
  | .umbra _ _ _ => true
  | .publish _ _ => true
  | .rcopy _ => true
  | .talloc _ _ => true
  | .tfree _ => true
  | .tshape _ _ => true
  | .tshget _ _ => true
  | .tld _ _ _ => true
  | .tst _ _ _ => true
  | .tzero _ => true
  | .tmma _ _ _ => true
  | .tadd _ _ _ => true
  | .tmul _ _ _ => true
  | .tmax _ _ _ => true
  | .trsum _ _ => true
  | .trmax _ _ => true
  | .texp2 _ _ => true
  | .tscan _ _ _ => true
  | .tcvt _ _ _ => true
  | .tgete _ _ _ => true
  | .tsete _ _ _ => true
  | .tchain _ _ => true
  | .tsync => true
  | .cfmt _ _ => true
  | .cstep _ _ _ => true
  | .cmerge _ => true
  | .cdrain _ _ _ => true
  | .cclr _ => true
  | .cdepth _ _ => true
  | .calloc _ _ => true
  | .cfree _ => true
  | .trap _ => true
  | .sysc _ _ _ => true
  | .eret => true
  | .mfs _ n => sysregAssigned n
  | .mts _ n => sysregAssigned n
  | .cyc _ => true
  | .perf _ _ => true
  | .cinv _ _ => true
  | .tlbinv _ _ => true
  | .brk => true
  | .nop => true
  | .wake _ _ _ => true
  | .halt => true
  | .udf _ => true
  | .mov16 _ _ => true
  | .add16 _ _ => true
  | .sub16 _ _ => true
  | .and16 _ _ => true
  | .or16 _ _ => true
  | .xor16 _ _ => true
  | .shl16 _ _ => true
  | .shr16 _ _ => true
  | .sra16 _ _ => true
  | .ldd16 _ _ => true
  | .std16 _ _ => true
  | .ldw16 _ _ => true
  | .stw16 _ _ => true
  | .jr16 _ => true
  | .jlr16 _ => true
  | .nop16 => true
  | .ret16 => true
  | .exit16 => true
  | .yield16 => true
  | .addi16 _ _ => true
  | .li16 _ _ => true
  | .shli16 _ _ => true
  | .shri16 _ _ => true
  | .ldsp _ _ => true
  | .stsp _ _ => true
  | .beqz _ _ => true
  | .bnez _ _ => true
  | .j16 _ => true
  | .jl16 _ => true
  | .trap16 _ => true
  | .illegalEncoding cause _ => 1 ≤ cause.toNat && cause.toNat ≤ 5
  | .instructionFetchFault => true
  | .taskForwardArrive die => die < 4
  | .taskDispatch cl => cl < 512
  | .rangeInstancePlace p die => p < 64 && die < 4
  | .rangeSteal p die => p < 64 && die < 4
  | .taskAging cl => cl < 512
  | .checkpointTake t => t.wf
  | .summitHolderDispatch p c => p < 64 && c < 8
  | .summitReport die p c => die < 4 && p < 64 && c < 8
  | .commit p c => p < 64 && c < 8
  | .irrevocableCommit p c => p < 64 && c < 8
  | .tileRequestGrant cl => cl < 512
  | .tileQueueExecute _ => true
  | .tchainMessageArrive cl => cl < 512
  | .directoryUpdate die => die < 4
  | .memoryAccessRetire t => t.wf
  | .rdcInvalidate die => die < 4
  | .walkComplete _ => true
  | .engineLineDeliver _ => true
  | .engineComplete _ => true
  | .publishFlip p _ => p < 64
  | .imageFetchDone cl f => cl < 512 && f < 4
  | .imageLoadDone cl f => cl < 512 && f < 4
  | .packetEntry cl f => cl < 512 && f < 4
  | .elementFire cl f e => cl < 512 && f < 4 && e < 88
  | .ageAccessComplete cl f e => cl < 512 && f < 4 && e < 88
  | .delayEmit cl f e => cl < 512 && f < 4 && e < 88
  | .streamEngineEmit cl f e => cl < 512 && f < 4 && e < 88
  | .serveResultsReturn cl f => cl < 512 && f < 4
  | .streamComplete cl f => cl < 512 && f < 4
  | .streamFatalStop cl f => cl < 512 && f < 4
  | .fabricRelease cl f => cl < 512 && f < 4
  | .rateWindow => true
  | .belayGrant die => die < 4
  | .belayStretchLimit die => die < 4
  | .tailDoorbell p q _ => p < 64 && q < 16
  | .svcheadWrite p _ => p < 64
  | .eventHandoff core => core < 12
  | .pad p q => p < 64 && q < 16
  | .nopPacket p q => p < 64 && q < 16
  | .launch p q => p < 64 && q < 16
  | .signalResolve p q => p < 64 && q < 16
  | .signalRopeBytes p q => p < 64 && q < 16
  | .signalBadKind p q => p < 64 && q < 16
  | .waitf p q => p < 64 && q < 16
  | .waitfResolved p q => p < 64 && q < 16
  | .reply p q => p < 64 && q < 16
  | .queueSwitchOut p q => p < 64 && q < 16
  | .queueSwitchIn p q => p < 64 && q < 16
  | .watchdogExpire core => core < 12
  | .watchdogRecovery core => core < 12
  | .hostCxlMemAccess _ pa size _ => 0 < size && size ≤ 64 && pa % 64 + size ≤ 64
  | .atsPageResponse t kind => t.wf && kind != 3
  | .rcopyRemoteArrival p _ data _ _ _ _ => p < 64 && data.bytes.length ≤ 64 && data.poison.length ≤ 8
  | .pdescWrite p _ => p < 64
  | .pshareWrite p _ => p < 64
  | .umbpoolWrite p _ => p < 64
  | .sdctlShootdown p _ => p < 64
  | .shootdownReceive p cl => p < 64 && cl < 512
  | .s2Install p _ => p < 64
  | .s2Free p _ => p < 64
  | .s2Protect p _ => p < 64
  | .s2cmdUnassigned p _ => p < 64
  | .frameScrubDone p => p < 64
  | .protectWritebackDone p => p < 64
  | .s2wakeWrite p _ => p < 64
  | .ctxcmdSliceEnd p _ => p < 64
  | .terminatorTokenArrive p l => p < 64 && l < 512
  | .ctxcmdStop p _ => p < 64
  | .ctxcmdFabricDrain p _ => p < 64
  | .ctxcmdDirtyReport p _ => p < 64
  | .ctxcmdIgnored p _ => p < 64
  | .fabricHangReport cl f => cl < 512 && f < 4
  | .functionLevelReset p => p < 64
  | .pcapWrite _ => true
  | .watchSample => true
  | .patrolScrub _ _ => true
  | .datapathErrorLate cl => cl < 512
  | .deviceResetBoot _ => true
  | .registerWrite sp _ _ => sp.wf
  | .queueRearm p q => p < 64 && q < 16
  | .cxlLinkTraining _ _ => true
  | .flitCrcReplay link => link.wf
  | .spdmRequest _ => true
  | .recoveryImageWrite _ => true
  | .vfResetComplete p => p < 64

/-- The rows of the table that have an encoding; the others are steps of the device and its host. -/
def Instr.encodable : Instr → Bool
  | .add _ _ _ => true
  | .sub _ _ _ => true
  | .mul _ _ _ => true
  | .mulh _ _ _ => true
  | .mulhn _ _ _ => true
  | .div _ _ _ => true
  | .divn _ _ _ => true
  | .rem _ _ _ => true
  | .remn _ _ _ => true
  | .and _ _ _ => true
  | .or _ _ _ => true
  | .xor _ _ _ => true
  | .andn _ _ _ => true
  | .orn _ _ _ => true
  | .shl _ _ _ => true
  | .shr _ _ _ => true
  | .sra _ _ _ => true
  | .rol _ _ _ => true
  | .ror _ _ _ => true
  | .min _ _ _ => true
  | .max _ _ _ => true
  | .minn _ _ _ => true
  | .maxn _ _ _ => true
  | .slt _ _ _ => true
  | .sltn _ _ _ => true
  | .seq _ _ _ => true
  | .sne _ _ _ => true
  | .clz _ _ => true
  | .ctz _ _ => true
  | .popc _ _ => true
  | .brev _ _ => true
  | .bswap _ _ => true
  | .sext _ _ _ => true
  | .zext _ _ _ => true
  | .bfx _ _ _ => true
  | .bfi _ _ _ => true
  | .cmovz _ _ _ => true
  | .cmovnz _ _ _ => true
  | .addw _ _ _ => true
  | .subw _ _ _ => true
  | .mulw _ _ _ => true
  | .shlw _ _ _ => true
  | .shrw _ _ _ => true
  | .sraw _ _ _ => true
  | .addi _ _ _ => true
  | .addwi _ _ _ => true
  | .andi _ _ _ => true
  | .ori _ _ _ => true
  | .xori _ _ _ => true
  | .shli _ _ _ => true
  | .shri _ _ _ => true
  | .srai _ _ _ => true
  | .slti _ _ _ => true
  | .sltni _ _ _ => true
  | .li _ _ => true
  | .lix _ _ => true
  | .xmov _ _ => true
  | .movgx _ _ => true
  | .xclr _ => true
  | .ldb _ _ _ _ => true
  | .ldbz _ _ _ _ => true
  | .ldh _ _ _ _ => true
  | .ldhz _ _ _ _ => true
  | .ldw _ _ _ _ => true
  | .ldwz _ _ _ _ => true
  | .ldd _ _ _ _ => true
  | .stb _ _ _ _ => true
  | .sth _ _ _ _ => true
  | .stw _ _ _ _ => true
  | .std _ _ _ _ => true
  | .ldx _ _ _ _ _ => true
  | .stx _ _ _ _ _ => true
  | .aadd _ _ _ _ _ _ => true
  | .aand _ _ _ _ _ _ => true
  | .aor _ _ _ _ _ _ => true
  | .axor _ _ _ _ _ _ => true
  | .amin _ _ _ _ _ _ => true
  | .amax _ _ _ _ _ _ => true
  | .aminn _ _ _ _ _ _ => true
  | .amaxn _ _ _ _ _ _ => true
  | .aswap _ _ _ _ _ _ => true
  | .cas _ _ _ _ _ _ => true
  | .fence _ _ => true
  | .fencei => true
  | .j _ => true
  | .jl _ => true
  | .jr _ => true
  | .jlr _ => true
  | .beq _ _ _ => true
  | .bne _ _ _ => true
  | .blt _ _ _ => true
  | .bge _ _ _ => true
  | .bltn _ _ _ => true
  | .bgen _ _ _ => true
  | .fadd _ _ _ _ _ => true
  | .fsub _ _ _ _ _ => true
  | .fmul _ _ _ _ _ => true
  | .fdiv _ _ _ _ _ => true
  | .fsqrt _ _ _ _ => true
  | .fmad _ _ _ _ _ => true
  | .fnmad _ _ _ _ _ => true
  | .fmin _ _ _ _ => true
  | .fmax _ _ _ _ => true
  | .fneg _ _ _ => true
  | .fabs _ _ _ => true
  | .fcpys _ _ _ _ => true
  | .feq _ _ _ _ => true
  | .flt _ _ _ _ => true
  | .fle _ _ _ _ => true
  | .fclass _ _ _ => true
  | .frnd _ _ _ _ => true
  | .fcvt _ _ _ _ _ => true
  | .ftoi _ _ _ _ => true
  | .fton _ _ _ _ => true
  | .itof _ _ _ _ => true
  | .ntof _ _ _ _ => true
  | .b8tof _ _ _ => true
  | .ftob8 _ _ _ => true
  | .padd _ _ _ _ => true
  | .psub _ _ _ _ => true
  | .pmul _ _ _ _ => true
  | .padds _ _ _ _ => true
  | .psubs _ _ _ _ => true
  | .pmin _ _ _ _ => true
  | .pmax _ _ _ _ => true
  | .pminn _ _ _ _ => true
  | .pmaxn _ _ _ _ => true
  | .pceq _ _ _ _ => true
  | .pcgt _ _ _ _ => true
  | .pshuf _ _ _ _ => true
  | .pdot _ _ _ _ => true
  | .rngp _ _ _ => true
  | .rngf64 _ _ => true
  | .rngf32 _ _ => true
  | .rpinit _ _ => true
  | .rparr _ _ _ => true
  | .rpexp _ _ => true
  | .rpwait _ _ _ => true
  | .rptest _ _ => true
  | .dcdec _ => true
  | .fres _ _ => true
  | .fpois _ _ => true
  | .fwait _ _ _ => true
  | .flink _ _ => true
  | .ftest _ _ => true
  | .spawn _ => true
  | .spawnr _ _ _ => true
  | .exit => true
  | .yield => true
  | .tkey _ _ _ => true
  | .rsset _ _ _ => true
  | .rsclr _ _ => true
  | .rsqry _ _ => true
  | .waitwp _ _ _ => true
  | .msnd _ _ => true
  | .mrcv _ _ => true
  | .clid _ => true
  | .serve _ _ _ _ _ => true
  | .strm _ _ => true
  | .strmr _ => true
  | .copy _ => true
  | .copyp _ => true
  | .gather _ => true
  | .umbra _ _ _ => true
  | .publish _ _ => true
  | .rcopy _ => true
  | .talloc _ _ => true
  | .tfree _ => true
  | .tshape _ _ => true
  | .tshget _ _ => true
  | .tld _ _ _ => true
  | .tst _ _ _ => true
  | .tzero _ => true
  | .tmma _ _ _ => true
  | .tadd _ _ _ => true
  | .tmul _ _ _ => true
  | .tmax _ _ _ => true
  | .trsum _ _ => true
  | .trmax _ _ => true
  | .texp2 _ _ => true
  | .tscan _ _ _ => true
  | .tcvt _ _ _ => true
  | .tgete _ _ _ => true
  | .tsete _ _ _ => true
  | .tchain _ _ => true
  | .tsync => true
  | .cfmt _ _ => true
  | .cstep _ _ _ => true
  | .cmerge _ => true
  | .cdrain _ _ _ => true
  | .cclr _ => true
  | .cdepth _ _ => true
  | .calloc _ _ => true
  | .cfree _ => true
  | .trap _ => true
  | .sysc _ _ _ => true
  | .eret => true
  | .mfs _ _ => true
  | .mts _ _ => true
  | .cyc _ => true
  | .perf _ _ => true
  | .cinv _ _ => true
  | .tlbinv _ _ => true
  | .brk => true
  | .nop => true
  | .wake _ _ _ => true
  | .halt => true
  | .udf _ => true
  | .mov16 _ _ => true
  | .add16 _ _ => true
  | .sub16 _ _ => true
  | .and16 _ _ => true
  | .or16 _ _ => true
  | .xor16 _ _ => true
  | .shl16 _ _ => true
  | .shr16 _ _ => true
  | .sra16 _ _ => true
  | .ldd16 _ _ => true
  | .std16 _ _ => true
  | .ldw16 _ _ => true
  | .stw16 _ _ => true
  | .jr16 _ => true
  | .jlr16 _ => true
  | .nop16 => true
  | .ret16 => true
  | .exit16 => true
  | .yield16 => true
  | .addi16 _ _ => true
  | .li16 _ _ => true
  | .shli16 _ _ => true
  | .shri16 _ _ => true
  | .ldsp _ _ => true
  | .stsp _ _ => true
  | .beqz _ _ => true
  | .bnez _ _ => true
  | .j16 _ => true
  | .jl16 _ => true
  | .trap16 _ => true
  | .illegalEncoding _ _ => false
  | .instructionFetchFault => false
  | .taskForwardArrive _ => false
  | .taskDispatch _ => false
  | .rangeInstancePlace _ _ => false
  | .rangeSteal _ _ => false
  | .taskAging _ => false
  | .checkpointTake _ => false
  | .summitHolderDispatch _ _ => false
  | .summitReport _ _ _ => false
  | .commit _ _ => false
  | .irrevocableCommit _ _ => false
  | .tileRequestGrant _ => false
  | .tileQueueExecute _ => false
  | .tchainMessageArrive _ => false
  | .directoryUpdate _ => false
  | .memoryAccessRetire _ => false
  | .rdcInvalidate _ => false
  | .walkComplete _ => false
  | .engineLineDeliver _ => false
  | .engineComplete _ => false
  | .publishFlip _ _ => false
  | .imageFetchDone _ _ => false
  | .imageLoadDone _ _ => false
  | .packetEntry _ _ => false
  | .elementFire _ _ _ => false
  | .ageAccessComplete _ _ _ => false
  | .delayEmit _ _ _ => false
  | .streamEngineEmit _ _ _ => false
  | .serveResultsReturn _ _ => false
  | .streamComplete _ _ => false
  | .streamFatalStop _ _ => false
  | .fabricRelease _ _ => false
  | .rateWindow => false
  | .belayGrant _ => false
  | .belayStretchLimit _ => false
  | .tailDoorbell _ _ _ => false
  | .svcheadWrite _ _ => false
  | .eventHandoff _ => false
  | .pad _ _ => false
  | .nopPacket _ _ => false
  | .launch _ _ => false
  | .signalResolve _ _ => false
  | .signalRopeBytes _ _ => false
  | .signalBadKind _ _ => false
  | .waitf _ _ => false
  | .waitfResolved _ _ => false
  | .reply _ _ => false
  | .queueSwitchOut _ _ => false
  | .queueSwitchIn _ _ => false
  | .watchdogExpire _ => false
  | .watchdogRecovery _ => false
  | .hostCxlMemAccess _ _ _ _ => false
  | .atsPageResponse _ _ => false
  | .rcopyRemoteArrival _ _ _ _ _ _ _ => false
  | .pdescWrite _ _ => false
  | .pshareWrite _ _ => false
  | .umbpoolWrite _ _ => false
  | .sdctlShootdown _ _ => false
  | .shootdownReceive _ _ => false
  | .s2Install _ _ => false
  | .s2Free _ _ => false
  | .s2Protect _ _ => false
  | .s2cmdUnassigned _ _ => false
  | .frameScrubDone _ => false
  | .protectWritebackDone _ => false
  | .s2wakeWrite _ _ => false
  | .ctxcmdSliceEnd _ _ => false
  | .terminatorTokenArrive _ _ => false
  | .ctxcmdStop _ _ => false
  | .ctxcmdFabricDrain _ _ => false
  | .ctxcmdDirtyReport _ _ => false
  | .ctxcmdIgnored _ _ => false
  | .fabricHangReport _ _ => false
  | .functionLevelReset _ => false
  | .pcapWrite _ => false
  | .watchSample => false
  | .patrolScrub _ _ => false
  | .datapathErrorLate _ => false
  | .deviceResetBoot _ => false
  | .registerWrite _ _ _ => false
  | .queueRearm _ _ => false
  | .cxlLinkTraining _ _ => false
  | .flitCrcReplay _ => false
  | .spdmRequest _ => false
  | .recoveryImageWrite _ => false
  | .vfResetComplete _ => false

end Sys2Proof
end

