-- ==== Sys2Proof/Decode.lean ====
section
/-! DEFINITION. The decoder, total on any bytes, and the encoder, both from the tables of 03 and 04. -/

namespace Sys2Proof

open Sys2Proof.Machine

/-- The bits [lo+n-1 : lo] of a 32-bit word. -/
abbrev fieldOf (w : BitVec 32) (lo n : Nat) : BitVec n := w.extractLsb' lo n

/-- The order field of a load or store (03 R86). -/
def memOrderOf (v : BitVec 2) : MemOrder :=
  match v with
  | 0 => .plain
  | 1 => .acqRel
  | 2 => .direct
  | 3 => .stream

/-- The bits of an order field. -/
def memOrderBits : MemOrder → BitVec 2
  | .plain => 0
  | .acqRel => 1
  | .direct => 2
  | .stream => 3

/-- The kind field of a load; kind 7 is unassigned (04 R109). -/
def ldKindOf (v : BitVec 3) : Option LdKind :=
  match v with
  | 0 => some .b
  | 1 => some .bz
  | 2 => some .h
  | 3 => some .hz
  | 4 => some .w
  | 5 => some .wz
  | 6 => some .d
  | 7 => none

/-- The bits of a load's kind. -/
def ldKindBits : LdKind → BitVec 3
  | .b => 0
  | .bz => 1
  | .h => 2
  | .hz => 3
  | .w => 4
  | .wz => 5
  | .d => 6

/-- The kind field of a store; the odd kinds are unassigned (04 R109). -/
def stKindOf (v : BitVec 3) : Option StKind :=
  match v with
  | 0 => some .b
  | 2 => some .h
  | 4 => some .w
  | 6 => some .d
  | _ => none

/-- The bits of a store's kind. -/
def stKindBits : StKind → BitVec 3
  | .b => 0
  | .h => 2
  | .w => 4
  | .d => 6

/-- The size bit of an atomic (04 R107). -/
def atomSizeOf (v : BitVec 1) : AtomSize :=
  match v with
  | 0 => .w
  | 1 => .d

/-- The bit of an atomic's size. -/
def atomSizeBits : AtomSize → BitVec 1
  | .w => 0
  | .d => 1

/-- The order field of an atomic or fence (04 R107). -/
def atomOrderOf (v : BitVec 2) : AtomOrder :=
  match v with
  | 0 => .rlx
  | 1 => .acq
  | 2 => .rel
  | 3 => .ar

/-- The bits of an atomic's order. -/
def atomOrderBits : AtomOrder → BitVec 2
  | .rlx => 0
  | .acq => 1
  | .rel => 2
  | .ar => 3

/-- The scope field of an atomic or fence (04 R107). -/
def scopeOf (v : BitVec 2) : Scope :=
  match v with
  | 0 => .cl
  | 1 => .die
  | 2 => .prt
  | 3 => .sys

/-- The bits of a scope. -/
def scopeBits : Scope → BitVec 2
  | .cl => 0
  | .die => 1
  | .prt => 2
  | .sys => 3

/-- The format field of the FP and FCVT majors (04 R107). -/
def fpFmtOf (v : BitVec 2) : FpFmt :=
  match v with
  | 0 => .f64
  | 1 => .f32
  | 2 => .f16
  | 3 => .bf16

/-- The bits of a format. -/
def fpFmtBits : FpFmt → BitVec 2
  | .f64 => 0
  | .f32 => 1
  | .f16 => 2
  | .bf16 => 3

/-- The rounding-mode field (02 R46). -/
def roundModeOf (v : BitVec 2) : RoundMode :=
  match v with
  | 0 => .rne
  | 1 => .rz
  | 2 => .rd
  | 3 => .ru

/-- The bits of a rounding mode. -/
def roundModeBits : RoundMode → BitVec 2
  | .rne => 0
  | .rz => 1
  | .rd => 2
  | .ru => 3

/-- The lane shape of the PK major; shape 3 is unassigned (04 R107). -/
def pkShapeOf (v : BitVec 2) : Option PkShape :=
  match v with
  | 0 => some .b8
  | 1 => some .h4
  | 2 => some .w2
  | 3 => none

/-- The bits of a lane shape. -/
def pkShapeBits : PkShape → BitVec 2
  | .b8 => 0
  | .h4 => 1
  | .w2 => 2

/-- What the decoder answers: the instruction, or the cause of 04 R112. -/
abbrev Dec := Except (BitVec 8) Instr

/-- Cause 2: an unassigned func, sub-field value, kind or combination (04 R112). -/
def unassigned : Dec := .error 2

/-- Cause 3 unless the condition holds: a field or bit that has to be 0 (04 R112). -/
def zeroIf (c : Bool) (i : Instr) : Dec := if c then .ok i else .error 3

/-- The functions of major 0x00 (04 R106). -/
def decodeInt (d a b : BitVec 5) (func : BitVec 9) : Dec :=
  match func with
  | 0 => .ok (.add d a b)
  | 1 => .ok (.sub d a b)
  | 2 => .ok (.mul d a b)
  | 3 => .ok (.mulh d a b)
  | 4 => .ok (.mulhn d a b)
  | 5 => .ok (.div d a b)
  | 6 => .ok (.divn d a b)
  | 7 => .ok (.rem d a b)
  | 8 => .ok (.remn d a b)
  | 9 => .ok (.and d a b)
  | 10 => .ok (.or d a b)
  | 11 => .ok (.xor d a b)
  | 12 => .ok (.andn d a b)
  | 13 => .ok (.orn d a b)
  | 14 => .ok (.shl d a b)
  | 15 => .ok (.shr d a b)
  | 16 => .ok (.sra d a b)
  | 17 => .ok (.rol d a b)
  | 18 => .ok (.ror d a b)
  | 19 => .ok (.min d a b)
  | 20 => .ok (.max d a b)
  | 21 => .ok (.minn d a b)
  | 22 => .ok (.maxn d a b)
  | 23 => .ok (.slt d a b)
  | 24 => .ok (.sltn d a b)
  | 25 => .ok (.seq d a b)
  | 26 => .ok (.sne d a b)
  | 27 => zeroIf (b == 0) (.clz d a)
  | 28 => zeroIf (b == 0) (.ctz d a)
  | 29 => zeroIf (b == 0) (.popc d a)
  | 30 => zeroIf (b == 0) (.brev d a)
  | 31 => zeroIf (b == 0) (.bswap d a)
  | 32 => .ok (.sext d a b)
  | 33 => .ok (.zext d a b)
  | 34 => .ok (.bfx d a b)
  | 35 => .ok (.bfi d a b)
  | 36 => .ok (.cmovz d a b)
  | 37 => .ok (.cmovnz d a b)
  | 38 => .ok (.addw d a b)
  | 39 => .ok (.subw d a b)
  | 40 => .ok (.mulw d a b)
  | 41 => .ok (.shlw d a b)
  | 42 => .ok (.shrw d a b)
  | 43 => .ok (.sraw d a b)
  | _ => unassigned

/-- The functions of major 0x0D (04 R105). -/
def decodeXop (d a b : BitVec 5) (func : BitVec 9) : Dec :=
  match func with
  | 0 => zeroIf (d.extractLsb' 3 2 == 0 && b == 0) (.xmov (d.extractLsb' 0 3) a)
  | 1 => zeroIf (a.extractLsb' 3 2 == 0 && b == 0) (.movgx d (a.extractLsb' 0 3))
  | 2 => zeroIf (d.extractLsb' 3 2 == 0 && a == 0 && b == 0) (.xclr (d.extractLsb' 0 3))
  | _ => unassigned

/-- The functions of major 0x12 (04 R107). -/
def decodeMemx (d a b : BitVec 5) (func : BitVec 9) : Dec :=
  match func.extractLsb' 6 3 with
  | 0 =>
    match ldKindOf (func.extractLsb' 3 3) with
    | some k => zeroIf (func.extractLsb' 0 1 == 0) (.ldx d a b k (memOrderOf (func.extractLsb' 1 2)))
    | none => unassigned
  | 1 =>
    match stKindOf (func.extractLsb' 3 3) with
    | some k => zeroIf (func.extractLsb' 0 1 == 0) (.stx d a b k (memOrderOf (func.extractLsb' 1 2)))
    | none => unassigned
  | _ => unassigned

/-- The functions of major 0x13 (04 R107). -/
def decodeAtom (d a b : BitVec 5) (func : BitVec 9) : Dec :=
  let s := atomSizeOf (func.extractLsb' 4 1)
  let o := atomOrderOf (func.extractLsb' 2 2)
  let c := scopeOf (func.extractLsb' 0 2)
  match func.extractLsb' 5 4 with
  | 0 => .ok (.aadd d a b s o c)
  | 1 => .ok (.aand d a b s o c)
  | 2 => .ok (.aor d a b s o c)
  | 3 => .ok (.axor d a b s o c)
  | 4 => .ok (.amin d a b s o c)
  | 5 => .ok (.amax d a b s o c)
  | 6 => .ok (.aminn d a b s o c)
  | 7 => .ok (.amaxn d a b s o c)
  | 8 => .ok (.aswap d a b s o c)
  | 9 => .ok (.cas d a b s o c)
  | _ => unassigned

/-- The functions of major 0x14 (04 R107). -/
def decodeFence (d a b : BitVec 5) (func : BitVec 9) : Dec :=
  match func.extractLsb' 4 5 with
  | 0 =>
    if func.extractLsb' 2 2 == 0 then unassigned
    else zeroIf (d == 0 && a == 0 && b == 0)
      (.fence (atomOrderOf (func.extractLsb' 2 2)) (scopeOf (func.extractLsb' 0 2)))
  | 1 => zeroIf (func.extractLsb' 0 4 == 0 && d == 0 && a == 0 && b == 0) .fencei
  | _ => unassigned

/-- The functions of major 0x1A (04 R105). -/
def decodeJreg (d a b : BitVec 5) (func : BitVec 9) : Dec :=
  match func with
  | 0 => zeroIf (d == 0 && b == 0) (.jr a)
  | 1 => zeroIf (d == 0 && b == 0) (.jlr a)
  | _ => unassigned

/-- The functions of major 0x24 (04 R107). -/
def decodeFp (d a b : BitVec 5) (func : BitVec 9) : Dec :=
  let f := fpFmtOf (func.extractLsb' 2 2)
  let m := roundModeOf (func.extractLsb' 0 2)
  let z := func.extractLsb' 0 2 == 0
  match func.extractLsb' 4 5 with
  | 0 => .ok (.fadd d a b f m)
  | 1 => .ok (.fsub d a b f m)
  | 2 => .ok (.fmul d a b f m)
  | 3 => .ok (.fdiv d a b f m)
  | 4 => zeroIf (b == 0) (.fsqrt d a f m)
  | 5 => .ok (.fmad d a b f m)
  | 6 => .ok (.fnmad d a b f m)
  | 7 => zeroIf (z) (.fmin d a b f)
  | 8 => zeroIf (z) (.fmax d a b f)
  | 9 => zeroIf (z && b == 0) (.fneg d a f)
  | 10 => zeroIf (z && b == 0) (.fabs d a f)
  | 11 => zeroIf (z) (.fcpys d a b f)
  | 12 => zeroIf (z) (.feq d a b f)
  | 13 => zeroIf (z) (.flt d a b f)
  | 14 => zeroIf (z) (.fle d a b f)
  | 15 => zeroIf (z && b == 0) (.fclass d a f)
  | 16 => zeroIf (b == 0) (.frnd d a f m)
  | _ => unassigned

/-- The functions of major 0x25 (04 R108). -/
def decodeFcvt (d a b : BitVec 5) (func : BitVec 9) : Dec :=
  let t := fpFmtOf (func.extractLsb' 4 2)
  let s := fpFmtOf (func.extractLsb' 2 2)
  let m := roundModeOf (func.extractLsb' 0 2)
  let tz := func.extractLsb' 4 2 == 0
  let sz := func.extractLsb' 2 2 == 0
  let mz := func.extractLsb' 0 2 == 0
  match func.extractLsb' 6 3 with
  | 0 => if t = s then unassigned else zeroIf ((!exactWidening t s || mz) && b == 0) (.fcvt d a t s m)
  | 1 => zeroIf (tz && b == 0) (.ftoi d a s m)
  | 2 => zeroIf (tz && b == 0) (.fton d a s m)
  | 3 => zeroIf (sz && b == 0) (.itof d a t m)
  | 4 => zeroIf (sz && b == 0) (.ntof d a t m)
  | 5 => zeroIf (sz && mz && b == 0) (.b8tof d a t)
  | 6 => zeroIf (tz && mz && b == 0) (.ftob8 d a s)
  | _ => unassigned

/-- The functions of major 0x28 (04 R107). -/
def decodePk (d a b : BitVec 5) (func : BitVec 9) : Dec :=
  match pkShapeOf (func.extractLsb' 2 2) with
  | none => unassigned
  | some h =>
    let z := func.extractLsb' 0 2 == 0
    match func.extractLsb' 4 5 with
    | 0 => zeroIf z (.padd d a b h)
    | 1 => zeroIf z (.psub d a b h)
    | 2 => zeroIf z (.pmul d a b h)
    | 3 => zeroIf z (.padds d a b h)
    | 4 => zeroIf z (.psubs d a b h)
    | 5 => zeroIf z (.pmin d a b h)
    | 6 => zeroIf z (.pmax d a b h)
    | 7 => zeroIf z (.pminn d a b h)
    | 8 => zeroIf z (.pmaxn d a b h)
    | 9 => zeroIf z (.pceq d a b h)
    | 10 => zeroIf z (.pcgt d a b h)
    | 11 => zeroIf z (.pshuf d a b h)
    | 12 => zeroIf z (.pdot d a b h)
    | _ => unassigned

/-- The functions of major 0x29 (04 R105). -/
def decodeRng (d a b : BitVec 5) (func : BitVec 9) : Dec :=
  match func with
  | 0 => .ok (.rngp d a b)
  | 1 => zeroIf (b == 0) (.rngf64 d a)
  | 2 => zeroIf (b == 0) (.rngf32 d a)
  | _ => unassigned

/-- The functions of major 0x2C (04 R105). -/
def decodeSync (d a b : BitVec 5) (func : BitVec 9) : Dec :=
  match func with
  | 0 => zeroIf (d == 0) (.rpinit a b)
  | 1 => .ok (.rparr d a b)
  | 2 => zeroIf (d == 0) (.rpexp a b)
  | 3 => .ok (.rpwait d a b)
  | 4 => zeroIf (b == 0) (.rptest d a)
  | 5 => zeroIf (d == 0 && b == 0) (.dcdec a)
  | 6 => zeroIf (d == 0) (.fres a b)
  | 7 => zeroIf (d == 0) (.fpois a b)
  | 8 => .ok (.fwait d a b)
  | 9 => zeroIf (d == 0) (.flink a b)
  | 10 => zeroIf (b == 0) (.ftest d a)
  | _ => unassigned

/-- The functions of major 0x2D (04 R105). -/
def decodeTask (d a b : BitVec 5) (func : BitVec 9) : Dec :=
  match func with
  | 0 => zeroIf (d == 0 && b == 0) (.spawn a)
  | 1 => .ok (.spawnr d a b)
  | 2 => zeroIf (d == 0 && a == 0 && b == 0) (.exit)
  | 3 => zeroIf (d == 0 && a == 0 && b == 0) (.yield)
  | 4 => .ok (.tkey d a b)
  | 5 => .ok (.rsset d a b)
  | 6 => zeroIf (d == 0) (.rsclr a b)
  | 7 => zeroIf (b == 0) (.rsqry d a)
  | 8 => zeroIf (a.extractLsb' 4 1 == 0) (.waitwp d (a.extractLsb' 0 4) b)
  | 9 => zeroIf (d == 0) (.msnd a b)
  | 10 => zeroIf (a == 0) (.mrcv d b)
  | 11 => zeroIf (a == 0 && b == 0) (.clid d)
  | _ => unassigned

/-- The functions of major 0x31 (04 R105). -/
def decodeEng (d a b : BitVec 5) (func : BitVec 9) : Dec :=
  match func with
  | 0 => zeroIf (d == 0) (.strm a b)
  | 1 => zeroIf (d == 0 && b == 0) (.strmr a)
  | 2 => zeroIf (d == 0 && b == 0) (.copy a)
  | 3 => zeroIf (d == 0 && b == 0) (.copyp a)
  | 4 => zeroIf (d == 0 && b == 0) (.gather a)
  | 5 => .ok (.umbra d a b)
  | 6 => zeroIf (d == 0) (.publish a b)
  | 7 => zeroIf (d == 0 && b == 0) (.rcopy a)
  | _ => unassigned

/-- The functions of major 0x34 (04 R105). -/
def decodeTile (d a b : BitVec 5) (func : BitVec 9) : Dec :=
  match func with
  | 0 => zeroIf (b == 0) (.talloc d a)
  | 1 => zeroIf (d == 0 && b == 0) (.tfree a)
  | 2 => zeroIf (b == 0) (.tshape d a)
  | 3 => zeroIf (b == 0) (.tshget d a)
  | 4 => .ok (.tld d a b)
  | 5 => .ok (.tst d a b)
  | 6 => zeroIf (a == 0 && b == 0) (.tzero d)
  | 7 => .ok (.tmma d a b)
  | 8 => .ok (.tadd d a b)
  | 9 => .ok (.tmul d a b)
  | 10 => .ok (.tmax d a b)
  | 11 => zeroIf (b == 0) (.trsum d a)
  | 12 => zeroIf (b == 0) (.trmax d a)
  | 13 => zeroIf (b == 0) (.texp2 d a)
  | 14 => .ok (.tscan d a b)
  | 15 => .ok (.tcvt d a b)
  | 16 => .ok (.tgete d a b)
  | 17 => .ok (.tsete d a b)
  | 18 => zeroIf (b == 0) (.tchain d a)
  | 19 => zeroIf (d == 0 && a == 0 && b == 0) (.tsync)
  | _ => unassigned

/-- The functions of major 0x35 (04 R105). -/
def decodeCount (d a b : BitVec 5) (func : BitVec 9) : Dec :=
  match func with
  | 0 => zeroIf (d.extractLsb' 1 4 == 0 && b == 0) (.cfmt (d.extractLsb' 0 1) a)
  | 1 => zeroIf (d.extractLsb' 1 4 == 0) (.cstep (d.extractLsb' 0 1) a b)
  | 2 => zeroIf (d.extractLsb' 1 4 == 0 && a == 0 && b == 0) (.cmerge (d.extractLsb' 0 1))
  | 3 => zeroIf (a.extractLsb' 1 4 == 0) (.cdrain d (a.extractLsb' 0 1) b)
  | 4 => zeroIf (d.extractLsb' 1 4 == 0 && a == 0 && b == 0) (.cclr (d.extractLsb' 0 1))
  | 5 => zeroIf (a.extractLsb' 1 4 == 0 && b == 0) (.cdepth d (a.extractLsb' 0 1))
  | 6 => zeroIf (b == 0) (.calloc d a)
  | 7 => zeroIf (d == 0 && b == 0) (.cfree a)
  | _ => unassigned

/-- The functions of major 0x38 (04 R105, 10 R261). -/
def decodeSys (d a b : BitVec 5) (func : BitVec 9) : Dec :=
  match func with
  | 0 => zeroIf (d.extractLsb' 2 3 == 0) (.trap (d.extractLsb' 0 2 ++ a ++ b))
  | 1 => .ok (.sysc d a b)
  | 2 => zeroIf (d == 0 && a == 0 && b == 0) (.eret)
  | 3 => if sysregAssigned (a ++ b) then .ok (.mfs d (a ++ b)) else unassigned
  | 4 => if sysregAssigned (a ++ b) then .ok (.mts d (a ++ b)) else unassigned
  | 5 => zeroIf (a == 0 && b == 0) (.cyc d)
  | 6 => zeroIf (b == 0) (.perf d a)
  | 7 => zeroIf (d == 0) (.cinv a b)
  | 8 => zeroIf (d == 0) (.tlbinv a b)
  | 9 => zeroIf (d == 0 && a == 0 && b == 0) (.brk)
  | 10 => zeroIf (d == 0 && a == 0 && b == 0) (.nop)
  | 11 => .ok (.wake d a b)
  | 12 => zeroIf (d == 0 && a == 0 && b == 0) (.halt)
  | _ => unassigned

/-- The I-format shifts: imm14[13:6] has to be 0 (03 R85). -/
def decodeShift (k : Reg → Reg → BitVec 6 → Instr) (d a : BitVec 5) (imm : BitVec 14) : Dec :=
  zeroIf (imm.extractLsb' 6 8 == 0) (k d a (imm.extractLsb' 0 6))

/-- The `LD` major (04 R109). -/
def decodeLd (v b : BitVec 5) (kind : BitVec 3) (o : BitVec 2) (i : BitVec 9) : Dec :=
  match ldKindOf kind with
  | some .b => .ok (.ldb v b (memOrderOf o) i)
  | some .bz => .ok (.ldbz v b (memOrderOf o) i)
  | some .h => .ok (.ldh v b (memOrderOf o) i)
  | some .hz => .ok (.ldhz v b (memOrderOf o) i)
  | some .w => .ok (.ldw v b (memOrderOf o) i)
  | some .wz => .ok (.ldwz v b (memOrderOf o) i)
  | some .d => .ok (.ldd v b (memOrderOf o) i)
  | none => unassigned

/-- The `ST` major (04 R109). -/
def decodeSt (v b : BitVec 5) (kind : BitVec 3) (o : BitVec 2) (i : BitVec 9) : Dec :=
  match stKindOf kind with
  | some .b => .ok (.stb v b (memOrderOf o) i)
  | some .h => .ok (.sth v b (memOrderOf o) i)
  | some .w => .ok (.stw v b (memOrderOf o) i)
  | some .d => .ok (.std v b (memOrderOf o) i)
  | none => unassigned

/-- `SERVE`: a register range that passes g31 is cause 5 (03 R87). -/
def decodeServe (d a : BitVec 5) (n r : BitVec 3) (s : BitVec 8) : Dec :=
  if serveRanges d a n r then .ok (.serve d a n r s) else .error 5

/-- The majors that have instructions (04 R102). -/
def majorAssigned (m : BitVec 6) : Bool :=
  m.toNat ≤ 0x0D || (0x10 ≤ m.toNat && m.toNat ≤ 0x14) || (0x18 ≤ m.toNat && m.toNat ≤ 0x20) ||
  m == 0x24 || m == 0x25 || m == 0x28 || m == 0x29 || m == 0x2C || m == 0x2D || m == 0x30 || m == 0x31 ||
  m == 0x34 || m == 0x35 || m == 0x38

/-- A 32-bit word by its major (04 R102, 03 R84); an unassigned major is cause 1 (R103). DEDUCED (log 31). -/
def decode32 (w : BitVec 32) : Dec :=
  let d := fieldOf w 19 5
  let a := fieldOf w 14 5
  let b := fieldOf w 9 5
  let func := fieldOf w 0 9
  let imm := fieldOf w 0 14
  match fieldOf w 24 6 with
  | 0x00 => decodeInt d a b func
  | 0x01 => .ok (.addi d a imm)
  | 0x02 => .ok (.addwi d a imm)
  | 0x03 => .ok (.andi d a imm)
  | 0x04 => .ok (.ori d a imm)
  | 0x05 => .ok (.xori d a imm)
  | 0x06 => decodeShift .shli d a imm
  | 0x07 => decodeShift .shri d a imm
  | 0x08 => decodeShift .srai d a imm
  | 0x09 => .ok (.slti d a imm)
  | 0x0A => .ok (.sltni d a imm)
  | 0x0B => .ok (.li d (fieldOf w 0 19))
  | 0x0C => .ok (.lix (fieldOf w 21 3) (fieldOf w 0 21))
  | 0x0D => decodeXop d a b func
  | 0x10 => decodeLd d a (fieldOf w 11 3) (fieldOf w 9 2) func
  | 0x11 => decodeSt d a (fieldOf w 11 3) (fieldOf w 9 2) func
  | 0x12 => decodeMemx d a b func
  | 0x13 => decodeAtom d a b func
  | 0x14 => decodeFence d a b func
  | 0x18 => .ok (.j (fieldOf w 0 24))
  | 0x19 => .ok (.jl (fieldOf w 0 24))
  | 0x1A => decodeJreg d a b func
  | 0x1B => .ok (.beq d a imm)
  | 0x1C => .ok (.bne d a imm)
  | 0x1D => .ok (.blt d a imm)
  | 0x1E => .ok (.bge d a imm)
  | 0x1F => .ok (.bltn d a imm)
  | 0x20 => .ok (.bgen d a imm)
  | 0x24 => decodeFp d a b func
  | 0x25 => decodeFcvt d a b func
  | 0x28 => decodePk d a b func
  | 0x29 => decodeRng d a b func
  | 0x2C => decodeSync d a b func
  | 0x2D => decodeTask d a b func
  | 0x30 => decodeServe d a (fieldOf w 11 3) (fieldOf w 8 3) (fieldOf w 0 8)
  | 0x31 => decodeEng d a b func
  | 0x34 => decodeTile d a b func
  | 0x35 => decodeCount d a b func
  | 0x38 => decodeSys d a b func
  | _ => .error 1

/-- Group 00 of the 16-bit forms (03 R88 to R90). -/
def decodeGroup0 (op4 d s : BitVec 4) (ext : BitVec 2) (h : BitVec 16) : Dec :=
  let z := ext == 0
  match op4 with
  | 0 => .ok (.udf (h.extractLsb' 0 10))
  | 1 => zeroIf z (.mov16 d s)
  | 2 => zeroIf z (.add16 d s)
  | 3 => zeroIf z (.sub16 d s)
  | 4 => zeroIf z (.and16 d s)
  | 5 => zeroIf z (.or16 d s)
  | 6 => zeroIf z (.xor16 d s)
  | 7 => zeroIf z (.shl16 d s)
  | 8 => zeroIf z (.shr16 d s)
  | 9 => zeroIf z (.sra16 d s)
  | 10 => zeroIf z (.ldd16 d s)
  | 11 => zeroIf z (.std16 d s)
  | 12 => zeroIf z (.ldw16 d s)
  | 13 => zeroIf z (.stw16 d s)
  | 14 =>
    match ext with
    | 0 => zeroIf (d == 0) (.jr16 s)
    | 1 => zeroIf (d == 0) (.jlr16 s)
    | _ => unassigned
  | _ =>
    match ext with
    | 0 => zeroIf (d == 0 && s == 0) .nop16
    | 1 => zeroIf (d == 0 && s == 0) .ret16
    | 2 => zeroIf (d == 0 && s == 0) .exit16
    | 3 => zeroIf (d == 0 && s == 0) .yield16

/-- Group 01 of the 16-bit forms (03 R88 to R90). -/
def decodeGroup1 (op3 : BitVec 3) (d : BitVec 4) (i : BitVec 7) : Dec :=
  match op3 with
  | 0 => .ok (.addi16 d i)
  | 1 => .ok (.li16 d i)
  | 2 => zeroIf (i.extractLsb' 6 1 == 0) (.shli16 d (i.extractLsb' 0 6))
  | 3 => zeroIf (i.extractLsb' 6 1 == 0) (.shri16 d (i.extractLsb' 0 6))
  | 4 => .ok (.ldsp d i)
  | 5 => .ok (.stsp d i)
  | 6 => .ok (.beqz d i)
  | 7 => .ok (.bnez d i)

/-- Group 10 of the 16-bit forms; op2 3 is reserved, cause 1 (03 R89, 04 R112). -/
def decodeGroup2 (op2 : BitVec 2) (i : BitVec 12) : Dec :=
  match op2 with
  | 0 => .ok (.j16 i)
  | 1 => .ok (.jl16 i)
  | 2 => .ok (.trap16 i)
  | 3 => .error 1

/-- What the first halfword alone decides (03 R77; 04 R103, R110, R113). -/
inductive First where
  /-- A 16-bit instruction, or an encoding already refused, with the `WORD` of 04 R111. -/
  | done (r : Dec) (w : BitVec 32)
  /-- A 32-bit instruction: the second halfword has to be fetched. -/
  | more

/-- The decoding of a first halfword (03 R77). -/
def decodeFirst (h : BitVec 16) : First :=
  match h.extractLsb' 14 2 with
  | 0 => .done (decodeGroup0 (h.extractLsb' 10 4) (h.extractLsb' 6 4) (h.extractLsb' 2 4) (h.extractLsb' 0 2) h)
      (h.setWidth 32)
  | 1 => .done (decodeGroup1 (h.extractLsb' 11 3) (h.extractLsb' 7 4) (h.extractLsb' 0 7)) (h.setWidth 32)
  | 2 => .done (decodeGroup2 (h.extractLsb' 12 2) (h.extractLsb' 0 12)) (h.setWidth 32)
  | 3 => if majorAssigned (h.extractLsb' 8 6) then .more else .done (.error 1) (h ++ (0 : BitVec 16))

/-- The instruction that a decoding stands for: one of the table, or the illegal encoding (04 R111). -/
def orIllegal (r : Dec) (w : BitVec 32) : Instr :=
  match r with
  | .ok i => i
  | .error c => .illegalEncoding c w

/-- A little-endian halfword (00 R5, R6). -/
def halfOf (lo hi : Byte) : BitVec 16 := hi ++ lo

/-- The instruction at the head of a byte list, and the bytes after it; `none` when the list ends inside it.
Every halfword and word has a fate: an encoding that no instruction claims is `illegalEncoding` (04 R110, R111). -/
def decodeBytes : List Byte → Option (Instr × List Byte)
  | b0 :: b1 :: rest =>
    match decodeFirst (halfOf b0 b1) with
    | .done r w => some (orIllegal r w, rest)
    | .more =>
      match rest with
      | b2 :: b3 :: rest' =>
        let w : BitVec 32 := halfOf b0 b1 ++ halfOf b2 b3
        some (orIllegal (decode32 w) w, rest')
      | _ => none
  | _ => none

/-- A 32-bit word of the A format (03 R84). -/
def wordA (major : BitVec 6) (d a b : BitVec 5) (func : BitVec 9) : BitVec 32 :=
  (3 : BitVec 2) ++ major ++ d ++ a ++ b ++ func

/-- A 32-bit word of the I and B formats (03 R84). -/
def wordI14 (major : BitVec 6) (d a : BitVec 5) (imm : BitVec 14) : BitVec 32 := (3 : BitVec 2) ++ major ++ d ++ a ++ imm

/-- A 32-bit word of the M format (03 R84). -/
def wordM (major : BitVec 6) (v b : BitVec 5) (kind : BitVec 3) (o : BitVec 2) (i : BitVec 9) : BitVec 32 :=
  (3 : BitVec 2) ++ major ++ v ++ b ++ kind ++ o ++ i

/-- A 16-bit form of group 00 (03 R88). -/
def half0 (op4 d s : BitVec 4) (ext : BitVec 2) : BitVec 16 := (0 : BitVec 2) ++ op4 ++ d ++ s ++ ext

/-- A 16-bit form of group 01 (03 R88). -/
def half1 (op3 : BitVec 3) (d : BitVec 4) (i : BitVec 7) : BitVec 16 := (1 : BitVec 2) ++ op3 ++ d ++ i

/-- A 16-bit form of group 10 (03 R88). -/
def half2 (op2 : BitVec 2) (i : BitVec 12) : BitVec 16 := (2 : BitVec 2) ++ op2 ++ i

/-- The words of an instruction: one halfword, one 32-bit word, or none for a step without an encoding. -/
inductive Words where
  | half (h : BitVec 16)
  | word (w : BitVec 32)
  | none

/-- The encoder: the words of an instruction, from the tables of 03 R84 to R90 and 04 R102 to R109. -/
def encodeWords : Instr → Words
  | .add d a b => .word (wordA 0x00 d a b 0)
  | .sub d a b => .word (wordA 0x00 d a b 1)
  | .mul d a b => .word (wordA 0x00 d a b 2)
  | .mulh d a b => .word (wordA 0x00 d a b 3)
  | .mulhn d a b => .word (wordA 0x00 d a b 4)
  | .div d a b => .word (wordA 0x00 d a b 5)
  | .divn d a b => .word (wordA 0x00 d a b 6)
  | .rem d a b => .word (wordA 0x00 d a b 7)
  | .remn d a b => .word (wordA 0x00 d a b 8)
  | .and d a b => .word (wordA 0x00 d a b 9)
  | .or d a b => .word (wordA 0x00 d a b 10)
  | .xor d a b => .word (wordA 0x00 d a b 11)
  | .andn d a b => .word (wordA 0x00 d a b 12)
  | .orn d a b => .word (wordA 0x00 d a b 13)
  | .shl d a b => .word (wordA 0x00 d a b 14)
  | .shr d a b => .word (wordA 0x00 d a b 15)
  | .sra d a b => .word (wordA 0x00 d a b 16)
  | .rol d a b => .word (wordA 0x00 d a b 17)
  | .ror d a b => .word (wordA 0x00 d a b 18)
  | .min d a b => .word (wordA 0x00 d a b 19)
  | .max d a b => .word (wordA 0x00 d a b 20)
  | .minn d a b => .word (wordA 0x00 d a b 21)
  | .maxn d a b => .word (wordA 0x00 d a b 22)
  | .slt d a b => .word (wordA 0x00 d a b 23)
  | .sltn d a b => .word (wordA 0x00 d a b 24)
  | .seq d a b => .word (wordA 0x00 d a b 25)
  | .sne d a b => .word (wordA 0x00 d a b 26)
  | .clz d a => .word (wordA 0x00 d a 0 27)
  | .ctz d a => .word (wordA 0x00 d a 0 28)
  | .popc d a => .word (wordA 0x00 d a 0 29)
  | .brev d a => .word (wordA 0x00 d a 0 30)
  | .bswap d a => .word (wordA 0x00 d a 0 31)
  | .sext d a b => .word (wordA 0x00 d a b 32)
  | .zext d a b => .word (wordA 0x00 d a b 33)
  | .bfx d a b => .word (wordA 0x00 d a b 34)
  | .bfi d a b => .word (wordA 0x00 d a b 35)
  | .cmovz d a b => .word (wordA 0x00 d a b 36)
  | .cmovnz d a b => .word (wordA 0x00 d a b 37)
  | .addw d a b => .word (wordA 0x00 d a b 38)
  | .subw d a b => .word (wordA 0x00 d a b 39)
  | .mulw d a b => .word (wordA 0x00 d a b 40)
  | .shlw d a b => .word (wordA 0x00 d a b 41)
  | .shrw d a b => .word (wordA 0x00 d a b 42)
  | .sraw d a b => .word (wordA 0x00 d a b 43)
  | .addi d a i => .word (wordI14 1 d a i)
  | .addwi d a i => .word (wordI14 2 d a i)
  | .andi d a i => .word (wordI14 3 d a i)
  | .ori d a i => .word (wordI14 4 d a i)
  | .xori d a i => .word (wordI14 5 d a i)
  | .shli d a i => .word (wordI14 6 d a ((0 : BitVec 8) ++ i))
  | .shri d a i => .word (wordI14 7 d a ((0 : BitVec 8) ++ i))
  | .srai d a i => .word (wordI14 8 d a ((0 : BitVec 8) ++ i))
  | .slti d a i => .word (wordI14 9 d a i)
  | .sltni d a i => .word (wordI14 10 d a i)
  | .li d i => .word ((3 : BitVec 2) ++ (0x0B : BitVec 6) ++ d ++ i)
  | .lix k i => .word ((3 : BitVec 2) ++ (0x0C : BitVec 6) ++ k ++ i)
  | .xmov d a => .word (wordA 0x0D ((0 : BitVec 2) ++ d) a 0 0)
  | .movgx d a => .word (wordA 0x0D d ((0 : BitVec 2) ++ a) 0 1)
  | .xclr d => .word (wordA 0x0D ((0 : BitVec 2) ++ d) 0 0 2)
  | .ldb v b o i => .word (wordM 0x10 v b 0 (memOrderBits o) i)
  | .ldbz v b o i => .word (wordM 0x10 v b 1 (memOrderBits o) i)
  | .ldh v b o i => .word (wordM 0x10 v b 2 (memOrderBits o) i)
  | .ldhz v b o i => .word (wordM 0x10 v b 3 (memOrderBits o) i)
  | .ldw v b o i => .word (wordM 0x10 v b 4 (memOrderBits o) i)
  | .ldwz v b o i => .word (wordM 0x10 v b 5 (memOrderBits o) i)
  | .ldd v b o i => .word (wordM 0x10 v b 6 (memOrderBits o) i)
  | .stb v b o i => .word (wordM 0x11 v b 0 (memOrderBits o) i)
  | .sth v b o i => .word (wordM 0x11 v b 2 (memOrderBits o) i)
  | .stw v b o i => .word (wordM 0x11 v b 4 (memOrderBits o) i)
  | .std v b o i => .word (wordM 0x11 v b 6 (memOrderBits o) i)
  | .ldx d a b k o => .word (wordA 0x12 d a b ((0 : BitVec 3) ++ ldKindBits k ++ memOrderBits o ++ (0 : BitVec 1)))
  | .stx d a b k o => .word (wordA 0x12 d a b ((1 : BitVec 3) ++ stKindBits k ++ memOrderBits o ++ (0 : BitVec 1)))
  | .aadd d a b s o c => .word (wordA 0x13 d a b ((0 : BitVec 4) ++ atomSizeBits s ++ atomOrderBits o ++ scopeBits c))
  | .aand d a b s o c => .word (wordA 0x13 d a b ((1 : BitVec 4) ++ atomSizeBits s ++ atomOrderBits o ++ scopeBits c))
  | .aor d a b s o c => .word (wordA 0x13 d a b ((2 : BitVec 4) ++ atomSizeBits s ++ atomOrderBits o ++ scopeBits c))
  | .axor d a b s o c => .word (wordA 0x13 d a b ((3 : BitVec 4) ++ atomSizeBits s ++ atomOrderBits o ++ scopeBits c))
  | .amin d a b s o c => .word (wordA 0x13 d a b ((4 : BitVec 4) ++ atomSizeBits s ++ atomOrderBits o ++ scopeBits c))
  | .amax d a b s o c => .word (wordA 0x13 d a b ((5 : BitVec 4) ++ atomSizeBits s ++ atomOrderBits o ++ scopeBits c))
  | .aminn d a b s o c => .word (wordA 0x13 d a b ((6 : BitVec 4) ++ atomSizeBits s ++ atomOrderBits o ++ scopeBits c))
  | .amaxn d a b s o c => .word (wordA 0x13 d a b ((7 : BitVec 4) ++ atomSizeBits s ++ atomOrderBits o ++ scopeBits c))
  | .aswap d a b s o c => .word (wordA 0x13 d a b ((8 : BitVec 4) ++ atomSizeBits s ++ atomOrderBits o ++ scopeBits c))
  | .cas d a b s o c => .word (wordA 0x13 d a b ((9 : BitVec 4) ++ atomSizeBits s ++ atomOrderBits o ++ scopeBits c))
  | .fence o c => .word (wordA 0x14 0 0 0 ((0 : BitVec 5) ++ atomOrderBits o ++ scopeBits c))
  | .fencei => .word (wordA 0x14 0 0 0 16)
  | .j o => .word ((3 : BitVec 2) ++ (0x18 : BitVec 6) ++ o)
  | .jl o => .word ((3 : BitVec 2) ++ (0x19 : BitVec 6) ++ o)
  | .jr a => .word (wordA 0x1A 0 a 0 0)
  | .jlr a => .word (wordA 0x1A 0 a 0 1)
  | .beq a b o => .word (wordI14 0x1B a b o)
  | .bne a b o => .word (wordI14 0x1C a b o)
  | .blt a b o => .word (wordI14 0x1D a b o)
  | .bge a b o => .word (wordI14 0x1E a b o)
  | .bltn a b o => .word (wordI14 0x1F a b o)
  | .bgen a b o => .word (wordI14 0x20 a b o)
  | .fadd d a b f m => .word (wordA 0x24 d a b ((0 : BitVec 5) ++ fpFmtBits f ++ roundModeBits m))
  | .fsub d a b f m => .word (wordA 0x24 d a b ((1 : BitVec 5) ++ fpFmtBits f ++ roundModeBits m))
  | .fmul d a b f m => .word (wordA 0x24 d a b ((2 : BitVec 5) ++ fpFmtBits f ++ roundModeBits m))
  | .fdiv d a b f m => .word (wordA 0x24 d a b ((3 : BitVec 5) ++ fpFmtBits f ++ roundModeBits m))
  | .fsqrt d a f m => .word (wordA 0x24 d a 0 ((4 : BitVec 5) ++ fpFmtBits f ++ roundModeBits m))
  | .fmad d a b f m => .word (wordA 0x24 d a b ((5 : BitVec 5) ++ fpFmtBits f ++ roundModeBits m))
  | .fnmad d a b f m => .word (wordA 0x24 d a b ((6 : BitVec 5) ++ fpFmtBits f ++ roundModeBits m))
  | .fmin d a b f => .word (wordA 0x24 d a b ((7 : BitVec 5) ++ fpFmtBits f ++ (0 : BitVec 2)))
  | .fmax d a b f => .word (wordA 0x24 d a b ((8 : BitVec 5) ++ fpFmtBits f ++ (0 : BitVec 2)))
  | .fneg d a f => .word (wordA 0x24 d a 0 ((9 : BitVec 5) ++ fpFmtBits f ++ (0 : BitVec 2)))
  | .fabs d a f => .word (wordA 0x24 d a 0 ((10 : BitVec 5) ++ fpFmtBits f ++ (0 : BitVec 2)))
  | .fcpys d a b f => .word (wordA 0x24 d a b ((11 : BitVec 5) ++ fpFmtBits f ++ (0 : BitVec 2)))
  | .feq d a b f => .word (wordA 0x24 d a b ((12 : BitVec 5) ++ fpFmtBits f ++ (0 : BitVec 2)))
  | .flt d a b f => .word (wordA 0x24 d a b ((13 : BitVec 5) ++ fpFmtBits f ++ (0 : BitVec 2)))
  | .fle d a b f => .word (wordA 0x24 d a b ((14 : BitVec 5) ++ fpFmtBits f ++ (0 : BitVec 2)))
  | .fclass d a f => .word (wordA 0x24 d a 0 ((15 : BitVec 5) ++ fpFmtBits f ++ (0 : BitVec 2)))
  | .frnd d a f m => .word (wordA 0x24 d a 0 ((16 : BitVec 5) ++ fpFmtBits f ++ roundModeBits m))
  | .fcvt d a t s m => .word (wordA 0x25 d a 0 ((0 : BitVec 3) ++ fpFmtBits t ++ fpFmtBits s ++ roundModeBits m))
  | .ftoi d a s m => .word (wordA 0x25 d a 0 ((1 : BitVec 3) ++ (0 : BitVec 2) ++ fpFmtBits s ++ roundModeBits m))
  | .fton d a s m => .word (wordA 0x25 d a 0 ((2 : BitVec 3) ++ (0 : BitVec 2) ++ fpFmtBits s ++ roundModeBits m))
  | .itof d a t m => .word (wordA 0x25 d a 0 ((3 : BitVec 3) ++ fpFmtBits t ++ (0 : BitVec 2) ++ roundModeBits m))
  | .ntof d a t m => .word (wordA 0x25 d a 0 ((4 : BitVec 3) ++ fpFmtBits t ++ (0 : BitVec 2) ++ roundModeBits m))
  | .b8tof d a t => .word (wordA 0x25 d a 0 ((5 : BitVec 3) ++ fpFmtBits t ++ (0 : BitVec 2) ++ (0 : BitVec 2)))
  | .ftob8 d a s => .word (wordA 0x25 d a 0 ((6 : BitVec 3) ++ (0 : BitVec 2) ++ fpFmtBits s ++ (0 : BitVec 2)))
  | .padd d a b h => .word (wordA 0x28 d a b ((0 : BitVec 5) ++ pkShapeBits h ++ (0 : BitVec 2)))
  | .psub d a b h => .word (wordA 0x28 d a b ((1 : BitVec 5) ++ pkShapeBits h ++ (0 : BitVec 2)))
  | .pmul d a b h => .word (wordA 0x28 d a b ((2 : BitVec 5) ++ pkShapeBits h ++ (0 : BitVec 2)))
  | .padds d a b h => .word (wordA 0x28 d a b ((3 : BitVec 5) ++ pkShapeBits h ++ (0 : BitVec 2)))
  | .psubs d a b h => .word (wordA 0x28 d a b ((4 : BitVec 5) ++ pkShapeBits h ++ (0 : BitVec 2)))
  | .pmin d a b h => .word (wordA 0x28 d a b ((5 : BitVec 5) ++ pkShapeBits h ++ (0 : BitVec 2)))
  | .pmax d a b h => .word (wordA 0x28 d a b ((6 : BitVec 5) ++ pkShapeBits h ++ (0 : BitVec 2)))
  | .pminn d a b h => .word (wordA 0x28 d a b ((7 : BitVec 5) ++ pkShapeBits h ++ (0 : BitVec 2)))
  | .pmaxn d a b h => .word (wordA 0x28 d a b ((8 : BitVec 5) ++ pkShapeBits h ++ (0 : BitVec 2)))
  | .pceq d a b h => .word (wordA 0x28 d a b ((9 : BitVec 5) ++ pkShapeBits h ++ (0 : BitVec 2)))
  | .pcgt d a b h => .word (wordA 0x28 d a b ((10 : BitVec 5) ++ pkShapeBits h ++ (0 : BitVec 2)))
  | .pshuf d a b h => .word (wordA 0x28 d a b ((11 : BitVec 5) ++ pkShapeBits h ++ (0 : BitVec 2)))
  | .pdot d a b h => .word (wordA 0x28 d a b ((12 : BitVec 5) ++ pkShapeBits h ++ (0 : BitVec 2)))
  | .rngp d a b => .word (wordA 0x29 d a b 0)
  | .rngf64 d a => .word (wordA 0x29 d a 0 1)
  | .rngf32 d a => .word (wordA 0x29 d a 0 2)
  | .rpinit a b => .word (wordA 0x2C 0 a b 0)
  | .rparr d a b => .word (wordA 0x2C d a b 1)
  | .rpexp a b => .word (wordA 0x2C 0 a b 2)
  | .rpwait d a b => .word (wordA 0x2C d a b 3)
  | .rptest d a => .word (wordA 0x2C d a 0 4)
  | .dcdec a => .word (wordA 0x2C 0 a 0 5)
  | .fres a b => .word (wordA 0x2C 0 a b 6)
  | .fpois a b => .word (wordA 0x2C 0 a b 7)
  | .fwait d a b => .word (wordA 0x2C d a b 8)
  | .flink a b => .word (wordA 0x2C 0 a b 9)
  | .ftest d a => .word (wordA 0x2C d a 0 10)
  | .spawn a => .word (wordA 0x2D 0 a 0 0)
  | .spawnr d a b => .word (wordA 0x2D d a b 1)
  | .exit => .word (wordA 0x2D 0 0 0 2)
  | .yield => .word (wordA 0x2D 0 0 0 3)
  | .tkey d a b => .word (wordA 0x2D d a b 4)
  | .rsset d a b => .word (wordA 0x2D d a b 5)
  | .rsclr a b => .word (wordA 0x2D 0 a b 6)
  | .rsqry d a => .word (wordA 0x2D d a 0 7)
  | .waitwp d w b => .word (wordA 0x2D d ((0 : BitVec 1) ++ w) b 8)
  | .msnd a b => .word (wordA 0x2D 0 a b 9)
  | .mrcv d b => .word (wordA 0x2D d 0 b 10)
  | .clid d => .word (wordA 0x2D d 0 0 11)
  | .serve d a n r s => .word ((3 : BitVec 2) ++ (0x30 : BitVec 6) ++ d ++ a ++ n ++ r ++ s)
  | .strm a b => .word (wordA 0x31 0 a b 0)
  | .strmr a => .word (wordA 0x31 0 a 0 1)
  | .copy a => .word (wordA 0x31 0 a 0 2)
  | .copyp a => .word (wordA 0x31 0 a 0 3)
  | .gather a => .word (wordA 0x31 0 a 0 4)
  | .umbra d a b => .word (wordA 0x31 d a b 5)
  | .publish a b => .word (wordA 0x31 0 a b 6)
  | .rcopy a => .word (wordA 0x31 0 a 0 7)
  | .talloc d a => .word (wordA 0x34 d a 0 0)
  | .tfree a => .word (wordA 0x34 0 a 0 1)
  | .tshape d a => .word (wordA 0x34 d a 0 2)
  | .tshget d a => .word (wordA 0x34 d a 0 3)
  | .tld d a b => .word (wordA 0x34 d a b 4)
  | .tst d a b => .word (wordA 0x34 d a b 5)
  | .tzero d => .word (wordA 0x34 d 0 0 6)
  | .tmma d a b => .word (wordA 0x34 d a b 7)
  | .tadd d a b => .word (wordA 0x34 d a b 8)
  | .tmul d a b => .word (wordA 0x34 d a b 9)
  | .tmax d a b => .word (wordA 0x34 d a b 10)
  | .trsum d a => .word (wordA 0x34 d a 0 11)
  | .trmax d a => .word (wordA 0x34 d a 0 12)
  | .texp2 d a => .word (wordA 0x34 d a 0 13)
  | .tscan d a b => .word (wordA 0x34 d a b 14)
  | .tcvt d a b => .word (wordA 0x34 d a b 15)
  | .tgete d a b => .word (wordA 0x34 d a b 16)
  | .tsete d a b => .word (wordA 0x34 d a b 17)
  | .tchain d a => .word (wordA 0x34 d a 0 18)
  | .tsync => .word (wordA 0x34 0 0 0 19)
  | .cfmt d a => .word (wordA 0x35 ((0 : BitVec 4) ++ d) a 0 0)
  | .cstep d a b => .word (wordA 0x35 ((0 : BitVec 4) ++ d) a b 1)
  | .cmerge d => .word (wordA 0x35 ((0 : BitVec 4) ++ d) 0 0 2)
  | .cdrain d a b => .word (wordA 0x35 d ((0 : BitVec 4) ++ a) b 3)
  | .cclr d => .word (wordA 0x35 ((0 : BitVec 4) ++ d) 0 0 4)
  | .cdepth d a => .word (wordA 0x35 d ((0 : BitVec 4) ++ a) 0 5)
  | .calloc d a => .word (wordA 0x35 d a 0 6)
  | .cfree a => .word (wordA 0x35 0 a 0 7)
  | .trap c => 
      .word (wordA 0x38 ((0 : BitVec 3) ++ c.extractLsb' 10 2) (c.extractLsb' 5 5) (c.extractLsb' 0 5) 0)
  | .sysc d a b => .word (wordA 0x38 d a b 1)
  | .eret => .word (wordA 0x38 0 0 0 2)
  | .mfs d n => .word (wordA 0x38 d (n.extractLsb' 5 5) (n.extractLsb' 0 5) 3)
  | .mts s n => .word (wordA 0x38 s (n.extractLsb' 5 5) (n.extractLsb' 0 5) 4)
  | .cyc d => .word (wordA 0x38 d 0 0 5)
  | .perf d a => .word (wordA 0x38 d a 0 6)
  | .cinv a b => .word (wordA 0x38 0 a b 7)
  | .tlbinv a b => .word (wordA 0x38 0 a b 8)
  | .brk => .word (wordA 0x38 0 0 0 9)
  | .nop => .word (wordA 0x38 0 0 0 10)
  | .wake d a b => .word (wordA 0x38 d a b 11)
  | .halt => .word (wordA 0x38 0 0 0 12)
  | .udf x => .half ((0 : BitVec 6) ++ x)
  | .mov16 d s => .half (half0 1 d s 0)
  | .add16 d s => .half (half0 2 d s 0)
  | .sub16 d s => .half (half0 3 d s 0)
  | .and16 d s => .half (half0 4 d s 0)
  | .or16 d s => .half (half0 5 d s 0)
  | .xor16 d s => .half (half0 6 d s 0)
  | .shl16 d s => .half (half0 7 d s 0)
  | .shr16 d s => .half (half0 8 d s 0)
  | .sra16 d s => .half (half0 9 d s 0)
  | .ldd16 d s => .half (half0 10 d s 0)
  | .std16 d s => .half (half0 11 d s 0)
  | .ldw16 d s => .half (half0 12 d s 0)
  | .stw16 d s => .half (half0 13 d s 0)
  | .jr16 s => .half (half0 14 0 s 0)
  | .jlr16 s => .half (half0 14 0 s 1)
  | .nop16 => .half (half0 15 0 0 0)
  | .ret16 => .half (half0 15 0 0 1)
  | .exit16 => .half (half0 15 0 0 2)
  | .yield16 => .half (half0 15 0 0 3)
  | .addi16 d i => .half (half1 0 d i)
  | .li16 d i => .half (half1 1 d i)
  | .shli16 d i => .half (half1 2 d ((0 : BitVec 1) ++ i))
  | .shri16 d i => .half (half1 3 d ((0 : BitVec 1) ++ i))
  | .ldsp d i => .half (half1 4 d i)
  | .stsp d i => .half (half1 5 d i)
  | .beqz d i => .half (half1 6 d i)
  | .bnez d i => .half (half1 7 d i)
  | .j16 i => .half (half2 0 i)
  | .jl16 i => .half (half2 1 i)
  | .trap16 i => .half (half2 2 i)
  | .illegalEncoding _ _ => .none
  | .instructionFetchFault => .none
  | .taskForwardArrive _ => .none
  | .taskDispatch _ => .none
  | .rangeInstancePlace _ _ => .none
  | .rangeSteal _ _ => .none
  | .taskAging _ => .none
  | .checkpointTake _ => .none
  | .summitHolderDispatch _ _ => .none
  | .summitReport _ _ _ => .none
  | .commit _ _ => .none
  | .irrevocableCommit _ _ => .none
  | .tileRequestGrant _ => .none
  | .tileQueueExecute _ => .none
  | .tchainMessageArrive _ => .none
  | .directoryUpdate _ => .none
  | .memoryAccessRetire _ => .none
  | .rdcInvalidate _ => .none
  | .walkComplete _ => .none
  | .engineLineDeliver _ => .none
  | .engineComplete _ => .none
  | .publishFlip _ _ => .none
  | .imageFetchDone _ _ => .none
  | .imageLoadDone _ _ => .none
  | .packetEntry _ _ => .none
  | .elementFire _ _ _ => .none
  | .ageAccessComplete _ _ _ => .none
  | .delayEmit _ _ _ => .none
  | .streamEngineEmit _ _ _ => .none
  | .serveResultsReturn _ _ => .none
  | .streamComplete _ _ => .none
  | .streamFatalStop _ _ => .none
  | .fabricRelease _ _ => .none
  | .rateWindow => .none
  | .belayGrant _ => .none
  | .belayStretchLimit _ => .none
  | .tailDoorbell _ _ _ => .none
  | .svcheadWrite _ _ => .none
  | .eventHandoff _ => .none
  | .pad _ _ => .none
  | .nopPacket _ _ => .none
  | .launch _ _ => .none
  | .signalResolve _ _ => .none
  | .signalRopeBytes _ _ => .none
  | .signalBadKind _ _ => .none
  | .waitf _ _ => .none
  | .waitfResolved _ _ => .none
  | .reply _ _ => .none
  | .queueSwitchOut _ _ => .none
  | .queueSwitchIn _ _ => .none
  | .watchdogExpire _ => .none
  | .watchdogRecovery _ => .none
  | .hostCxlMemAccess _ _ _ _ => .none
  | .atsPageResponse _ _ => .none
  | .rcopyRemoteArrival _ _ _ _ _ _ _ => .none
  | .pdescWrite _ _ => .none
  | .pshareWrite _ _ => .none
  | .umbpoolWrite _ _ => .none
  | .sdctlShootdown _ _ => .none
  | .shootdownReceive _ _ => .none
  | .s2Install _ _ => .none
  | .s2Free _ _ => .none
  | .s2Protect _ _ => .none
  | .s2cmdUnassigned _ _ => .none
  | .frameScrubDone _ => .none
  | .protectWritebackDone _ => .none
  | .s2wakeWrite _ _ => .none
  | .ctxcmdSliceEnd _ _ => .none
  | .terminatorTokenArrive _ _ => .none
  | .ctxcmdStop _ _ => .none
  | .ctxcmdFabricDrain _ _ => .none
  | .ctxcmdDirtyReport _ _ => .none
  | .ctxcmdIgnored _ _ => .none
  | .fabricHangReport _ _ => .none
  | .functionLevelReset _ => .none
  | .pcapWrite _ => .none
  | .watchSample => .none
  | .patrolScrub _ _ => .none
  | .datapathErrorLate _ => .none
  | .deviceResetBoot _ => .none
  | .registerWrite _ _ _ => .none
  | .queueRearm _ _ => .none
  | .cxlLinkTraining _ _ => .none
  | .flitCrcReplay _ => .none
  | .spdmRequest _ => .none
  | .recoveryImageWrite _ => .none
  | .vfResetComplete _ => .none

/-- The two bytes of a halfword, low byte first (00 R5). -/
def halfBytes (h : BitVec 16) : List Byte := [h.extractLsb' 0 8, h.extractLsb' 8 8]

/-- The bytes of an instruction in memory: the first halfword, bits 31:16, at the lower address (00 R6). -/
def encode (i : Instr) : List Byte :=
  match encodeWords i with
  | .half h => halfBytes h
  | .word w => halfBytes (w.extractLsb' 16 16) ++ halfBytes (w.extractLsb' 0 16)
  | .none => []

/-- The length of an instruction in bytes (03 R77): 2, 4, or 0 for a step without an encoding. -/
def Instr.len (i : Instr) : Nat :=
  match encodeWords i with
  | .half _ => 2
  | .word _ => 4
  | .none => 0

/-- The bytes that hold an instruction of the opcode table: 16 bits as one halfword, otherwise a 32-bit word. -/
def tableBytes (nbits w : Nat) : List Byte :=
  if nbits ≤ 16 then halfBytes (BitVec.ofNat 16 w)
  else halfBytes (BitVec.ofNat 16 (w / 65536)) ++ halfBytes (BitVec.ofNat 16 w)

/-- The instruction that the decoder reads from an opcode-table word; `none` where it refuses the encoding. -/
def decodeTableWord (nbits w : Nat) : Option Instr :=
  match decodeBytes (tableBytes nbits w) with
  | some (.illegalEncoding _ _, _) => none
  | some (i, _) => some i
  | none => none

end Sys2Proof
end

