-- ==== Sys2Proof/Machine/Tasks.lean ====
section
/-! DEFINITION. The `TASK` major: headers, spawning, exiting, yielding, keys, residency, write pointers, messages and identity
(07 R169 to R188; 01 R22, R36 to R38). -/

namespace Sys2Proof.Machine

/-! ### Headers (07 R169 to R171) -/

/-- The fields of a header's 128 bytes; slots and descriptors at or beyond the counts are ignored. -/
def Header.ofBytes (bs : List Byte) : Header :=
  let ctrl := blockD bs 0x18
  { entry := blockD bs 0, arg := blockD bs 8, key := blockD bs 0x10, ctrl := ctrl,
    succ := (upFrom 0 (Nat.min (bits ctrl 6 3) 4)).map fun i => blockD bs (0x20 + 8 * i),
    tiles := (upFrom 0 (Nat.min (bits ctrl 9 3) 4)).map fun i =>
      { base := blockD bs (0x40 + 16 * i), extent := blockN bs (0x48 + 16 * i) 4,
        stride := signedN (blockN bs (0x4C + 16 * i) 4) 32 } }

/-- One half of a header: the steps of 05 R129 for its line, with the header's address in every record. -/
def State.readHalf (s : State) (hdr va : Word) : Acc (List Byte × Loc) :=
  let trap : TrapRec := { kind := 0, taddr := hdr, tinfo := accInfo 1 3 1 }
  (s.firstAccess.locate va 0 trap).bind fun l s =>
    match l with
    | .dram p g =>
      if ((s.part p).windowAt g).isSome then .trap (structTrap 0x03 hdr 8 0) s
      else (s.structHome l false trap).bind fun _ s =>
        if s.speculative && s.noSigRoom l then .wait s.stallSummit
        else if (if s.speculative then s.specPoisoned s.curCluster s.curUid l 64 else s.poisonedAt l 64) then
          (if s.speculative && !s.holdsSummit then .wait s.abortCurrent else .trap { trap with kind := 0x10 } s)
        else
          let s := if s.speculative then s.sign l else s
          let bs := s.bytesAt l 64
          .ok (if s.speculative then (s.cluster s.curCluster).overlay s.curUid l bs else bs, l) s
    | _ => .trap (structTrap 0x03 hdr 8 0) s

/-- A header read whole: its fields and its guest-physical address (07 R171 step 1). DEDUCED (log 25). DEDUCED (log 34). -/
def State.readHeader (s : State) (hdr : Word) : Acc (Header × Nat) :=
  if hdr.toNat % 64 ≠ 0 then .trap { kind := 0x02, taddr := hdr, tinfo := accInfo 1 3 1 } s
  else (s.readHalf hdr hdr).bind fun a s =>
    (s.readHalf hdr (hdr + 64)).bind fun b s => .ok (Header.ofBytes (a.1 ++ b.1), a.2.offset) s

/-- The first check of steps 2 to 10 of 07 R171 that a header fails: trap kind and cause. `n` is the count of a range, and
`own` the key of a spawning ordered task. -/
def Header.fault (h : Header) (registered : Bool) (n : Option Nat) (own : Option Word) : Option (Nat × Nat) :=
  let count := n.getD 1
  if 2 ≤ bits h.ctrl 0 2 then some (0x01, 7)
  else if 4 < bits h.ctrl 6 3 ∨ 4 < bits h.ctrl 9 3 then some (0x03, 1)
  else if bits h.ctrl 12 4 ≠ 0 then some (0x03, 2)
  else if !h.ordered ∧ h.key ≠ 0 then some (0x03, 3)
  else if bit h.entry 0 then some (0x03, 4)
  else if h.succ.any (fun a => a.toNat % 64 != 0) then some (0x03, 5)
  else if registered then some (0x03, 6)
  else if 2 ^ 32 ≤ count ∨ (h.ordered ∧ 2 ^ 64 < h.key.toNat + count) then some (0x03, 7)
  else match own with
    | some k => if h.ordered ∧ h.key.toNat < k.toNat then some (0x0D, 1) else none
    | none => none

/-- A header of a partition is registered (07 R170). -/
def State.registered (s : State) (p gpa : Nat) : Bool := s.regs.any fun r => r.part == p && r.gpa == gpa

/-- A header registered at its home: ready at once when its counter is 0, else held in a bivouac record; `none` when the
record finds no room (07 R168, R172). -/
def State.register (s : State) (p c : Nat) (va : Word) (gpa : Nat) (h : Header) (n : Option Nat) (spawner : Option Nat) :
    Option (Registration × State) :=
  let (id, s) := s.newUid
  let r : Registration := { id := id, part := p, ctx := c, va := va, gpa := gpa, hdr := h, range := n.isSome, n := n.getD 1,
                            held := decide (h.deps ≠ 0), live := n.getD 1, ended := false, spawner := spawner }
  let s := { s with regs := s.regs ++ [r] }
  let die := s.regDie r
  if h.deps = 0 then some (r, s.makeReady r)
  else (s.record { die := die, part := p, ctx := c, gpa := gpa, kind := .held id, spill := false }).map fun s =>
    (r, if h.ordered then s.noteKey p c die h.key else s)

/-! ### Successor decrements (01 R36) -/

/-- The decrements of successor slots from slot i on, in slot order; `mark` records how far they have come. -/
def State.decrementSlots (mark : Nat → State → State) : List Word → Nat → State → Acc Unit
  | [], _, s => .ok () s
  | va :: rest, i, s =>
    ((mark i s).structure_ va 64 1).bind fun l s =>
      let r := s.decrement s.curPart l.offset
      if r.1 then .trap (structTrap 0x0A va 1 i) (mark (i + 1) r.2)
      else State.decrementSlots mark rest (i + 1)
        (mark (i + 1) (r.2.claimWrite s.curCluster s.curUid s.curPart l.offset))

/-- Every address of a list translated and granted, before anything is done with them. -/
def State.touchSlots : List Word → State → Acc Unit
  | [], s => .ok () s
  | va :: rest, s => (s.structure_ va 64 1).bind fun _ s => State.touchSlots rest s

/-! ### `SPAWN` and `SPAWNR` (07 R171 to R173) -/

/-- The binding checks of `SPAWNR` (07 R164): the rope's guest-physical address, if one is to be bound. -/
def State.bindable (s : State) (rope : Word) (bind : Bool) : Acc (Option Nat) :=
  if !bind then .ok none s
  else (s.structure_ rope 16 1).bind fun l s =>
    let p := s.curPart
    let w := s.readD p l.offset
    if (s.binding? p l.offset).isSome ∨ 1024 ≤ (s.part p).bindings.length ∨ ropeBroken w then
      .trap (ropeTrap' rope w) s
    else .ok (some l.offset) s
where
  /-- The record of a refused binding: kind rope misuse, cause 6. -/
  ropeTrap' (rope w : Word) : TrapRec := structTrap 0x12 rope 6 (ropePend w)

/-- A rope bound to a range that has been registered; the break test applies (07 R164). DEDUCED (log 22). -/
def State.bindRope (s : State) (r : Registration) (g : Nat) : State :=
  (s.mapPart r.part fun t =>
    { t with bindings := t.bindings ++ [{ part := r.part, gpa := g, reg := r.id, live := r.n, arrived := [] }] }).testBreak
      r.part g

/-- A rope of the partition that an instruction of the running thread has broken between two states: the copies through which its
cluster's loads pass are gone (05 R124; 12 R296, R300). -/
def State.claimBreak (before after : State) (p : Nat) (g : Option Nat) : State :=
  match g with
  | some g =>
    if ropeBroken (before.readD p g) = ropeBroken (after.readD p g) then after
    else after.claimWrite before.curCluster before.curUid p g
  | none => after

/-- `SPAWN`, or `SPAWNR` with a count and a rope; `w` is the instruction's word for an illegal trap. DEDUCED (log 22).
DESIGN CHOICE (log 58). -/
def State.spawn (s : State) (k : Task) (hdr w : Word) (n : Option Nat) (rope : Word) : Acc Unit :=
  let range := n.isSome
  ((s.release .prt).readHeader hdr).bind fun hg s =>
    let h := hg.1
    let g := hg.2
    let own := if k.cls = .ordered then some k.key else none
    if s.speculative && bits h.ctrl 0 2 == 0 then .wait s.stallSummit
    else match h.fault (s.registered k.part g) n own with
      | some (kind, cause) =>
        .trap (structTrap kind hdr cause (if kind = 0x01 then w.toNat else 0)) s
      | none =>
        (s.bindable rope (range && decide (rope ≠ 0) && n != some 0)).bind fun b s =>
          if n = some 0 then
            (State.touchSlots h.succ s).bind fun _ s => State.decrementSlots (fun _ s => s) h.succ 0 s
          else match s.register k.part k.ctx hdr g h n (if s.speculative then some k.uid else none) with
            | none => .trap (structTrap 0x0C hdr 5 0) s
            | some (r, s) =>
              match b with
              | some g => .ok () (s.claimBreak (s.bindRope r g) r.part (some g))
              | none => .ok () s

/-- `SPAWN` (07 R172). -/
def execSpawn (a : Reg) (s : State) : Out :=
  s.needTask "SPAWN" fun k =>
    (s.spawn k (s.g a) (word (wordA 0x2D 0 a 0 0).toNat) none 0).run fun _ s => s.advance 4

/-- `SPAWNR` (07 R173, R164; 01 R38). -/
def execSpawnr (d a b : Reg) (s : State) : Out :=
  s.needTask "SPAWNR" fun k =>
    (s.spawn k (s.g a) (word (wordA 0x2D d a b 1).toNat) (some (s.g b).toNat) (if d = 0 then 0 else s.g d)).run
      fun _ s => s.advance 4

/-! ### `EXIT` (01 R36, R37; 07 R175) -/

/-- A free task whose decrements are done is gone: a bound rope counts the exit, the registration counts the instance, and
the context is free (01 R36, 07 R164). -/
def State.retireFree (s : State) (k : Task) : State :=
  let t := s.cur.id
  let rope := ((s.part k.part).bindings.find? fun b => b.reg == k.reg).map (·.gpa)
  let s := (s.claimBreak (s.memberExit k.part k.reg k.idx) k.part rope).instanceEnd k.reg true
  (s.forget t k.uid).freeContext t

/-- The successors that an instance's exit decrements: those of the header for the last instance of a registration none of
whose instances ended under 10 R258 (01 R38). -/
def State.successors (s : State) (k : Task) : List Word :=
  match s.reg? k.reg with
  | some r => if r.live ≤ 1 ∧ !r.ended then r.hdr.succ else []
  | none => []

/-- An ordered task is finished and not committed; its context is free, its SSB lines and umbras are held (01 R37). -/
def State.finishOrdered (s : State) (k : Task) : State :=
  let t := s.cur.id
  let s := s.freeArray s.curCluster k.uid
  let s := s.mapCtx k.part k.ctx fun x => { x with finished := x.finished ++ [{ k with finished := some (tidDie t) }] }
  ((s.forget t k.uid).freeContext t).raise .report (tidDie t) k.part k.ctx

/-- The `EXIT` of a free task: its tiles and sets are freed and its stores released once, then the decrements are issued from
where an earlier `EXIT` stopped. -/
def State.exitFree (s : State) (k : Task) : Out :=
  let i := k.exitAt.getD 0
  let s := if k.exitAt.isNone then ((s.freeArray s.curCluster k.uid).release .prt).mapTask fun x => { x with exitAt := some 0 }
    else s
  (State.decrementSlots (fun n s => s.mapTask fun x => { x with exitAt := some n }) ((s.successors k).drop i) i s).run
    fun _ s => s.retireFree k

/-- `EXIT`: it waits for the task's tile queue first. A loader program's ends its part of the request (08 R206). -/
def State.exitTask (s : State) (mnemonic : String) : Out :=
  s.needTask mnemonic fun k =>
    if !s.cur.tq.isEmpty then .next (s.setWait .queue)
    else if k.loader.isSome then .next (s.endLoader none 0)
    else match k.cls with
      | .free => s.exitFree k
      | .ordered => .next (s.finishOrdered k)

/-- `EXIT` (07 R175). -/
def execExit (s : State) : Out := s.exitTask "EXIT"

/-! ### `YIELD` and keys (07 R176 to R178) -/

/-- `YIELD`, an instruction of `len` bytes: if the head's priority is at least the task's, the task is checkpointed and the
head dispatched; no effect for the summit holder, without room, or for a loader program. -/
def State.yield (s : State) (mnemonic : String) (len : Nat) : Out :=
  s.needTask mnemonic fun k =>
    let cl := s.curCluster
    match queueHead ((s.dispatchable cl).filter fun e => e.bound.isNone) with
    | none => .next (s.advance len)
    | some h =>
      if k.loader.isSome ∨ h.prio < k.prio ∨ s.isHolder k ∨ !s.canPark cl k.part k.ctx false then .next (s.advance len)
      else if !s.cur.queueAtRest then .next (s.setWait .queue)
      else
        let s := (s.advance len).checkpointRunning
        match s.freeSlot cl with
        | some t => .next (s.startEntry cl t h)
        | none => .next s

/-- `YIELD` (07 R176). -/
def execYield (s : State) : Out := s.yield "YIELD" 4

/-- `TKEY`: in an ordered task a result below `KEY` traps key regression, cause 2 (07 R178). -/
def execTkey (d a b : Reg) (s : State) : Out :=
  let v := word (bits (s.g a) 0 48 * 2 ^ 16 + bits (s.g b) 0 16)
  match s.cur.task with
  | some k =>
    if k.cls = .ordered ∧ v.toNat < k.key.toNat then .next (s.takeTrap (structTrap 0x0D 0 2 0)) else s.result d v
  | none => s.result d v

/-! ### Residency (07 R179 to R182) -/

/-- The regions that a cairn entry overlaps; a non-canonical base overlaps none (01, 07 R179). -/
def Cairn.regions (c : Cairn) : List Nat :=
  if c.valid && canonical c.base.toNat then regionsOf (c.base.toNat, c.units * 4096) else []

/-- A change of a cluster's cairn table is on its way to the directories of its own die and of each region (07 R181).
DESIGN CHOICE (log 49). -/
def State.updateDirectories (s : State) (p cl : Nat) (regions : List Nat) : State :=
  s.each regions.eraseDups fun s m =>
    s.each [dieOfCluster cl, (s.part p).directoryDie m].eraseDups fun s d =>
      (s.mapDie d fun k => { k with dirQ := k.dirQ ++ [{ part := p, cl := cl, region := m }] }).raise .dirUpdate d 0 0

/-- The index that a new cairn entry takes: the valid entry with its base, the lowest-numbered invalid one, or the one set
longest ago (07 R179). -/
def Cluster.cairnSlot (c : Cluster) (base : Word) : Nat :=
  let valid (i : Nat) : Bool := ((c.cairn.get? i).map fun e => e.valid).getD false
  match c.cairn.find? fun e => e.2.valid && e.2.base == base with
  | some e => e.1
  | none =>
    match (upFrom 0 64).find? fun i => !valid i with
    | some i => i
    | none => (c.cairn.foldl (fun b e => if e.2.setAt < b.2 then (e.1, e.2.setAt) else b)
        (0, ((c.cairn.get? 0).map fun e => e.setAt).getD 0)).1

/-- A cairn entry written on a cluster: its index and the state after it (07 R179, 08 R203). -/
def State.setCairn (s : State) (p cl : Nat) (base : Word) (units kind : Nat) : Nat × State :=
  let (now, s) := s.newUid
  let i := (s.cluster cl).cairnSlot base
  let old := (((s.cluster cl).cairn.get? i).map Cairn.regions).getD []
  let e : Cairn := { base := base, units := units, kind := kind, valid := true, setAt := now }
  (i, (s.mapCluster cl fun c => { c with cairn := c.cairn.put i e }).updateDirectories p cl (old ++ e.regions))

/-- The record of a misaligned `RSSET` or `RSCLR` base (10 R256). -/
def baseTrap (va : Word) : TrapRec := { kind := 0x02, taddr := va, tinfo := accInfo 1 3 1 }

/-- `RSSET` (07 R179). -/
def execRsset (d a b : Reg) (s : State) : Out :=
  s.needTask "RSSET" fun k =>
    if (s.g a).toNat % 4096 ≠ 0 then .next (s.takeTrap (baseTrap (s.g a)))
    else
      let r := s.setCairn k.part s.curCluster (s.g a) (bits (s.g b) 0 16 + 1) (bits (s.g b) 16 1)
      r.2.result d (word r.1)

/-- `RSCLR` (07 R180). -/
def execRsclr (a b : Reg) (s : State) : Out :=
  s.needTask "RSCLR" fun k =>
    let all := bit (s.g b) 63
    if !all ∧ (s.g a).toNat % 4096 ≠ 0 then .next (s.takeTrap (baseTrap (s.g a)))
    else
      let cl := s.curCluster
      let lo := (s.g a).toNat
      let hi := lo + (bits (s.g b) 0 16 + 1) * 4096
      let hit (c : Cairn) : Bool :=
        c.valid && (all || (decide (c.base.toNat < hi) && decide (lo < c.base.toNat + c.units * 4096)))
      let gone := ((s.cluster cl).cairn.filter fun e => hit e.2).flatMap fun e => e.2.regions
      let s := s.mapCluster cl fun c =>
        { c with cairn := c.cairn.map fun e => (e.1, if hit e.2 then { e.2 with valid := false } else e.2) }
      (s.updateDirectories k.part cl gone).pass

/-- `RSQRY`: where placement would put the task of a header now (07 R182, 01 R26). DESIGN CHOICE (log 71). -/
def execRsqry (d a : Reg) (s : State) : Out :=
  s.needTask "RSQRY" fun k =>
    (s.readHeader (s.g a)).run fun hg s =>
      let die := s.homeDie k.part hg.2
      let tiles := hg.1.tilesOf 0
      let byTiles := if tiles.isEmpty then none else s.placeByTiles k.part k.ctx die tiles
      let cl := byTiles.getD (s.roundRobin k.part die).1
      (s.setG d (word ((s.part k.part).logicalCl cl))).advance 4

/-- `DIRECTORY_UPDATE`: the next change that has reached a die's directory: it names a cluster for a region exactly when a
valid cairn entry of that cluster overlaps it (01, 07 R181). DESIGN CHOICE (log 49). -/
def execDirectoryUpdate (die : Nat) (s : State) : Out :=
  match (s.die die).dirQ with
  | [] => .next s
  | u :: rest =>
    let on := (s.cluster u.cl).cairn.any fun e => e.2.regions.contains u.region
    .next (s.mapDie die fun d =>
      { d with
        dirQ := rest
        dir := (if on then [(u.part, u.region, u.cl)] else []) ++ d.dir.filter fun e => decide (e ≠ (u.part, u.region, u.cl)) })

/-! ### Write pointers, messages and identity (07 R183 to R187) -/

/-- `WAITWP` (07 R184). DESIGN CHOICE (log 71). -/
def execWaitwp (d : Reg) (n : BitVec 4) (b : Reg) (s : State) : Out :=
  s.needTask "WAITWP" fun k =>
    let cl := s.curCluster
    let w := s.wp cl n.toNat
    if w.brk || decide ((s.g b).toNat ≤ w.count) || w.req.isNone then s.result d (wpWord w)
    else (s.parkOn { die := dieOfCluster cl, part := k.part, ctx := k.ctx, gpa := 0,
                     kind := .wp k.uid cl n.toNat (s.g b).toNat, spill := false }
      4 0 (.waitwp d n.toNat) fun s => s).run fun _ s => s

/-- Messages that a cluster inbox holds per context (07 R185). -/
def inboxRoom : Nat := 64

/-- The messages of a context in a cluster's inbox. -/
def Cluster.messages (c : Cluster) (p x : Nat) : List Msg := c.inbox.filter fun m => m.part == p && m.ctx == x

/-- `MSND`: the message is queued in the cluster inbox or behind it in memory, or the thread waits for a place (07 R185).
DESIGN CHOICE (log 35). -/
def execMsnd (a b : Reg) (s : State) : Out :=
  s.needTask "MSND" fun k =>
    if s.speculative then .next s.stallSummit
    else
      let s := s.release .prt
      let t := s.part k.part
      let l := (s.g a).toNat
      if t.clusters ≤ l then .next (s.takeTrap (structTrap 0x03 0 9 0))
      else
        let cl := t.globalCl l
        let m : Msg := { part := k.part, ctx := k.ctx, sender := t.logicalCl s.curCluster, payload := s.g b }
        let queued := t.inboxOf l k.ctx
        if t.residentAt l = some k.ctx ∧ queued.isEmpty ∧ ((s.cluster cl).messages k.part k.ctx).length < inboxRoom then
          (s.mapCluster cl fun c => { c with inbox := c.inbox ++ [m] }).pass
        else if queued.length < inboxSize then (s.toInbox k.part l k.ctx (.msg m)).pass
        else .next ((s.toInbox k.part l k.ctx (.send s.cur.id k.uid m)).setWait (.inbox true))

/-- A thread that waits in `MSND` with a message: the message is queued, and the instruction is over (07 R185). -/
def State.sent_ (s : State) (t : Tid) (uid : Nat) : State :=
  s.asThread t fun s => if s.curUid = uid ∧ s.cur.wait = .inbox true then (s.setWait .ready).advance 4 else s

/-- The messages that a context's inbox for a logical cluster holds within its 4096 places are queued, and those that are not stay
held in their sending clusters (07 R185, 22 R416). -/
def State.settleInbox (s : State) (p l c : Nat) : State :=
  let items := (s.part p).inboxOf l c
  let queued := items.take inboxSize
  let senders := queued.filterMap fun i => match i with
    | .send t u _ => some (t, u)
    | _ => none
  if senders.isEmpty then s
  else
    let kept (i : InboxItem) : InboxItem := match i with
      | .send _ _ m => .msg m
      | i => i
    (s.mapPart p fun t => t.setInbox l c (queued.map kept ++ items.drop inboxSize)).each senders fun s e => s.sent_ e.1 e.2

/-- A place in a context's inbox of a logical cluster has come free: its oldest waiting message moves up, and a message that an
`MSND` waits with takes the place behind (07 R185). DEDUCED (log 50). -/
def State.inboxMoved (s : State) (p l c : Nat) : State :=
  let s := match (s.part p).inboxOf l c with
    | .msg m :: rest => (s.mapPart p fun t => t.setInbox l c rest).mapCluster ((s.part p).globalCl l) fun k =>
        { k with inbox := k.inbox ++ [m] }
    | _ => s
  s.settleInbox p l c

/-- `MRCV`: the oldest message of the inbox, or 0 without waiting (07 R186). -/
def execMrcv (d b : Reg) (s : State) : Out :=
  s.needTask "MRCV" fun k =>
    let cl := s.curCluster
    match (s.cluster cl).messages k.part k.ctx with
    | [] => .next (((s.setG d 0).setG b 0).advance 4)
    | m :: _ =>
      let s := s.mapCluster cl fun c =>
        { c with inbox := eraseFirst (fun x => x.part == k.part && x.ctx == k.ctx) c.inbox }
      let s := s.inboxMoved k.part ((s.part k.part).logicalCl cl) k.ctx
      .next ((((s.setG d m.payload).setG b (word (2 ^ 63 + m.sender))).acquire .prt).advance 4)

/-- `CLID` (07 R187). -/
def execClid (d : Reg) (s : State) : Out :=
  s.needTask "CLID" fun k =>
    let t := s.part k.part
    s.result d (word (k.ctx * 2 ^ 40 + s.cur.id.slot * 2 ^ 32 + t.clusters * 2 ^ 16 + t.logicalCl s.curCluster))

end Sys2Proof.Machine
end

