-- ==== Sys2Proof/Machine/TileStore.lean ====
section
/-! DEFINITION. Tiles and counter-bank sets as data: shape words, elements, the array's arithmetic, the counting state, and the
view that the queued instructions of a thread leave (02 R60 to R67; 09 R217 to R249). -/

namespace Sys2Proof.Machine

/-! ### Shape words (09 R222 to R225) -/

/-- `FMT`. -/
def shFmt (w : Word) : Nat := bits w 0 4

/-- Rows. -/
def shRows (w : Word) : Nat := bits w 7 7 + 1

/-- Columns. -/
def shCols (w : Word) : Nat := bits w 14 9 + 1

/-- `P`. -/
def shPrec (w : Word) : Nat := bits w 4 3

/-- `POI`. -/
def shPoi (w : Word) : Bool := bit w 62

/-- The shape without its two marks. -/
def shFields (w : Word) : Nat := bits w 0 23

/-- The width in bits of an element (09 R223). -/
def fmtBits (fmt : Nat) : Nat :=
  match fmt with
  | 1 => 32
  | 2 => 16
  | 3 => 16
  | 4 => 8
  | 5 => 32
  | 10 => 4
  | 0 => 0
  | _ => 8

/-- The length in bytes of a row. -/
def shRowBytes (w : Word) : Nat := shCols w * fmtBits (shFmt w) / 8

/-- The bytes that move as one element: the width, or 1 for formats 10 and 11 (09 R231). -/
def shUnit (w : Word) : Nat := if shFmt w = 10 then 1 else fmtBits (shFmt w) / 8

/-- A binary8 format. -/
def isB8 (fmt : Nat) : Bool := decide (6 ≤ fmt) && decide (fmt ≤ 9)

/-- FP32, BF16 or FP16. -/
def isFp (fmt : Nat) : Bool := decide (1 ≤ fmt) && decide (fmt ≤ 3)

/-- `TSHAPE` refuses a value (09 R225). -/
def shapeRefused (w : Word) : Bool :=
  bits w 23 41 != 0 || decide (12 ≤ shFmt w) || (if isB8 (shFmt w) then shPrec w == 0 else shPrec w != 0) ||
  (shFmt w == 0 && bits w 7 16 != 0) || (shFmt w == 10 && shCols w % 2 != 0) || decide (16384 < shRows w * shRowBytes w)

/-! ### Elements (09 R224) -/

/-- The raw element at an index in row order. -/
def Tile.raw (t : Tile) (n : Nat) : Nat :=
  if shFmt t.shape = 10 then (t.data.read (n / 2)).toNat / (if n % 2 = 0 then 1 else 16) % 16
  else t.data.readNat (n * shUnit t.shape) (shUnit t.shape)

/-- The raw element at a row and a column. -/
def Tile.at_ (t : Tile) (i j : Nat) : Nat := t.raw (i * shCols t.shape + j)

/-- A tile with one element written. -/
def Tile.put (t : Tile) (i j v : Nat) : Tile :=
  let n := i * shCols t.shape + j
  if shFmt t.shape = 10 then
    let b := (t.data.read (n / 2)).toNat
    let b' := if n % 2 = 0 then b / 16 * 16 + v % 16 else v % 16 * 16 + b % 16
    { t with data := t.data.write (n / 2) (BitVec.ofNat 8 b') }
  else { t with data := t.data.writeNat (n * shUnit t.shape) (shUnit t.shape) v }

/-- A tile with every element of its shape written, by row and column. -/
def Tile.fill (t : Tile) (f : Nat → Nat → Nat) : Tile :=
  let w := shUnit t.shape
  let bs := (upFrom 0 (shRows t.shape)).flatMap fun i => (upFrom 0 (shCols t.shape)).flatMap fun j => leBytes w (f i j)
  { t with data := t.data.writeBytes 0 bs }

/-- A tile marked poisoned where a source is (09 R230). -/
def Tile.poisonIf (t : Tile) (on : Bool) : Tile := if on then { t with shape := setBits t.shape 62 1 1 } else t

/-- The floating-point format of a tile format. -/
def fmtSpec (fmt : Nat) : FloatSpec :=
  match fmt with
  | 2 => specOf .bf16
  | 3 => specOf .f16
  | _ => f32

/-- The binary8 format of a shape. -/
def shB8 (w : Word) : B8Spec :=
  { p := shPrec w, uns := decide (8 ≤ shFmt w), ext := decide (shFmt w % 2 = 1) }

/-- An integer as an exact value. -/
def intVal (v : Int) : FVal := .num (decide (v < 0)) v.natAbs 0

/-- The value of a raw element of a shape (09 R223). -/
def elemVal (w : Word) (raw : Nat) : FVal :=
  if isFp (shFmt w) then (fmtSpec (shFmt w)).decode raw
  else if isB8 (shFmt w) then (shB8 w).decode raw
  else intVal (signedN raw (fmtBits (shFmt w)))

/-- A value converted into the format of a shape: a rounding mode and the overflow policy of binary8 (09 R239). -/
def elemOf (w : Word) (mode : RoundMode) (inf : Bool) (v : FVal) : Nat :=
  if isFp (shFmt w) then ((fmtSpec (shFmt w)).roundVal mode v).bits
  else if isB8 (shFmt w) then ((shB8 w).encode mode inf v).bits
  else
    let n := fmtBits (shFmt w)
    unsignedN (toInteger mode (-2 ^ (n - 1)) (2 ^ (n - 1) - 1) v).1 n

/-! ### The array's arithmetic (02 R65, R66; 09 R235 to R237) -/

/-- c + a × b, rounded once to FP32; `c` and the result are bit patterns. -/
def fuse32 (c : Nat) (a b : FVal) : Nat := (f32.fma .rne false a b (f32.decode c)).bits

/-- c + (p + q) with the pair sum exact, rounded once to FP32; `none` is an invalid product. -/
def pair32 (c : Nat) (p q : Option FVal) : Nat :=
  match p, q with
  | some x, some y =>
    if x.isNan || y.isNan then f32.nan
    else match x.add .rne y with
      | some z => (f32.add .rne (f32.decode c) z).bits
      | none => f32.nan
  | _, _ => f32.nan

/-- The product of two values; `none` for ∞ × 0, a NaN for a NaN. -/
def prodVal (a b : FVal) : Option FVal := if a.isNan || b.isNan then some (.nan false) else a.mul b

/-- The products of a list added in pairs. -/
def pairs32 : Nat → List (Option FVal) → Nat
  | c, [] => c
  | c, [p] => pair32 c p (some (.num false 0 0))
  | c, p :: q :: rest => pairs32 (pair32 c p q) rest

/-- One element of `TMMA` in floating point: A's row i with B's tile row j (02 R66). -/
def mmaFloat (ta tb : Tile) (c i j : Nat) : Nat :=
  let k := upFrom 0 (shCols ta.shape)
  let a (n : Nat) : FVal := elemVal ta.shape (ta.at_ i n)
  let b (n : Nat) : FVal := elemVal tb.shape (tb.at_ j n)
  if isB8 (shFmt ta.shape) then pairs32 c (k.map fun n => prodVal (a n) (b n))
  else k.foldl (fun c n => fuse32 c (a n) (b n)) c

/-- One element of `TMMA` in integers, exact (02 R66). -/
def mmaInt (ta tb : Tile) (c i j : Nat) : Int :=
  signedN c 32 + ((upFrom 0 (shCols ta.shape)).map fun n => signedN (ta.at_ i n) 8 * signedN (tb.at_ j n) 8).foldl (· + ·) 0

/-- The range of an I32. -/
def clamp32 (v : Int) : Int := clampI v (-2 ^ 31) (2 ^ 31 - 1)

/-- `TMMA` (09 R234). -/
def tileMma (tc ta tb : Tile) : Tile :=
  let poi := shPoi ta.shape || shPoi tb.shape
  if shFmt ta.shape = 4 then
    let wide := (upFrom 0 (shRows tc.shape)).any fun i => (upFrom 0 (shCols tc.shape)).any fun j =>
      let v := mmaInt ta tb (tc.at_ i j) i j
      decide (clamp32 v ≠ v)
    let r := tc.fill fun i j => unsignedN (clamp32 (mmaInt ta tb (tc.at_ i j) i j)) 32
    ({ r with shape := if wide then setBits r.shape 63 1 1 else r.shape }).poisonIf poi
  else (tc.fill fun i j => mmaFloat ta tb (tc.at_ i j) i j).poisonIf poi

/-- `TADD`, `TMUL` and `TMAX` by an operation on values (09 R235). -/
def tileMap2 (op : FloatSpec → FVal → FVal → FRes) (td ta tb : Tile) : Tile :=
  let f := fmtSpec (shFmt td.shape)
  (td.fill fun i j => (op f (f.decode (ta.at_ i j)) (f.decode (tb.at_ i j))).bits).poisonIf (shPoi ta.shape || shPoi tb.shape)

/-- The first element of a row in FP32, and the others folded in (09 R236). -/
def rowFold (op : FloatSpec → FVal → FVal → FRes) (ta : Tile) (i : Nat) : Nat :=
  let v (j : Nat) : FVal := elemVal ta.shape (ta.at_ i j)
  (upFrom 1 (shCols ta.shape - 1)).foldl (fun acc j => (op f32 (f32.decode acc) (v j)).bits) (f32.roundVal .rne (v 0)).bits

/-- `TRSUM` and `TRMAX` (09 R236). -/
def tileReduce (op : FloatSpec → FVal → FVal → FRes) (td ta : Tile) : Tile :=
  (td.fill fun i _ => rowFold op ta i).poisonIf (shPoi ta.shape)

/-- Bits of a power of two kept while it is rounded; far more than any tie of an FP32 result asks for. DEDUCED (log 41). -/
def expPrecision : Nat := 192

/-- 2^(n / 2^k) for n < 2^k, in units of 2^−192, rounded down: a square root for each bit of the exponent. -/
def exp2Fraction : Nat → Nat → Nat
  | 0, _ => 2 ^ expPrecision
  | k + 1, n =>
    let rest := exp2Fraction k (n % 2 ^ k)
    isqrt ((if n / 2 ^ k = 1 then 2 * rest else rest) * 2 ^ expPrecision) (expPrecision + 2) 0

/-- `TEXP2` of one value: the FP32 value nearest to 2^x, ties to even (09 R237). DEDUCED (log 41). -/
def exp2Bits (v : FVal) : Nat :=
  match v with
  | .nan _ => f32.nan
  | .inf neg => if neg then 0 else f32.inf false
  | .num neg m e =>
    let k := (-e).toNat
    let x := signedMag neg (m * 2 ^ e.toNat)
    if 129 * 2 ^ k ≤ x then f32.inf false
    else if x ≤ -151 * 2 ^ k then 0
    else
      let n := x / 2 ^ k
      let fr := (x - n * 2 ^ k).toNat
      if fr = 0 then (f32.round .rne false 1 n).bits
      else (f32.round .rne false (2 * exp2Fraction k fr + 1) (n - expPrecision - 1)).bits

/-- `TEXP2` (09 R237). -/
def tileExp2 (td ta : Tile) : Tile :=
  (td.fill fun i j => exp2Bits (f32.decode (ta.at_ i j))).poisonIf (shPoi ta.shape)

/-- The values y of one row of `TSCAN`, up to a column (09 R238). -/
def scanRow (ta tb : Tile) (i : Nat) : Nat → Nat → List Nat
  | _, 0 => []
  | y, n + 1 =>
    let j := shCols ta.shape - (n + 1)
    let y' := (f32.fma .rne false (f32.decode (ta.at_ i j)) (f32.decode y) (f32.decode (tb.at_ i j))).bits
    y' :: scanRow ta tb i y' n

/-- `TSCAN`: the result tile and the carry tile (09 R238). -/
def tileScan (td ta tb tc : Tile) : Tile × Tile :=
  let row (i : Nat) : List Nat := scanRow ta tb i (tc.at_ i 0) (shCols ta.shape)
  let poi := shPoi ta.shape || shPoi tb.shape || shPoi tc.shape
  ((td.fill fun i j => ((row i)[j]?).getD 0).poisonIf poi, (tc.fill fun i _ => ((row i).getLast?).getD 0).poisonIf poi)

/-- `TCVT`: bits 1:0 of the options are the mode, bit 2 the overflow policy (09 R239). -/
def tileCvt (td ta : Tile) (opts : Nat) : Tile :=
  let inf := decide (opts / 4 % 2 = 1)
  (td.fill fun i j => elemOf td.shape (roundModeAt opts) inf (elemVal ta.shape (ta.at_ i j))).poisonIf (shPoi ta.shape)

/-- `TGETE` of an element: integers sign-extended, everything else zero-extended (09 R233). -/
def Tile.getElem (t : Tile) (i j : Nat) : Word :=
  let v := t.at_ i j
  if shFmt t.shape = 4 ∨ shFmt t.shape = 5 then wordI (signedN v (fmtBits (shFmt t.shape))) else word v

/-- The sum of a predecessor's tile and the own one, element by element (02 R67). -/
def tileChain (td : Tile) (pred : Memory) (poi : Bool) : Tile :=
  let p : Tile := { td with data := pred }
  (td.fill fun i j => (f32.add .rne (f32.decode (p.at_ i j)) (f32.decode (td.at_ i j))).bits).poisonIf (poi || shPoi td.shape)

/-! ### Counting (02 R63, R64; 09 R243 to R248) -/

/-- The key of a counter. -/
def counterKey (i j bank index : Nat) : Nat := ((i * 64 + j) * 5 + bank) * 32 + index

/-- A counter of a set. -/
def BankSet.count (b : BankSet) (key : Nat) : Int := (Tbl.get? b.counts key).getD 0

/-- A counter moved by an amount. -/
def BankSet.bump (b : BankSet) (key : Nat) (d : Int) : BankSet := { b with counts := Tbl.put b.counts key (b.count key + d) }

/-- The set cleared, with its descriptor kept (09 R248). -/
def BankSet.clear (b : BankSet) : BankSet :=
  { b with shape := none, lanes := [0, 0, 0, 0], md := 0, counts := [], nan := [], poi := false }

/-- One product counted in a cell and a lane (09 R245). -/
def BankSet.step (b : BankSet) (f : CountFmt) (i j lane a c : Nat) : BankSet :=
  let pb := (f.pairs[a * 16 + c]?).getD 0
  let n := pb % 32
  if n = 31 then { b with nan := addMark b.nan (i * 64 + j) }
  else if n = 0 then b
  else b.bump (counterKey i j lane n) (if pb / 128 % 2 = 1 then -1 else 1)

/-- The steps of lane l among K (09 R245). -/
def laneSteps (k l : Nat) : Nat := (k + 3 - l) / 4

/-- `CSTEP` performed (09 R245). -/
def BankSet.steps (b : BankSet) (ta tb : Tile) : BankSet :=
  let nr := shRows ta.shape
  let nc := shRows tb.shape
  let k := shCols ta.shape
  let b := match b.fmt with
    | none => b
    | some f => (upFrom 0 k).foldl (fun b n => (upFrom 0 nr).foldl (fun b i => (upFrom 0 nc).foldl (fun b j =>
        b.step f i j (n % 4) (ta.at_ i n) (tb.at_ j n)) b) b) b
  { b with
    shape := some (nr, nc)
    lanes := (upFrom 0 4).map fun l => (b.lanes[l]?).getD 0 + laneSteps k l
    poi := b.poi || shPoi ta.shape || shPoi tb.shape }

/-- The sum of the lane depths. -/
def laneSum (l : List Nat) : Nat := l.foldl (· + ·) 0

/-- A counter's key with the merge bank in place of its lane bank. -/
def mergeKey (key : Nat) : Nat := key / 160 * 160 + 128 + key % 32

/-- `CMERGE` performed (09 R246). -/
def BankSet.merge (b : BankSet) : BankSet :=
  let b' : BankSet := b.counts.foldl (fun (x : BankSet) e => x.bump (mergeKey e.1) e.2) { b with counts := [] }
  { b' with md := b.md + laneSum b.lanes, lanes := [0, 0, 0, 0] }

/-- S of a cell (02 R64). -/
def BankSet.total (b : BankSet) (f : CountFmt) (i j : Nat) : Int :=
  ((upFrom 1 30).map fun n =>
    ((upFrom 0 5).map fun bank => b.count (counterKey i j bank n)).foldl (· + ·) 0 * (f.values[n]?).getD 0).foldl (· + ·) 0

/-- `CDRAIN` of one element (02 R64). -/
def BankSet.drainElem (b : BankSet) (f : CountFmt) (ts : Tile) (c i j : Nat) : Nat :=
  let sa := signedN (ts.at_ 0 i) 8
  let sb := signedN (ts.at_ 1 j) 8
  if b.nan.contains (i * 64 + j) ∨ sa = -128 ∨ sb = -128 then f32.nan
  else
    let t := b.total f i j
    (f32.add .rne (f32.decode c) (.num (decide (t < 0)) t.natAbs (f.qexp + sa + sb))).bits

/-- `CDRAIN` performed: the accumulator (09 R247). -/
def BankSet.drain (b : BankSet) (tc ts : Tile) : Tile :=
  match b.fmt with
  | none => tc
  | some f => (tc.fill fun i j => b.drainElem f ts (tc.at_ i j) i j).poisonIf (b.poi || shPoi ts.shape)

/-- The descriptor of 384 bytes (09 R244). -/
def CountFmt.ofBytes (bs : List Byte) : CountFmt :=
  { pairs := (bs.take 256).map fun b => b.toNat,
    values := (upFrom 0 32).map fun n => signedN (leNat ((bs.drop (0x100 + 2 * n)).take 2)) 16,
    qexp := signedN ((bs[0x140]?).getD 0).toNat 8, aSet := ((bs[0x141]?).getD 0).toNat,
    bSet := ((bs[0x142]?).getD 0).toNat }

/-- The offset of the first byte of a descriptor that fails the checks of 09 R244. -/
def badFmtByte (bs : List Byte) : Option Nat :=
  findIdx? (fun (e : Nat × Byte) =>
    (decide (e.1 < 0x100) && decide (e.2.toNat / 32 % 4 ≠ 0)) ||
    ((decide (e.1 = 0x100) || decide (e.1 = 0x101) || decide (e.1 = 0x13E) || decide (e.1 = 0x13F) || decide (0x143 ≤ e.1)) &&
      decide (e.2 ≠ 0))) ((upFrom 0 384).zip bs)

/-! ### What the queued instructions leave (09 R226) -/

/-- The checked state of a set: descriptor, recorded shape, depths. -/
structure SetView where
  fmtv  : Bool
  shape : Option (Nat × Nat)
  lanes : List Nat
  md    : Nat
  deriving DecidableEq, Repr

/-- The tiles and sets of a task as its next instruction finds them. -/
structure ArrView where
  tiles : Tbl Word
  sets  : Tbl SetView
  deriving DecidableEq, Repr

/-- The checked state of a set as it stands. -/
def BankSet.view (b : BankSet) : SetView := { fmtv := b.fmt.isSome, shape := b.shape, lanes := b.lanes, md := b.md }

/-- A view with a set changed. -/
def ArrView.mapSet (v : ArrView) (n : Nat) (f : SetView → SetView) : ArrView :=
  { v with sets := v.sets.map fun e => if e.1 = n then (e.1, f e.2) else e }

/-- A checked state cleared. -/
def SetView.clear (b : SetView) : SetView := { b with shape := none, lanes := [0, 0, 0, 0], md := 0 }

/-- The shape word of an owned tile. -/
def ArrView.shape (v : ArrView) (n : Nat) : Word := v.tiles.getD n 0

/-- Bit n of a mask. -/
def inMask (m n : Nat) : Bool := (m >>> n) % 2 == 1

/-- The view after an instruction. -/
def ArrView.after (v : ArrView) (op : TileOp) : ArrView :=
  match op with
  | .tshape t w => { v with tiles := v.tiles.map fun e => if e.1 = t then (e.1, w) else e }
  | .tfree m => { v with tiles := v.tiles.filter fun e => !inMask m e.1 }
  | .cfree m => { v with sets := v.sets.filter fun e => !inMask m e.1 }
  | .cfmt n _ => v.mapSet n fun b => { b.clear with fmtv := true }
  | .cclr n => v.mapSet n SetView.clear
  | .cdrain _ n _ => v.mapSet n SetView.clear
  | .cmerge n => v.mapSet n fun b => { b with md := b.md + laneSum b.lanes, lanes := [0, 0, 0, 0] }
  | .cstep n a b => v.mapSet n fun x =>
      { x with
        shape := some (shRows (v.shape a), shRows (v.shape b))
        lanes := (upFrom 0 4).map fun l => (x.lanes[l]?).getD 0 + laneSteps (shCols (v.shape a)) l }
  | _ => v

/-- The tiles that a queued instruction reads or writes. -/
def TileOp.tiles : TileOp → List Nat
  | .tld t _ _ => [t]
  | .tshape t _ => [t]
  | .tzero t => [t]
  | .tmma c a b => [c, a, b]
  | .tadd d a b => [d, a, b]
  | .tmul d a b => [d, a, b]
  | .tmax d a b => [d, a, b]
  | .trsum d a => [d, a]
  | .trmax d a => [d, a]
  | .texp2 d a => [d, a]
  | .tscan d a b c => [d, a, b, c]
  | .tcvt d a _ => [d, a]
  | .tsete t _ _ => [t]
  | .tchain t _ _ _ _ => [t]
  | .tfree m => (upFrom 0 32).filter (inMask m)
  | .cstep _ a b => [a, b]
  | .cdrain c _ t => [c, t]
  | _ => []

/-- The sets that a queued instruction reads or writes. -/
def TileOp.sets : TileOp → List Nat
  | .cfree m => (upFrom 0 2).filter (inMask m)
  | .cfmt n _ => [n]
  | .cstep n _ _ => [n]
  | .cmerge n => [n]
  | .cdrain _ n _ => [n]
  | .cclr n => [n]
  | _ => []

/-- The tile of a task by its name in a cluster. -/
def Cluster.tile? (c : Cluster) (uid n : Nat) : Option Tile := c.tiles.find? fun t => t.owner == uid && t.name == n

/-- A cluster with a tile replaced. -/
def Cluster.setTile (c : Cluster) (t : Tile) : Cluster :=
  { c with tiles := c.tiles.map fun x => if x.owner = t.owner ∧ x.name = t.name then t else x }

/-- The set of a task by its name in a cluster. -/
def Cluster.set? (c : Cluster) (uid n : Nat) : Option BankSet := c.sets.find? fun t => t.owner == uid && t.name == n

/-- A cluster with a set replaced. -/
def Cluster.setSet (c : Cluster) (t : BankSet) : Cluster :=
  { c with sets := c.sets.map fun x => if x.owner = t.owner ∧ x.name = t.name then t else x }

end Sys2Proof.Machine
end

