-- ==== Sys2Proof/Machine/Tiles.lean ====
section
/-! DEFINITION. The `TILE` major at issue, and the array that executes the tile queues (09 R217 to R242). -/

namespace Sys2Proof.Machine

/-! ### Issue (09 R221, R226, R229) -/

/-- A tile owner trap (09 R221). -/
def ownerTrap (cause name : Nat) : TrapRec := structTrap 0x09 0 cause name

/-- A shape trap (09 R229). -/
def shapeTrap (cause name : Nat) : TrapRec := structTrap 0x08 0 cause name

/-- The trap of the first condition of a list that does not hold. -/
def firstTrap : List (Bool × TrapRec) → Option TrapRec
  | [] => none
  | (ok, t) :: rest => if ok then firstTrap rest else some t

/-- The tiles and sets of a task on a cluster. -/
def Cluster.arr (c : Cluster) (uid : Nat) : ArrView :=
  { tiles := (c.tiles.filter fun t => t.owner == uid).map fun t => (t.name, t.shape),
    sets := (c.sets.filter fun b => b.owner == uid).map fun b => (b.name, b.view) }

/-- The tiles and sets of the running task as its queued instructions leave them (09 R226); a command core, which runs no task, owns
none (09 R221, 10 R259). -/
def State.arr (s : State) : ArrView :=
  match s.cur.task with
  | some k => s.cur.tq.foldl ArrView.after ((s.cluster s.curCluster).arr k.uid)
  | none => { tiles := [], sets := [] }

/-- A tile is owned, else cause 1. -/
def ArrView.owns (v : ArrView) (n : Nat) : Bool × TrapRec := ((v.tiles.get? n).isSome, ownerTrap 1 n)

/-- A set is owned, else cause 1. -/
def ArrView.ownsSet (v : ArrView) (n : Nat) : Bool × TrapRec := ((v.sets.get? n).isSome, ownerTrap 1 n)

/-- Instructions that a tile queue holds (09 R226). -/
def tileQueueSize : Nat := 16

/-- An instruction put into the running thread's tile queue, or the thread stalls at a seventeenth. -/
def State.enqueueTile (s : State) (op : TileOp) : State :=
  if tileQueueSize ≤ s.cur.tq.length then s.setWait .queue
  else
    let idle := s.cur.tq.isEmpty
    let s := (s.mapCur fun th => { th with tq := th.tq ++ [op] }).advance 4
    if idle then s.raise .tileExec s.curUid 0 0 else s

/-- The checks of an instruction at issue, on any core (09 R221, R226): the trap of the first that fails, or the instruction's effect
for its task. DEDUCED (log 40). -/
def State.tileChecked (s : State) (mnemonic : String) (checks : List (Bool × TrapRec)) (act : Task → Out) : Out :=
  match firstTrap checks with
  | some t => .next (s.takeTrap t)
  | none => s.needTask mnemonic act

/-- An instruction checked at issue and queued. -/
def State.issueTile (s : State) (mnemonic : String) (checks : ArrView → List (Bool × TrapRec)) (op : TileOp) : Out :=
  s.tileChecked mnemonic (checks s.arr) fun _ => .next (s.enqueueTile op)

/-- An instruction checked at issue that acts once the thread's queue is empty (09 R228). -/
def State.afterQueue (s : State) (mnemonic : String) (checks : ArrView → List (Bool × TrapRec)) (act : Task → State → Out) :
    Out :=
  s.tileChecked mnemonic (checks s.arr) fun k => if s.cur.tq.isEmpty then act k s else .next (s.setWait .queue)

/-! ### Allocation (09 R218 to R220) -/

/-- The physical tiles of a cluster (01 R16). -/
def tileCount : Nat := 32

/-- The counter-bank sets of a cluster (01 R16). -/
def setCount : Nat := 2

/-- A tile after `TALLOC`. -/
def Tile.fresh (uid n : Nat) : Tile := { owner := uid, name := n, shape := 0, data := [] }

/-- A set after `CALLOC`. -/
def BankSet.fresh (uid n : Nat) : BankSet :=
  { owner := uid, name := n, fmt := none, shape := none, lanes := [0, 0, 0, 0], md := 0, counts := [], nan := [], poi := false }

/-- The names of a mask. -/
def maskNames (mask : Nat) : List Nat := (upFrom 0 32).filter (inMask mask)

/-- The cluster has the free tiles or sets that a mask asks for. -/
def Cluster.fits (c : Cluster) (sets : Bool) (mask : Nat) : Bool :=
  if sets then decide (c.sets.length + (maskNames mask).length ≤ setCount)
  else decide (c.tiles.length + (maskNames mask).length ≤ tileCount)

/-- The names of a mask bound to a task. -/
def Cluster.bindNames (c : Cluster) (uid : Nat) (sets : Bool) (mask : Nat) : Cluster :=
  if sets then { c with sets := c.sets ++ (maskNames mask).map (BankSet.fresh uid) }
  else { c with tiles := c.tiles ++ (maskNames mask).map (Tile.fresh uid) }

/-- The names of a mask unbound from a task. -/
def Cluster.unbind (c : Cluster) (uid : Nat) (sets : Bool) (mask : Nat) : Cluster :=
  if sets then { c with sets := c.sets.filter fun t => !(t.owner == uid && inMask mask t.name) }
  else { c with tiles := c.tiles.filter fun t => !(t.owner == uid && inMask mask t.name) }

/-- `TALLOC` and `CALLOC`: bound at once, refused with 0, or waiting in arrival order (09 R218, R219). A name whose release
is still queued is bound again only after it. DESIGN CHOICE (log 39). -/
def State.allocate (s : State) (mnemonic : String) (sets : Bool) (d a : Reg) : Out :=
  let mask := (s.g a).toNat % 2 ^ (if sets then 2 else 32)
  if s.cur.task.isNone ∧ (maskNames mask).isEmpty then s.result d 0
  else s.needTask mnemonic fun k =>
    let v := s.arr
    let owned := (if sets then v.sets.map fun e => e.1 else v.tiles.map fun e => e.1).filter (inMask mask)
    let cl := s.curCluster
    let c := s.cluster cl
    let bound := if sets then c.sets.any fun t => t.owner == k.uid && inMask mask t.name
      else c.tiles.any fun t => t.owner == k.uid && inMask mask t.name
    match (upFrom 0 32).find? fun n => owned.contains n with
    | some n => .next (s.takeTrap (ownerTrap 2 n))
    | none =>
      if bound then (if !v.tiles.isEmpty || !v.sets.isEmpty then s.result d 0 else .next (s.setWait .queue))
      else if (maskNames mask).isEmpty then s.result d 0
      else if c.fits sets mask && !c.allocs.any fun q => q.sets == sets then
        (s.setCluster cl (c.bindNames k.uid sets mask)).result d (word mask)
      else if !v.tiles.isEmpty || !v.sets.isEmpty then s.result d 0
      else
        let q : AllocReq := { t := s.cur.id, uid := k.uid, d := d, mask := mask, sets := sets }
        .next ((s.setCluster cl { c with allocs := c.allocs ++ [q] }).setWait .alloc)

/-- `TALLOC` (09 R218, R219). -/
def execTalloc (d a : Reg) (s : State) : Out := s.allocate "TALLOC" false d a

/-- The earliest waiting request of a kind is granted when it fits (09 R219). -/
def State.grantAlloc (s : State) (cl : Nat) (sets : Bool) : State :=
  let c := s.cluster cl
  match c.allocs.find? fun q => q.sets == sets with
  | none => s
  | some q =>
    if !c.fits sets q.mask then s
    else
      let c' := { c.bindNames q.uid sets q.mask with allocs := c.allocs.filter fun x => decide (x ≠ q) }
      ((s.setCluster cl c').asThread q.t fun s => ((s.setWait .ready).setG q.d (word q.mask)).advance 4).raise .grant cl 0 0

/-- `TILE_REQUEST_GRANT` (09 R219). -/
def execTileRequestGrant (cl : Nat) (s : State) : Out := .next ((s.grantAlloc cl false).grantAlloc cl true)

/-- A queued release with no earlier queued use of its names is performed; the others keep their places (09 R218).
DESIGN CHOICE (log 39). -/
def releasesDue : List Nat → List Nat → List TileOp → List TileOp × List TileOp
  | _, _, [] => ([], [])
  | ts, cs, op :: rest =>
    let r := releasesDue (ts ++ op.tiles) (cs ++ op.sets) rest
    match op with
    | .tfree m => if (maskNames m).any ts.contains then (r.1, op :: r.2)
        else let r := releasesDue ts cs rest; (op :: r.1, r.2)
    | .cfree m => if (maskNames m).any cs.contains then (r.1, op :: r.2)
        else let r := releasesDue ts cs rest; (op :: r.1, r.2)
    | _ => (r.1, op :: r.2)

/-- The releases that are due in a task's queue are performed. -/
def State.performReleases (s : State) (uid : Nat) : State :=
  match s.taskThread? uid with
  | none => s
  | some (cl, th) =>
    let r := releasesDue [] [] th.tq
    if r.1.isEmpty then s
    else
      let s := (s.mapTaskThread uid fun x => { x with tq := r.2 }).queueMoved uid
      let s := s.mapCluster cl fun c => r.1.foldl (fun (c : Cluster) op => match op with
        | .tfree m => c.unbind uid false m
        | .cfree m => c.unbind uid true m
        | _ => c) c
      s.raise .grant cl 0 0

/-- `TFREE` and `CFREE` (09 R218). -/
def State.release_ (s : State) (mnemonic : String) (sets : Bool) (a : Reg) : Out :=
  let v := s.arr
  let mask := (s.g a).toNat % 2 ^ (if sets then 2 else 32)
  let owned (n : Nat) : Bool := if sets then (v.sets.get? n).isSome else (v.tiles.get? n).isSome
  match (maskNames mask).find? fun n => !owned n with
  | some n => .next (s.takeTrap (ownerTrap 3 n))
  | none =>
    if s.cur.task.isNone then s.pass
    else s.needTask mnemonic fun k =>
      if tileQueueSize ≤ s.cur.tq.length then .next (s.setWait .queue)
      else
        let op : TileOp := if sets then .cfree mask else .tfree mask
        .next (((s.mapCur fun th => { th with tq := th.tq ++ [op] }).advance 4).performReleases k.uid)

/-- `TFREE` (09 R218). -/
def execTfree (a : Reg) (s : State) : Out := s.release_ "TFREE" false a

/-! ### Shapes and elements (09 R225, R233) -/

/-- `TSHAPE` (09 R225). -/
def execTshape (d : TileName) (a : Reg) (s : State) : Out :=
  s.issueTile "TSHAPE" (fun v => [v.owns d.toNat, (!shapeRefused (s.g a), shapeTrap 1 d.toNat)]) (.tshape d.toNat (s.g a))

/-- The tile of the running task. -/
def State.tile (s : State) (n : Nat) : Tile := ((s.cluster s.curCluster).tile? s.curUid n).getD (Tile.fresh s.curUid n)

/-- `TSHGET` (09 R225, R228). -/
def execTshget (d : Reg) (a : TileName) (s : State) : Out :=
  s.afterQueue "TSHGET" (fun v => [v.owns a.toNat]) fun _ s => s.result d (s.tile a.toNat).shape

/-- `TZERO` (09 R233). -/
def execTzero (d : TileName) (s : State) : Out := s.issueTile "TZERO" (fun v => [v.owns d.toNat]) (.tzero d.toNat)

/-- The element index of `TGETE` and `TSETE` lies in the tile; a tile of format 0 holds no element (09 R233). -/
def inTile (w index : Word) : Bool :=
  shFmt w != 0 && decide (bits index 16 7 < shRows w) && decide (bits index 0 9 < shCols w)

/-- A poisoned source: trap poisoned data, or the abort of an ordered task that does not hold the summit (09 R230,
05 R131). -/
def State.poisonedTile (s : State) (t : TrapRec) : State :=
  if s.speculative && !s.holdsSummit then s.abortCurrent else s.takeTrap t

/-- `TGETE` (09 R233, R228, R230). DESIGN CHOICE (log 35). DEDUCED (log 41). -/
def execTgete (d : Reg) (a : TileName) (b : Reg) (s : State) : Out :=
  let n := a.toNat
  s.afterQueue "TGETE" (fun v => [v.owns n, (inTile (v.shape n) (s.g b), shapeTrap 6 n)]) fun _ s =>
    if shPoi (s.tile n).shape then .next (s.poisonedTile { kind := 0x10, taddr := 0, tinfo := 0 })
    else s.result d ((s.tile n).getElem (bits (s.g b) 16 7) (bits (s.g b) 0 9))

/-- `TSETE` (09 R233). -/
def execTsete (d : TileName) (a b : Reg) (s : State) : Out :=
  let n := d.toNat
  let index := bits (s.g b) 16 7 * 512 + bits (s.g b) 0 9
  s.issueTile "TSETE" (fun v => [v.owns n, (inTile (v.shape n) (s.g b), shapeTrap 6 n)]) (.tsete n index (s.g a))

/-- `TSYNC` (09 R227): a command core has no tile queue, so nothing is to be waited for there. -/
def execTsync (s : State) : Out :=
  if s.cur.task.isNone then s.pass else s.afterQueue "TSYNC" (fun _ => []) fun _ s => s.pass

/-! ### Rows of memory (09 R231, R232) -/

/-- The addresses of the elements of a tile's rows, in row order. -/
def rowAddrs (w : Word) (base stride : Word) : List Word :=
  let u := shUnit w
  (upFrom 0 (shRows w)).flatMap fun i => (upFrom 0 (shRowBytes w / u)).map fun j => base + stride * word i + word (u * j)

/-- Every element's page translated at both stages, in row order; `acc` is 1 for a store (09 R232). DEDUCED (log 41). -/
def State.elementLocs (acc : Nat) (info : Word) : List Word → State → Acc (List Loc)
  | [], s => .ok [] s
  | va :: rest, s =>
    let trap : TrapRec := { kind := 0, taddr := va, tinfo := info }
    (s.firstAccess.locate va acc trap).bind fun l s => (s.structHome l (acc == 1) trap).bind fun _ s =>
      (State.elementLocs acc info rest s).bind fun ls s => .ok (l :: ls) s

/-- The rows of an instruction located, after its checks on alignment. -/
def State.rowLocs (s : State) (w base stride : Word) (acc : Nat) : Acc (List Loc) :=
  let u := shUnit w
  let info := accInfo 0 (log2Size u) acc
  if base.toNat % u ≠ 0 then .trap { kind := 0x02, taddr := base, tinfo := info } s
  else if stride.toNat % u ≠ 0 then .trap { kind := 0x02, taddr := base + stride, tinfo := info } s
  else State.elementLocs acc info (rowAddrs w base stride) s

/-- The lines of an ordered task's `TLD` enter its read signature, or it stalls for the summit (09 R231, 13 R316). -/
def State.signAll (s : State) (ls : List Loc) : Acc Unit :=
  if !s.speculative then .ok () s
  else
    let r := ls.foldl (fun (a : Bool × State) l => if a.1 || a.2.noSigRoom l then (true, a.2) else (false, a.2.sign l)) (false, s)
    if r.1 then .wait s.stallSummit else .ok () r.2

/-- `TLD` (09 R231, R232). DESIGN CHOICE (log 35). -/
def execTld (d : TileName) (a b : Reg) (s : State) : Out :=
  let n := d.toNat
  let v := s.arr
  let w := v.shape n
  s.tileChecked "TLD" [v.owns n, (shFmt w != 0, shapeTrap 2 n)] fun _ =>
      ((s.rowLocs w (s.g a) (s.g b) 0).bind fun ls s => (s.signAll ls).bind fun _ s => .ok ls s).run fun ls s =>
        s.enqueueTile (.tld n ls (shUnit w))

/-- The logical clusters whose scratchpads elements lie in while the task's context is not resident there (22 R416). -/
def State.awayOf (s : State) (k : Task) (cl : Nat) (ls : List Loc) : List Nat := ls.filterMap (s.elsewhereOf k.part k.ctx (some cl))

/-- A logical cluster whose inbox has no room for the elements that a task stores there (22 R416). -/
def State.fullInbox (s : State) (k : Task) (cl : Nat) (ls : List Loc) : Option Nat :=
  let away := s.awayOf k cl ls
  away.find? fun l => decide (inboxSize < ((s.part k.part).inboxOf l k.ctx).length + (away.filter fun x => x == l).length)

/-- An element stored for a task on a cluster; in a context that is not resident at a scratchpad's cluster it joins the memory
inbox (05 R124, 22 R416). -/
def State.storeElement (s : State) (k : Task) (cl : Nat) (l : Loc) (bs : List Byte) : State :=
  match s.elsewhereOf k.part k.ctx (some cl) l with
  | some lc => s.toInbox k.part lc k.ctx (.store l.offset bs.length (word (leNat bs)) k.committer)
  | none =>
    let s := ((s.noteOldCode cl k.uid l bs.length).storeHome cl k.uid l bs).l1Store cl l bs
    (s.noteFscb l).noteCommit k.committer l

/-- The elements of a tile stored at their locations; a speculative task's enter its SSB (05 R126). DEDUCED (log 41). -/
def State.storeElements (s : State) (k : Task) (cl : Nat) (t : Tile) (ls : List Loc) : State :=
  let u := shUnit t.shape
  s.each ((upFrom 0 ls.length).zip ls) fun s e =>
    let bs := t.data.readBytes (e.1 * u) u
    if k.cls = .ordered ∧ !k.irrevocable then
      (s.noteOldFor .writer cl k.uid e.2 u).mapCluster cl fun c => c.ssbStore k.uid e.2 bs
    else s.storeElement k cl e.2 bs

/-- The SSB of the cluster has room for the lines of a list. DEDUCED (log 21). -/
def Cluster.ssbRoomAll (c : Cluster) (uid : Nat) (ls : List Loc) : Bool :=
  let new := ((ls.map fun l => l.line.1).eraseDups).filter fun l => (c.ssbLine? uid l).isNone
  decide ((c.ssb.filter fun x => x.owner == uid).length + new.length ≤ 4096)

/-- `TST` (09 R228, R230 to R232). DESIGN CHOICE (log 35). -/
def execTst (d : TileName) (a b : Reg) (s : State) : Out :=
  let n := d.toNat
  s.afterQueue "TST" (fun v => [v.owns n, (shFmt (v.shape n) != 0, shapeTrap 2 n)]) fun k s =>
    let t := s.tile n
    let va := s.g a
    (s.rowLocs t.shape va (s.g b) 1).run fun ls s =>
      if shPoi t.shape then
        s.poisonedTile { kind := 0x10, taddr := va, tinfo := accInfo 0 (log2Size (shUnit t.shape)) 1 }
      else if s.speculative then
        (if (s.cluster s.curCluster).ssbRoomAll k.uid ls then (s.storeElements k s.curCluster t ls).advance 4 else s.stallSummit)
      else match s.fullInbox k s.curCluster ls with
        | some l => (s.toInbox k.part l k.ctx (.access s.cur.id k.uid none)).setWait (.inbox false)
        | none => (s.storeElements k s.curCluster t ls).advance 4

/-! ### Array operations at issue (09 R234 to R239) -/

/-- The formats of `TMMA`: A is accepted, B pairs with it, C accumulates it (09 R234). -/
def mmaFormats (fa fb fc : Nat) : Bool × Bool × Bool :=
  if fa = 2 ∨ fa = 3 then (true, fb == fa, fc == 1)
  else if isB8 fa then (true, isB8 fb, fc == 1)
  else if fa = 4 then (true, fb == 4, fc == 5)
  else (false, false, false)

/-- `TMMA` (09 R234). -/
def execTmma (d a b : TileName) (s : State) : Out :=
  let c := d.toNat
  let a := a.toNat
  let b := b.toNat
  s.issueTile "TMMA" (fun v =>
    let sc := v.shape c
    let sa := v.shape a
    let sb := v.shape b
    let f := mmaFormats (shFmt sa) (shFmt sb) (shFmt sc)
    [v.owns c, v.owns a, v.owns b, (f.1, shapeTrap 2 a), (f.2.1, shapeTrap 2 b), (f.2.2, shapeTrap 2 c),
     (shRows sa == shRows sc, shapeTrap 3 a), (shRows sb == shCols sc && shCols sa == shCols sb, shapeTrap 3 b),
     (decide (shRows sc ≤ 32) && decide (shCols sc ≤ 64), shapeTrap 4 c), (c != a && c != b, shapeTrap 5 c)]) (.tmma c a b)

/-- The checks of `TADD`, `TMUL` and `TMAX`: one format of three, and one shape (09 R235). -/
def mapChecks (d a b : Nat) (v : ArrView) : List (Bool × TrapRec) :=
  let f := shFmt (v.shape a)
  [v.owns d, v.owns a, v.owns b] ++
  ([d, a, b].map fun n => (shFmt (v.shape n) == f && isFp f, shapeTrap 2 n)) ++
  ([d, a, b].map fun n => (shFields (v.shape n) == shFields (v.shape a), shapeTrap 3 n))

/-- `TADD` (09 R235). -/
def execTadd (d a b : TileName) (s : State) : Out :=
  s.issueTile "TADD" (mapChecks d.toNat a.toNat b.toNat) (.tadd d.toNat a.toNat b.toNat)

/-- `TMUL` (09 R235). -/
def execTmul (d a b : TileName) (s : State) : Out :=
  s.issueTile "TMUL" (mapChecks d.toNat a.toNat b.toNat) (.tmul d.toNat a.toNat b.toNat)

/-- `TMAX` (09 R235). -/
def execTmax (d a b : TileName) (s : State) : Out :=
  s.issueTile "TMAX" (mapChecks d.toNat a.toNat b.toNat) (.tmax d.toNat a.toNat b.toNat)

/-- The checks of `TRSUM` and `TRMAX` (09 R236). -/
def reduceChecks (d a : Nat) (v : ArrView) : List (Bool × TrapRec) :=
  let sd := v.shape d
  let sa := v.shape a
  [v.owns d, v.owns a, (isFp (shFmt sa), shapeTrap 2 a), (shFmt sd == 1, shapeTrap 2 d),
   (shRows sd == shRows sa && shCols sd == 1, shapeTrap 3 d), (d != a, shapeTrap 5 d)]

/-- `TRSUM` (09 R236). -/
def execTrsum (d a : TileName) (s : State) : Out :=
  s.issueTile "TRSUM" (reduceChecks d.toNat a.toNat) (.trsum d.toNat a.toNat)

/-- `TRMAX` (09 R236). -/
def execTrmax (d a : TileName) (s : State) : Out :=
  s.issueTile "TRMAX" (reduceChecks d.toNat a.toNat) (.trmax d.toNat a.toNat)

/-- `TEXP2` (09 R237). -/
def execTexp2 (d a : TileName) (s : State) : Out :=
  let d := d.toNat
  let a := a.toNat
  s.issueTile "TEXP2" (fun v =>
    [v.owns d, v.owns a, (shFmt (v.shape a) == 1, shapeTrap 2 a), (shFmt (v.shape d) == 1, shapeTrap 2 d),
     (shFields (v.shape d) == shFields (v.shape a), shapeTrap 3 d)]) (.texp2 d a)

/-- `TSCAN`: the carry tile is named by `x4[4:0]` (09 R238). -/
def execTscan (d a b : TileName) (s : State) : Out :=
  let d := d.toNat
  let a := a.toNat
  let b := b.toNat
  let c := bits (s.x 4) 0 5
  s.issueTile "TSCAN" (fun v =>
    [v.owns d, v.owns a, v.owns b, v.owns c] ++
    ([d, a, b].map fun n => (shFmt (v.shape n) == 1, shapeTrap 2 n)) ++
    ([d, a, b].map fun n => (shFields (v.shape n) == shFields (v.shape a), shapeTrap 3 n)) ++
    [(shFmt (v.shape c) == 1, shapeTrap 2 c), (shRows (v.shape c) == shRows (v.shape d) && shCols (v.shape c) == 1, shapeTrap 3 c),
     (c != d && c != a && c != b, shapeTrap 5 c)]) (.tscan d a b c)

/-- A format that `TCVT` accepts. -/
def cvtFormat (f : Nat) : Bool := f != 0 && f != 10 && f != 11

/-- `TCVT` (09 R239). -/
def execTcvt (d a : TileName) (b : Reg) (s : State) : Out :=
  let d := d.toNat
  let a := a.toNat
  s.issueTile "TCVT" (fun v =>
    let sd := v.shape d
    let sa := v.shape a
    [v.owns d, v.owns a, (cvtFormat (shFmt sa), shapeTrap 2 a), (cvtFormat (shFmt sd), shapeTrap 2 d),
     (shRows sd == shRows sa && shCols sd == shCols sa, shapeTrap 3 d), (d != a, shapeTrap 5 d)])
    (.tcvt d a (bits (s.g b) 0 3))

/-! ### Chains (09 R240 to R242) -/

/-- The members of a chain descriptor, as logical clusters. -/
def chainMembers (bs : List Byte) : List Int :=
  let first : Int := blockN bs 0x0C 2
  let step := signedN (blockN bs 0x10 2) 16
  (upFrom 0 (blockN bs 0x0E 2)).map fun (m : Nat) => first + (m : Int) * step

/-- A chain descriptor is refused for a caller, cause 22 (09 R240). -/
def chainRefused (t : Part) (own : Nat) (bs : List Byte) : Bool :=
  let n := blockN bs 0x0E 2
  let ms := chainMembers bs
  n == 0 || decide (512 < n) || (signedN (blockN bs 0x10 2) 16 == 0 && decide (1 < n)) ||
  ms.any (fun m => decide (m < 0) || decide ((t.clusters : Int) ≤ m)) || !ms.contains (own : Int) ||
  blockN bs 0x12 6 != 0 || (bs.drop 0x20).any (fun b => b != 0) || bits (blockD bs 0x18) 0 4 != 1

/-- `TCHAIN` (09 R240). DESIGN CHOICE (log 35). DEDUCED (log 41). -/
def execTchain (d : TileName) (a : Reg) (s : State) : Out :=
  let n := d.toNat
  let v := s.arr
  let va := s.g a
  s.tileChecked "TCHAIN" [v.owns n] fun k =>
      if s.speculative then .next s.stallSummit
      else if va.toNat % 64 ≠ 0 then .next (s.takeTrap { kind := 0x02, taddr := va, tinfo := accInfo 0 3 0 })
      else ((s.readBlock va (accInfo 0 3 0) 1 0).bind fun bs s =>
        let t := s.part k.part
        let own := t.logicalCl s.curCluster
        if chainRefused t own bs then .trap (structTrap 0x03 va 22 0) s
        else if shFields (v.shape n) ≠ (blockD bs 0x18).toNat then .trap (shapeTrap 9 n) s
        else
          let ms := chainMembers bs
          let m := (findIdx? (fun x => x == (own : Int)) ms).getD 0
          match ms[m + 1]? with
          | some next => .ok (TileOp.tchain n va (decide (0 < m)) (some (t.globalCl next.toNat)) []) s
          | none =>
            (s.rowLocs (v.shape n) (blockD bs 0) (wordI (signedN (blockN bs 8 4) 32)) 1).bind fun ls s =>
              .ok (.tchain n va (decide (0 < m)) none ls) s).run fun op s => s.enqueueTile op

/-! ### The array (09 R226, R230, R241) -/

/-- The elements of a `TLD` read as plain loads of its task: the bytes, and whether any was poisoned (09 R230, R231). -/
def State.loadElements (s : State) (k : Task) (cl w : Nat) : List Loc → (List Byte × Bool) × State
  | [] => (([], false), s)
  | l :: ls =>
    let spec := decide (k.cls = .ordered) && !k.irrevocable
    let r := s.loadCached cl false l w
    let bs := if spec then (r.2.cluster cl).overlay k.uid l r.1.1 else r.1.1
    let covered := spec && (r.2.cluster cl).ssbCovers k.uid l w
    let rest := State.loadElements r.2 k cl w ls
    ((bs ++ rest.1.1, (r.1.2 && !covered) || rest.1.2), rest.2)

/-- A tile of a task changed. -/
def State.onTile (s : State) (cl uid n : Nat) (f : Tile → Tile) : State :=
  match (s.cluster cl).tile? uid n with
  | some t => s.mapCluster cl fun c => c.setTile (f t)
  | none => s

/-- A set of a task changed. -/
def State.onSet (s : State) (cl uid n : Nat) (f : BankSet → BankSet) : State :=
  match (s.cluster cl).set? uid n with
  | some b => s.mapCluster cl fun c => c.setSet (f b)
  | none => s

/-- The tile of a task on a cluster. -/
def State.tileOf (s : State) (cl uid n : Nat) : Tile := ((s.cluster cl).tile? uid n).getD (Tile.fresh uid n)

/-- Messages that an array buffers (09 R241). -/
def chainBuffer : Nat := 4

/-- The effect of a queued instruction that waits for nothing. DEDUCED (log 41). -/
def State.runTileOp (s : State) (k : Task) (cl : Nat) (op : TileOp) : State :=
  let u := k.uid
  let t (n : Nat) : Tile := s.tileOf cl u n
  match op with
  | .tld n ls w =>
    let r := s.loadElements k cl w ls
    r.2.onTile cl u n fun x => { x with data := x.data.writeBytes 0 r.1.1, shape := setBits x.shape 62 1 (if r.1.2 then 1 else 0) }
  | .tshape n w => s.onTile cl u n fun x => { x with shape := w }
  | .tzero n => s.onTile cl u n fun x => { x with data := [], shape := word (shFields x.shape) }
  | .tmma c a b => s.onTile cl u c fun x => tileMma x (t a) (t b)
  | .tadd d a b => s.onTile cl u d fun x => tileMap2 (fun f y z => f.add .rne y z) x (t a) (t b)
  | .tmul d a b => s.onTile cl u d fun x => tileMap2 (fun f y z => f.mul .rne y z) x (t a) (t b)
  | .tmax d a b => s.onTile cl u d fun x => tileMap2 (fun f y z => f.minmax true y z) x (t a) (t b)
  | .trsum d a => s.onTile cl u d fun x => tileReduce (fun f y z => f.add .rne y z) x (t a)
  | .trmax d a => s.onTile cl u d fun x => tileReduce (fun f y z => f.minmax true y z) x (t a)
  | .texp2 d a => s.onTile cl u d fun x => tileExp2 x (t a)
  | .tscan d a b c =>
    let r := tileScan (t d) (t a) (t b) (t c)
    (s.onTile cl u d fun _ => r.1).onTile cl u c fun _ => r.2
  | .tcvt d a o => s.onTile cl u d fun x => tileCvt x (t a) o
  | .tsete n i v => s.onTile cl u n fun x => x.put (i / 512) (i % 512) v.toNat
  | .tchain n _ _ _ ls =>
    if shPoi (t n).shape then s else s.storeElements k cl (t n) ls
  | .tfree m => s.mapCluster cl fun c => c.unbind u false m
  | .cfree m => s.mapCluster cl fun c => c.unbind u true m
  | .cfmt n bs => s.onSet cl u n fun b => { b.clear with fmt := some (CountFmt.ofBytes bs) }
  | .cstep n a b => s.onSet cl u n fun x => x.steps (t a) (t b)
  | .cmerge n => s.onSet cl u n BankSet.merge
  | .cdrain c n b =>
    match (s.cluster cl).set? u n with
    | none => s
    | some x => (s.onTile cl u c fun y => x.drain y (t b)).onSet cl u n BankSet.clear
  | .cclr n => s.onSet cl u n BankSet.clear

/-- The head of a task's queue has completed: it leaves the queue, releases behind it are performed, a thread that waits for
the queue issues again, and the next instruction is due. -/
def State.tileDone (s : State) (uid : Nat) : State :=
  let s := (s.mapTaskThread uid fun th => { th with tq := th.tq.drop 1 }).queueMoved uid
  let s := s.performReleases uid
  match s.taskThread? uid with
  | some (_, th) =>
    let s := match th.task with
      | some k => s.sweepWake k.part
      | none => s
    let s := if th.ckpt then s.raiseFor .checkpoint th.id else s
    if th.tq.isEmpty then s else s.raise .tileExec uid 0 0
  | none => s

/-- The tasks of a cluster whose queue is headed by a `TCHAIN`, with that instruction. -/
def State.chainHeads (s : State) : List (Nat × TileOp) :=
  let head (th : Thread) : Option (Nat × TileOp) :=
    match th.task, th.tq with
    | some k, .tchain n v w x l :: _ => some (k.uid, .tchain n v w x l)
    | _, _ => none
  s.threads.filterMap head ++ s.clusters.flatMap fun e =>
    e.2.store.filterMap (fun p => head p.thread) ++ e.2.readyQ.filterMap fun q => match q.job with
      | .saved th _ => head th
      | .fresh _ _ _ => none

/-- A place in a cluster's message buffer has come free: senders that wait for it go on. -/
def State.chainFreed (s : State) (cl : Nat) : State :=
  s.each s.chainHeads fun s e => match e.2 with
    | .tchain _ _ false (some c) _ => if c = cl then s.raise .tileExec e.1 0 0 else s
    | _ => s

/-- The head `TCHAIN` of a task in its next phase: its predecessor's message added, its result sent on or stored (09 R241).
DEDUCED (log 41). -/
def State.runChain (s : State) (k : Task) (cl n : Nat) (desc : Word) (waits : Bool) (next : Option Nat) (ls : List Loc) : State :=
  let mine (m : ChainMsg) : Bool := m.part == k.part && m.ctx == k.ctx && m.desc == desc
  if waits then
    match (s.cluster cl).chain.find? mine with
    | none => s
    | some m =>
      let s := (s.mapCluster cl fun c => { c with chain := eraseFirst mine c.chain }).chainFreed cl
      let s := s.onTile cl k.uid n fun x => tileChain x m.data m.poi
      (s.mapTaskThread k.uid fun th => { th with tq := .tchain n desc false next ls :: th.tq.drop 1 }).raise .tileExec k.uid 0 0
  else
    match next with
    | none => (s.runTileOp k cl (.tchain n desc false none ls)).tileDone k.uid
    | some c =>
      let t := s.tileOf cl k.uid n
      let p := s.part k.part
      let l := p.logicalCl c
      if p.residentAt l ≠ some k.ctx then
        if inboxSize ≤ (p.inboxOf l k.ctx).length then s.toInbox k.part l k.ctx (.array k.uid)
        else (s.toInbox k.part l k.ctx (.chain desc t.data (shPoi t.shape))).tileDone k.uid
      else if chainBuffer ≤ (s.cluster c).chain.length then s
      else
        let m : ChainMsg := { part := k.part, ctx := k.ctx, desc := desc, data := t.data, poi := shPoi t.shape }
        ((s.mapCluster c fun x => { x with chain := x.chain ++ [m] }).raise .chainArrive c 0 0).tileDone k.uid

/-- `TCHAIN_MESSAGE_ARRIVE`: a member's message has reached a cluster; the `TCHAIN`s that wait there look for theirs
(09 R241). -/
def execTchainMessageArrive (cl : Nat) (s : State) : Out :=
  .next (s.each s.chainHeads fun s e => match e.2, s.taskThread? e.1 with
    | .tchain _ v true _ _, some (c, th) =>
      let here : Bool := match th.task with
        | some k => (s.cluster cl).chain.any fun m => m.part == k.part && m.ctx == k.ctx && m.desc == v
        | none => false
      if c = cl ∧ here then s.raise .tileExec e.1 0 0 else s
    | _, _ => s)

/-- An operation of a task that is gone gives back what it holds of every belay. -/
def State.giveBackAll (s : State) (id : Nat) : State :=
  s.each (upFrom 0 4) fun s d => s.giveBack d id

/-- The array asks the belay for leave before an instruction (09 R234, R245). -/
def TileOp.heavy : TileOp → Bool
  | .tmma _ _ _ => true
  | .cstep _ _ _ => true
  | _ => false

/-- The inbox in which the instruction at the head of a task's queue has to wait: that of a context that is not resident where a
`TLD` reads, or one without room for the elements that the last member of a chain stores (22 R416). -/
def State.arrayHeld (s : State) (k : Task) (cl : Nat) (op : TileOp) : Option Nat :=
  match op with
  | .tld _ ls _ => (s.awayOf k cl ls).head?
  | .tchain n _ false none ls => if shPoi (s.tileOf cl k.uid n).shape then none else s.fullInbox k cl ls
  | _ => none

/-- The head of a task's tile queue waits in an inbox of a partition. -/
def Part.queuedArray (t : Part) (uid : Nat) : Bool :=
  t.inboxes.any fun b => b.items.any fun i => decide (i = .array uid)

/-- `TILE_QUEUE_EXECUTE`: the array executes the oldest instruction of a task's tile queue, a `TMMA` or `CSTEP` after belay
leave (09 R226; 23 R424). -/
def execTileQueueExecute (u : Nat) (s : State) : Out :=
  match s.taskThread? u with
  | none => .next (s.giveBackAll u)
  | some (cl, th) =>
    match th.task, th.tq with
    | some k, op :: _ =>
      let die := dieOfCluster cl
      if (s.part k.part).queuedArray u then .next s
      else match s.arrayHeld k cl op with
      | some l => .next (s.toInbox k.part l k.ctx (.array u))
      | none =>
      if op.heavy && !s.hasLeave die u then
        .next (if s.askedLeave die u then s else s.askBelay die { id := u, milli := arrayMilli, part := k.part })
      else match op with
        | .tchain n desc waits next ls => .next (s.runChain k cl n desc waits next ls)
        | op => .next (((s.runTileOp k cl op).giveBack die u).tileDone u)
    | _, _ => .next s

end Sys2Proof.Machine
end

