-- ==== Sys2Proof/Machine/Counting.lean ====
section
/-! DEFINITION. The `COUNT` major (09 R243 to R249). -/

namespace Sys2Proof.Machine

/-- `CALLOC` (09 R218, R219). -/
def execCalloc (d a : Reg) (s : State) : Out := s.allocate "CALLOC" true d a

/-- `CFREE` (09 R218). -/
def execCfree (a : Reg) (s : State) : Out := s.release_ "CFREE" true a

/-- The lines of a descriptor read as plain loads of the thread (09 R244). -/
def State.readPlain (s : State) (va info : Word) : Nat → Nat → Acc (List Byte)
  | 0, _ => .ok [] s
  | lines + 1, k =>
    let at_ := va + word (64 * k)
    let trap : TrapRec := { kind := 0, taddr := at_, tinfo := info }
    (s.firstAccess.locate at_ 0 trap).bind fun l s => (s.atHand l).bind fun _ s =>
      (if (s.cachedLine s.curCluster l).isSome then Acc.ok () s else s.structHome l false trap).bind fun _ s =>
        if s.speculative && s.noSigRoom l then .wait s.stallSummit
        else
          let s := if s.speculative then s.sign l else s
          let r := s.loadCached s.curCluster false l 64
          -- a doubleword that a speculative task has buffered whole is its own value (05 R131)
          let whole (k : Nat) : Bool := s.speculative && (s.cluster s.curCluster).ssbCovers s.curUid (l.shift (8 * k)) 8
          if r.1.2 && (upFrom 0 8).any (fun k => !whole k && (s.loadCached s.curCluster false (l.shift (8 * k)) 8).1.2) then
            (if s.speculative && !s.holdsSummit then .wait s.abortCurrent else .trap { trap with kind := 0x10 } r.2)
          else
            let bs := if s.speculative then (s.cluster s.curCluster).overlay s.curUid l r.1.1 else r.1.1
            (State.readPlain r.2 va info lines (k + 1)).bind fun rest s => .ok (bs ++ rest) s

/-- `CFMT` (09 R244). DESIGN CHOICE (log 35). -/
def execCfmt (d : SetName) (a : Reg) (s : State) : Out :=
  let n := d.toNat
  let va := s.g a
  s.tileChecked "CFMT" [s.arr.ownsSet n] fun _ =>
      if va.toNat % 64 ≠ 0 then .next (s.takeTrap { kind := 0x02, taddr := va, tinfo := accInfo 0 3 0 })
      else ((s.readPlain va (accInfo 0 3 0) 6 0).bind fun bs s =>
        match badFmtByte bs with
        | some o => .trap (structTrap 0x03 va 21 o) s
        | none => .ok bs s).run fun bs s => s.enqueueTile (.cfmt n bs)

/-- The depth fields of the set's word (09 R248). -/
def depthFields (b : SetView) : Nat :=
  b.md * 2 ^ 36 + ((upFrom 0 4).map fun l => (b.lanes[l]?).getD 0 * 2 ^ (9 * l)).foldl (· + ·) 0

/-- A depth trap (09 R249). -/
def depthTrap (merge : Bool) (n req : Nat) (b : SetView) : TrapRec :=
  { kind := 0x07, taddr := 0,
    tinfo := word ((if merge then 2 ^ 63 else 0) + req % 2 ^ 11 * 2 ^ 52 + n * 2 ^ 51 + depthFields b) }

/-- The checked state of a set. -/
def ArrView.set (v : ArrView) (n : Nat) : SetView :=
  v.sets.getD n { fmtv := false, shape := none, lanes := [0, 0, 0, 0], md := 0 }

/-- `CSTEP` (09 R245). -/
def execCstep (d : SetName) (a b : TileName) (s : State) : Out :=
  let n := d.toNat
  let a := a.toNat
  let b := b.toNat
  s.issueTile "CSTEP" (fun v =>
    let x := v.set n
    let sa := v.shape a
    let sb := v.shape b
    let k := shCols sa
    [v.ownsSet n, v.owns a, v.owns b, (x.fmtv, shapeTrap 7 n), (shFmt sa == 10, shapeTrap 2 a), (shFmt sb == 10, shapeTrap 2 b),
     (shCols sb == k, shapeTrap 3 b), (decide (shRows sa ≤ 32), shapeTrap 4 a), (decide (shRows sb ≤ 64), shapeTrap 4 b),
     (x.shape.isNone || x.shape == some (shRows sa, shRows sb), shapeTrap 8 n),
     ((upFrom 0 4).all fun l => decide ((x.lanes[l]?).getD 0 + laneSteps k l ≤ 511), depthTrap false n (laneSteps k 0) x)])
    (.cstep n a b)

/-- `CMERGE` (09 R246). -/
def execCmerge (d : SetName) (s : State) : Out :=
  let n := d.toNat
  s.issueTile "CMERGE" (fun v =>
    let x := v.set n
    [v.ownsSet n, (decide (x.md + laneSum x.lanes ≤ 32767), depthTrap true n (laneSum x.lanes) x)]) (.cmerge n)

/-- `CDRAIN` (09 R247). -/
def execCdrain (d : TileName) (a : SetName) (b : TileName) (s : State) : Out :=
  let c := d.toNat
  let n := a.toNat
  let t := b.toNat
  s.issueTile "CDRAIN" (fun v =>
    let x := v.set n
    let sc := v.shape c
    let st := v.shape t
    [v.owns c, v.ownsSet n, v.owns t, (x.fmtv, shapeTrap 7 n), (shFmt sc == 1, shapeTrap 2 c),
     (match x.shape with
      | some h => (h == (shRows sc, shCols sc), shapeTrap 8 n)
      | none => (decide (shRows sc ≤ 32) && decide (shCols sc ≤ 64), shapeTrap 4 c)),
     (shFmt st == 11, shapeTrap 2 t), (shRows st == 2 && decide (Nat.max (shRows sc) (shCols sc) ≤ shCols st), shapeTrap 3 t),
     (t != c, shapeTrap 5 t)]) (.cdrain c n t)

/-- `CCLR` (09 R248). -/
def execCclr (d : SetName) (s : State) : Out := s.issueTile "CCLR" (fun v => [v.ownsSet d.toNat]) (.cclr d.toNat)

/-- The set's word (09 R248). -/
def depthWord (b : SetView) : Word :=
  word ((if b.fmtv then 2 ^ 63 else 0) + (match b.shape with
    | some (r, c) => 2 ^ 62 + (c - 1) * 2 ^ 56 + (r - 1) * 2 ^ 51
    | none => 0) + depthFields b)

/-- `CDEPTH` (09 R248, R228). -/
def execCdepth (d : Reg) (a : SetName) (s : State) : Out :=
  s.afterQueue "CDEPTH" (fun v => [v.ownsSet a.toNat]) fun _ s => s.result d (depthWord (s.arr.set a.toNat))

end Sys2Proof.Machine
end

