-- ==== Sys2Proof/Machine/Engines.lean ====
section
/-! DEFINITION. The engines: blocks and their checks, `COPY`, `COPYP`, `GATHER`, `RCOPY`, their deliveries, their ends, and the
umbras (08 R197 to R215; 14 R323 to R334). -/

namespace Sys2Proof.Machine

/-! ### Blocks (08 R197, R198) -/

/-- A doubleword of a block. -/
def bd (blk : List Word) (i : Nat) : Word := (blk[i]?).getD 0

/-- `FLAGS`. -/
def blkFlags (blk : List Word) : Word := bd blk 5

/-- `UMB`. -/
def blkUmb (blk : List Word) : Bool := bit (blkFlags blk) 2

/-- `WPE`. -/
def blkWpe (blk : List Word) : Bool := bit (blkFlags blk) 3

/-- `WPN`. -/
def blkWpn (blk : List Word) : Nat := bits (blkFlags blk) 4 4

/-- `RES`. -/
def blkRes (blk : List Word) : Bool := bit (blkFlags blk) 1

/-- `RAW`. -/
def blkRaw (blk : List Word) : Bool := bit (blkFlags blk) 0

/-- `CACT`. -/
def blkAct (blk : List Word) : Nat := bits (blkFlags blk) 8 2

/-- The flags that an engine accepts; `CACT` and `WPN` are accepted by all (08 R198). -/
def flagsAllowed (kind : ReqKind) : Word :=
  match kind with
  | .copy => 0x000003FF
  | .copyp => 0xFF0003FD
  | .gather => 0x00001BF9
  | .strm => 0x000003F0
  | .rcopy => 0x00FF07F1

/-- `ROWS` and `ROWBYTES` of a `COPY`. -/
def copyRows (blk : List Word) : Nat := bits (bd blk 3) 0 32

/-- `ROWBYTES`. -/
def copyRowBytes (blk : List Word) : Nat := bits (bd blk 3) 32 32

/-- The declared total of a request (08 R201). DESIGN CHOICE (log 65). -/
def declaredBytes (kind : ReqKind) (blk : List Word) : Nat :=
  match kind with
  | .copy => copyRows blk * copyRowBytes blk
  | .gather => bits (bd blk 3) 0 32 * bits (bd blk 3) 32 32
  | .rcopy => (bd blk 2).toNat
  | _ => (bd blk 7).toNat

/-- The source that chooses the engine: `SRC`, or the index stream (08 R205, R207). -/
def blkSrc (blk : List Word) : Word := bd blk 0

/-- The destination named by a block. -/
def blkDst (kind : ReqKind) (blk : List Word) : Word :=
  match kind with
  | .gather => bd blk 2
  | _ => bd blk 1

/-- The destination is a scratchpad location (01 R17). -/
def State.scratchDst (s : State) (p cl : Nat) (kind : ReqKind) (blk : List Word) : Option (Nat × Nat) :=
  match s.place p cl (blkDst kind blk) with
  | .at l => match l with
    | .scratch c o => some (c, o)
    | _ => none
  | _ => none

/-- A power of two from 4 to 4096 (08 R207). -/
def elementSize (n : Nat) : Bool := [4, 8, 16, 32, 64, 128, 256, 512, 1024, 2048, 4096].contains n

/-- An engine's alignment rule is broken: cause 12 (08 R198, R203, R207, R215). -/
def State.misfit (s : State) (p cl : Nat) (kind : ReqKind) (blk : List Word) : Bool :=
  let off (w : Word) : Bool := w.toNat % 64 != 0
  off (bd blk 4) || (match kind with
    | .copy => off (bd blk 0) || off (bd blk 1) || bits (bd blk 2) 0 32 % 64 != 0 || bits (bd blk 2) 32 32 % 64 != 0 ||
        copyRowBytes blk % 64 != 0
    | .gather =>
      let n := bits (bd blk 3) 32 32
      !elementSize n || (bd blk 2).toNat % n != 0 || (match s.scratchDst p cl kind blk with
        | some (_, o) => decide (scratchSize < o + declaredBytes kind blk)
        | none => true)
    | .rcopy => off (bd blk 0) || off (bd blk 1) || off (bd blk 2)
    | _ => false)

/-- A peer is registered (08 R215, 21 R389). -/
def PConf.hasPeer (c : PConf) (n : Nat) : Bool := ((c.peers.get? n).map fun l => l.any fun w => w != 0).getD false

/-- The lowest cause of a block that fails its checks (08 R198); `child` for a request of a loader program (R206). -/
def State.blockFault (s : State) (p cl : Nat) (kind : ReqKind) (blk : List Word) (ordered child : Bool) : Option Nat :=
  let f := blkFlags blk
  let dst := s.scratchDst p cl kind blk
  if bits f 32 32 ≠ 0 ∨ bits f 13 3 ≠ 0 then some 10
  else if f &&& ~~~(flagsAllowed kind) ≠ 0 ∨ blkAct blk = 3 ∨ (blkWpe blk ∧ (child ∨ (ordered ∧ blkUmb blk))) then some 11
  else if s.misfit p cl kind blk then some 12
  else if blkWpe blk ∧ (dst.map fun d => (s.wp d.1 (blkWpn blk)).req.isSome) = some true then some 13
  else if (blkWpe blk ∨ blkRes blk) ∧ dst.isNone then some 14
  else if kind = .rcopy ∧ !(s.part p).conf.hasPeer (bits f 16 8) then some 19
  else none

/-! ### Accepting a request (08 R199, R204 to R206, R211, R214) -/

/-- The number of the memory core beside a channel of a global column: 32 to a stack, the stacks north of a die's columns
first (01 R15, R18). -/
def coreBeside (col ch : Nat) : Nat :=
  (dieOfColumn col * 4 + (if ch < 4 then 0 else 2) + col % 16 / 8) * 32 + col % 8 * 4 + ch % 4

/-- The memory core that serves a request (08 R205): beside the home channel of the first source byte, of the first destination
byte for a scratchpad source, or beside channel r of a source cluster of row r; beside the issuing cluster's own channel for an
address that nothing maps yet. -/
def State.serverCore (s : State) (p c cl : Nat) (src dst : Word) : Nat :=
  let own (k : Nat) : Nat := coreBeside (columnOf k) (k % 8)
  let home (va : Word) (d : Nat) : Nat := match s.quietGpa p c va with
    | some g => coreBeside (s.columnOfGpa p g) (g / 256 % 8)
    | none => d
  match s.place p cl src with
  | .at l => match l with
    | .scratch k _ => match s.place p cl dst with
      | .paged => home dst (own k)
      | _ => own k
    | _ => own cl
  | _ => home src (own cl)

/-- The lowest and one past the highest destination byte of a request with `UMB` (08 R203). -/
def copySpan (blk : List Word) : Int × Int :=
  let first := ((bd blk 1).toNat : Int)
  let last := first + signedN (bits (bd blk 2) 32 32) 32 * ((copyRows blk : Int) - 1)
  (min first last, max first last + copyRowBytes blk)

/-- The open umbra, not yet cut by a `PUBLISH`, that holds the whole destination of a request (08 R203, 14 R330).
DESIGN CHOICE (log 62). -/
def State.umbraOf (s : State) (p c : Nat) (kind : ReqKind) (blk : List Word) : Option Nat :=
  let span := match kind with
    | .copy => copySpan blk
    | _ => (((bd blk 1).toNat : Int), ((bd blk 1).toNat : Int) + 1)
  ((s.part p).umbras.find? fun u =>
    u.ctx == c && !u.cut && decide ((u.base : Int) ≤ span.1) && decide (span.2 ≤ (u.base : Int) + u.len)).map (·.id)

/-- A request accepted: its name, its record, its write pointer reserved and armed; its first delivery is due, after belay leave
for one of 64 KiB or more (08 R199, R204, R205; 23 R424). DESIGN CHOICE (log 62). DESIGN CHOICE (log 65). -/
def State.acceptReq (s : State) (k : Task) (kind : ReqKind) (va : Word) (blk : List Word) : Nat × State :=
  let cl := s.curCluster
  let (id, s) := s.newUid
  let core := s.serverCore k.part k.ctx cl (blkSrc blk) (blkDst kind blk)
  let umbra := if blkUmb blk then s.umbraOf k.part k.ctx kind blk else none
  let total := declaredBytes kind blk
  -- an empty COPY has no destination byte that could lie outside the umbra
  let lost := blkUmb blk && umbra.isNone && !(kind = .copy && total == 0)
  let done := lost || ((kind = .copy || kind = .gather || kind = .rcopy) && total == 0)
  let heavy := !done && kind != .strm && decide (2 ^ 16 ≤ total)
  let q : Req := { id := id, kind := kind, blk := blk, va := va, part := k.part, ctx := k.ctx, uid := k.uid, cl := cl,
                   ordered := decide (k.cls = .ordered), user := s.mode == 0, pos := 0, ahead := [], done := 0,
                   endKind := if lost then some 0x03 else none, faddr := if lost then blkDst kind blk else 0, elem := 0,
                   sid := 0, cnts := [0, 0, 0, 0], token := none, parent := k.loader, children := 0, exited := false,
                   aborted := ((k.loader.bind s.req?).map fun x => x.aborted).getD false,
                   stage := if done then 1 else 0, noRecord := false, noAction := false, umbra := umbra,
                   die := core / 128, core := core, started := false, belay := heavy, waits := false,
                   recorded := false, holds := none,
                   entry := (s.part k.part).conf.loaders.getD (bits (blkFlags blk) 24 8) 0,
                   peer := ((s.part k.part).conf.peers.get? (bits (blkFlags blk) 16 8)).getD [] }
  let s := { s with reqs := s.reqs ++ [q] }
  let s := match k.loader with
    | some r => s.mapReq r fun x => { x with children := x.children + 1 }
    | none => s
  let s := match (if blkWpe blk then s.scratchDst k.part cl kind blk else none) with
    | some d => s.mapWp d.1 (blkWpn blk) fun _ => { brk := false, count := 0, req := some id }
    | none => s
  let s := if heavy then s.askBelay q.die { id := id, milli := copyMilli, part := k.part }
    else s.raise (if done then .engineDone else .lineDeliver) id 0 0
  let s := if done ∨ kind = .copyp ∨ kind = .strm then s else s.raise .engineAhead id 0 0
  (id, s)

/-- `COPY`, `COPYP`, `GATHER` and `RCOPY`: a speculative task stalls for the summit unless `UMB` = 1 (08 R197 to R199, R214). -/
def State.engine (s : State) (mnemonic : String) (kind : ReqKind) (va : Word) : Out :=
  s.needTask mnemonic fun k =>
    if s.speculative && kind != .copy && kind != .copyp then .next s.stallSummit
    else if va.toNat % 64 ≠ 0 then .next (s.takeTrap { kind := 0x02, taddr := va, tinfo := accInfo 0 3 0 })
    else
      (((s.release .prt).readBlock va (accInfo 0 3 0) 1 0).bind fun bs s =>
        let blk := (upFrom 0 8).map fun i => blockD bs (8 * i)
        if s.speculative && !blkUmb blk then .wait s.stallSummit
        else match s.blockFault k.part s.curCluster kind blk (decide (k.cls = .ordered)) k.loader.isSome with
          | some cause => .trap (structTrap 0x03 va cause 0) s
          | none => .ok () (s.acceptReq k kind va blk).2).run fun _ s => s.advance 4

/-- `COPY` (08 R203). -/
def execCopy (a : Reg) (s : State) : Out := s.engine "COPY" .copy (s.g a)

/-- `COPYP` (08 R206). -/
def execCopyp (a : Reg) (s : State) : Out := s.engine "COPYP" .copyp (s.g a)

/-- `GATHER` (08 R207). -/
def execGather (a : Reg) (s : State) : Out := s.engine "GATHER" .gather (s.g a)

/-- `RCOPY` (08 R215). -/
def execRcopy (a : Reg) (s : State) : Out := s.engine "RCOPY" .rcopy (s.g a)

/-! ### An engine's accesses (08 R202; 14 R323, R329) -/

/-- What an engine's access meets: a location, no place at all (a shadow discarded by an abort), a parked request, or the kind
that ends the request. -/
inductive EngAns where
  | at (l : Loc) (s : State)
  | void (s : State)
  | parked (s : State)
  | bad (kind : Nat)

/-- The stack base at which a request translates: that of its memory core or indirect-stream engine (08 R205, R207; 14 R329). -/
def Req.tlb (q : Req) : Nat := stackTlbOf (q.core / 32)

/-- The address of an access that parks a request is kept while it delivers: a fatal wake records it (08 R202). -/
def State.keepFault (s : State) (q : Req) (va : Word) : State :=
  if q.stage = 0 then s.mapReq q.id fun x => { x with faddr := va } else s

/-- A request parked for a stage-2 fault of its access to an address. -/
def State.parkStage2 (s : State) (q : Req) (va : Word) (gpa reason : Nat) (write : Bool) : EngAns :=
  .parked ((s.keepFault q va).stage2Fault (.engine q.id) q.part q.ctx gpa reason 3 (if write then 1 else 0)
    { kind := 0, taddr := va, tinfo := 0 })

/-- A request's access to a scratchpad where its context is not resident waits in that context's inbox (22 R416). -/
def State.atScratch (s : State) (q : Req) (l : Loc) : EngAns :=
  match s.elsewhereOf q.part q.ctx none l with
  | some lc => .parked ((s.mapReq q.id fun x => { x with waits := true }).toInbox q.part lc q.ctx (.engine q.id))
  | none => .at l s

/-- An access of a request that its home serves later: the request's step is due again (07 R151, 08 R201). -/
def State.askLater (s : State) (q : Req) : EngAns := .parked (s.raise (if q.stage = 0 then .lineDeliver else .engineDone) q.id 0 0)

/-- The address of an access of a request translated at its stack base, never through a window: one in a view range ends the request
with an access fault, whatever its leaf permits (02 R75; 14 R329). DESIGN CHOICE (log 28). -/
def State.engineReach (s : State) (q : Req) (va : Word) (write : Bool) : EngAns :=
  let acc := if write then 1 else 0
  if s.agentView q.part q.ctx q.cl q.tlb va then .bad 0x03
  else match s.agentLocate q.part q.ctx q.cl q.tlb va acc q.user with
  | .unmapped => .bad 0x04
  | .busy => s.askLater q
  | .fault r l => .parked ((s.keepFault q va).faultService (.engine q.id) q.part q.ctx va r l 3 acc
      { kind := 0, taddr := va, tinfo := 0 })
  | .stage2 g r => s.parkStage2 q va g r write
  | .at l s => .at l s

/-- A location for an access of a request, granted by its home. DESIGN CHOICE (log 28). -/
def State.engineAt (s : State) (q : Req) (va : Word) (write : Bool) : EngAns :=
  match s.engineReach q va write with
  | .at l s =>
    match l with
    | .dram _ _ =>
      match s.agentHome l write q.id with
        | .granted s => .at l s
        | .miss => .at l s
        | .busy => s.askLater q
        | .fault g r => s.parkStage2 q va g r write
    | _ => s.atScratch q l
  | x => x

/-- A request ends its deliveries, with a kind or in full; its end is due. -/
def State.endReq (s : State) (id : Nat) (kind : Option Nat) (faddr : Word) : State :=
  (s.mapReq id fun q => { q with endKind := kind, faddr := faddr, stage := 1 }).raise .engineDone id 0 0

/-- The poison of the doublewords of n bytes. -/
def State.poisonFlags (s : State) (l : Loc) (n : Nat) : List Bool :=
  (upFrom 0 ((n + 7) / 8)).map fun k => s.dwordPoisoned (l.shift (8 * k))

/-- Bytes written by a request, with their poison (05 R131, 08 R202). -/
def State.writeBy (s : State) (writer : Nat) (l : Loc) (bs : List Byte) (flags : List Bool) : State :=
  ((s.agentWrite writer l bs).agentPoison l flags).noteFscb l

/-- Bytes written by a request. -/
def State.engineWrite (s : State) (q : Req) (l : Loc) (bs : List Byte) (flags : List Bool) : State :=
  s.writeBy q.id l bs flags

/-! ### Shadows (08 R212) -/

/-- A chunk of 64 KiB copied from one place of guest-physical space to another. -/
def State.copyChunk (s : State) (p writer from_ to_ : Nat) : State :=
  s.each (upFrom 0 1024) fun s i =>
    let a : Loc := .dram p (from_ * 2 ^ 16 + 64 * i)
    s.writeBy writer (.dram p (to_ * 2 ^ 16 + 64 * i)) (s.bytesAt a 64) (s.poisonFlags a 64)

/-- The chunk of an umbra that holds a destination byte, with its index; `none` when the umbra is gone. -/
def State.chunkAt (s : State) (p u : Nat) (va : Word) : Option (Nat × Chunk) :=
  match (s.part p).umbras.find? (fun x => x.id == u) with
  | none => none
  | some x =>
    let i := (va.toNat - x.base) / 2 ^ 16
    (x.chunks[i]?).map fun c => (i, c)

/-- The place in a chunk's shadow of a destination byte (08 R212). -/
def Chunk.place (c : Chunk) (p : Nat) (va : Word) : Loc := .dram p (c.shadow * 2 ^ 16 + va.toNat % 2 ^ 16)

/-- A chunk is written: the first write copies its visible contents into the shadow (08 R212). -/
def State.fillChunk (s : State) (p writer u i : Nat) (c : Chunk) : State :=
  if c.written then s
  else (s.copyChunk p writer c.gpa c.shadow).mapPart p fun t => { t with umbras := t.umbras.map fun y =>
    if y.id = u then { y with chunks := splice y.chunks i [{ c with written := true }] } else y }

/-- What the homes answer to a write into a chunk: of the visible contents that the first write reads, and of the shadow. -/
def State.chunkHome (s : State) (p : Nat) (c : Chunk) (l : Loc) : HomeAnswer :=
  match (if c.written then .granted s else s.agentHome (.dram p (c.gpa * 2 ^ 16)) false) with
  | .granted s => s.agentHome l true
  | x => x

/-- The destination of a line or element: in the shadow for `UMB` = 1, else at its own address, which is translated for each access in
either case (14 R329). The visible contents are copied once stage 2 has granted the write. An aborted task's request runs on into
frames that are discarded (14 R332). -/
def State.engineDst (s : State) (q : Req) (va : Word) : EngAns :=
  match q.umbra with
  | none => if q.aborted then .void s else s.engineAt q va true
  | some u =>
    match s.chunkAt q.part u va with
    | none => .bad 0x03
    | some (i, c) =>
      let l := c.place q.part va
      match s.engineReach q va true with
      | .at _ s =>
        match s.chunkHome q.part c l with
        | .fault g r => s.parkStage2 q va g r true
        | .busy => s.askLater q
        | .granted s => .at l (s.fillChunk q.part q.id u i c)
        | .miss => .at l (s.fillChunk q.part q.id u i c)
      | x => x

/-! ### Deliveries (08 R203, R204, R207, R215) -/

/-- The write pointer that a request has armed: cluster and index. -/
def State.armedWp (s : State) (q : Req) : Option (Nat × Nat) :=
  if blkWpe q.blk then (s.scratchDst q.part q.cl q.kind q.blk).map fun d => (d.1, blkWpn q.blk) else none

/-- The write pointer of a request raised by delivered bytes; a child raises its parent's (08 R204, R206). -/
def State.raiseWp (s : State) (q : Req) (n : Nat) : State :=
  let owner := (q.parent.bind s.req?).getD q
  match s.armedWp owner with
  | none => s
  | some (cl, i) => (s.mapWp cl i fun w => { w with count := w.count + n }).wakeWp cl i

/-- Bytes delivered: the position moves on, and the next delivery or the end is due. -/
def State.delivered (s : State) (q : Req) (n : Nat) (last : Bool) : State :=
  let s := s.mapReq q.id fun x =>
    { x with pos := x.pos + 1, done := x.done + n, ahead := x.ahead.filter fun a => a.index != q.pos }
  let s := (match q.parent with
    | some r => s.mapReq r fun x => { x with done := x.done + n }
    | none => s).raiseWp q n
  if last then s.endReq q.id none 0 else s.raise .lineDeliver q.id 0 0

/-- The bytes of one line of a request, or of one element of a `GATHER`. -/
def Req.pieceSize (q : Req) : Nat := if q.kind = .gather then bits (bd q.blk 3) 32 32 else 64

/-- The number of lines or elements of a request. -/
def Req.pieces (q : Req) : Nat :=
  match q.kind with
  | .copy => copyRows q.blk * (copyRowBytes q.blk / 64)
  | .gather => bits (bd q.blk 3) 0 32
  | .rcopy => (bd q.blk 2).toNat / 64
  | _ => 0

/-- The address of line k of a row copy, from a base and with a row stride (08 R203). -/
def rowLine (blk : List Word) (base : Word) (stride k : Nat) : Word :=
  let perRow := copyRowBytes blk / 64
  base + wordI (signedN stride 32 * (k / perRow : Nat)) + word (k % perRow * 64)

/-- Where a request's line or element k comes from: an address, a parked request, or the end of the request. -/
inductive SrcAns where
  | at (va : Word) (s : State)
  | parked (s : State)
  | bad (kind : Nat) (va : Word)

/-- The source of line or element k: for a `GATHER` the index stream is read (08 R203, R207, R215). DEDUCED (log 45).
DESIGN CHOICE (log 59). -/
def State.sourceOf (s : State) (q : Req) (k : Nat) : SrcAns :=
  match q.kind with
  | .gather =>
    let n := q.pieceSize
    let isz := if bit (blkFlags q.blk) 11 then 8 else 4
    let iva := bd q.blk 0 + word (k * isz)
    if iva.toNat % isz ≠ 0 then .bad 0x02 iva
    else match s.engineAt q iva false with
      | .parked s => .parked s
      | .void s => .parked s
      | .bad e => .bad e iva
      | .at l s =>
        if s.poisonedAt l isz && !blkRaw q.blk then .bad 0x10 iva
        else
          let i := leNat (s.bytesAt l isz)
          let index := if bit (blkFlags q.blk) 12 then wordI (signedN i (8 * isz)) else word i
          let a := bd q.blk 1 + index * word n
          if a.toNat % n ≠ 0 then .bad 0x02 a else .at a s
  | .rcopy => .at (bd q.blk 0 + word (64 * k)) s
  | _ => .at (rowLine q.blk (bd q.blk 0) (bits (bd q.blk 2) 0 32) k) s

/-- The destination address of line or element k. -/
def Req.destOf (q : Req) (k : Nat) : Word :=
  match q.kind with
  | .gather => bd q.blk 2 + word (k * q.pieceSize)
  | .rcopy => bd q.blk 1 + word (64 * k)
  | _ => rowLine q.blk (bd q.blk 1) (bits (bd q.blk 2) 32 32) k

/-- What the read of a line or element gives. -/
inductive Piece where
  | data (bs : List Byte) (flags : List Bool) (early : List Nat) (s : State)
  | parked (s : State)
  | bad (kind : Nat) (va : Word)

/-- A part of a line that another request has written ahead is written whole: an engine that reads a line sees the old value of a
request that writes it, or the new one (14 R325). -/
def State.settleAhead (s : State) (own : Nat) (l : Loc) : State :=
  let half (q : Req) : List (Req × Ahead) :=
    (q.ahead.filter fun a => a.dst == some l && !a.early.isEmpty && decide (q.id ≠ own)).map fun a => (q, a)
  s.each (s.reqs.flatMap half) fun s e =>
    let whole := (upFrom 0 e.2.poison.length).filter fun d => !e.2.early.contains d
    let s := s.each whole fun s d =>
      s.engineWrite e.1 (l.shift (8 * d)) ((e.2.data.drop (8 * d)).take 8) [(e.2.poison[d]?).getD false]
    s.mapReq e.1.id fun x =>
      { x with ahead := x.ahead.map fun y => if y.index = e.2.index then { y with early := whole ++ y.early } else y }

/-- A line is delivered: what other requests have written ahead of it is lost, and they write it again, so that it ends as one
request's value (14 R325). -/
def State.loseAhead (s : State) (own : Nat) (l : Loc) : State :=
  if s.reqs.all fun q => q.id == own || q.ahead.all fun a => a.dst != some l then s
  else { s with reqs := s.reqs.map fun (q : Req) => if q.id = own then q else
    { q with ahead := q.ahead.map fun a => if a.dst = some l then { a with early := [] } else a } }

/-- Line or element k read at its home (08 R202). -/
def State.readPiece (s : State) (q : Req) (k : Nat) : Piece :=
  match s.sourceOf q k with
  | .parked s => .parked s
  | .bad e va => .bad e va
  | .at va s =>
    match s.engineAt q va false with
    | .parked s => .parked s
    | .void s => .parked s
    | .bad e => .bad e va
    | .at l s =>
      let s := s.settleAhead q.id l
      if s.poisonedAt l q.pieceSize && !blkRaw q.blk then .bad 0x10 va
      else .data (s.bytesAt l q.pieceSize) (s.poisonFlags l q.pieceSize) [] s

/-- Line or element k of a request: as it was read ahead, or read now. -/
def State.piece (s : State) (q : Req) (k : Nat) : Piece :=
  match q.ahead.find? fun a => a.index == k with
  | some a => .data a.data a.poison a.early s
  | none => s.readPiece q k

/-- The doublewords of a line written at its destination, but for those written ahead. -/
def State.writeRest (s : State) (q : Req) (m : Loc) (bs : List Byte) (flags : List Bool) (early : List Nat) : State :=
  let s := s.loseAhead q.id m
  if early.isEmpty then s.engineWrite q m bs flags
  else s.each ((upFrom 0 flags.length).zip flags) fun s e =>
    if early.contains e.1 then s else s.engineWrite q (m.shift (8 * e.1)) ((bs.drop (8 * e.1)).take 8) [e.2]

/-- The next line or element of a `COPY` or `GATHER` (08 R203, R207). -/
def State.move (s : State) (q : Req) : State :=
  let last := decide (q.pieces ≤ q.pos + 1)
  match s.piece q q.pos with
  | .parked s => s
  | .bad k va => s.endReq q.id (some k) va
  | .data bs flags early s =>
    let dst := q.destOf q.pos
    match s.engineDst q dst with
    | .parked s => s
    | .bad k => s.endReq q.id (some k) dst
    | .void s => s.delivered q q.pieceSize last
    | .at m s => (s.writeRest q m bs flags early).delivered q q.pieceSize last

/-- The next line of an `RCOPY` leaves for the peer, with its poison. After the last one the request waits for the peer's
acknowledgement of the publication or of the arrival (13 R322). When that comes, and whether the peer refuses the range, is
outside the device: free (08 R215; log 2). DESIGN CHOICE (log 20). -/
def State.remoteLine (s : State) (q : Req) : State :=
  if q.pieces ≤ q.pos then
    let r := s.freeB
    if !r.1 then r.2.raise .lineDeliver q.id 0 0
    else if bd q.blk 3 ≠ 0 then r.2.endReq q.id none 0
    else
      let a := r.2.freeB
      -- of a refused range nothing is written (08 R202)
      if a.1 then a.2.endReq q.id none 0
      else (a.2.mapReq q.id fun x => { x with done := 0 }).endReq q.id (some 0x03) (bd q.blk 1)
  else match s.piece q q.pos with
    | .parked s => s
    | .bad k va => s.endReq q.id (some k) va
    | .data bs flags _ s =>
      let o : Outgoing := .rcopy q.peer (q.destOf q.pos) bs flags (bd q.blk 3) (bit (blkFlags q.blk) 10) (bd q.blk 2).toNat
      ({ s with sent := s.sent ++ [o] }).delivered q 64 false

/-- A request runs ahead of its delivery order: it reads a later line or element, or writes a doubleword of one that it has read to its
destination; which one is free (14 R324; log 2). A read or a write that meets a fault waits for its turn. -/
def State.runAhead (s : State) (id : Nat) : State :=
  match s.req? id with
  | none => s
  | some q =>
    if q.stage ≠ 0 ∨ q.pieces ≤ q.pos then s
    else
      let again (s : State) : State := s.raise .engineAhead id 0 0
      if q.token.isSome ∨ q.belay ∨ q.waits ∨ q.kind = .rcopy then again s
      else
        let r := s.freeW
        let k := q.pos + r.1.toNat % (q.pieces - q.pos)
        match q.ahead.find? fun a => a.index == k with
        | none =>
          match r.2.readPiece q k with
          | .data bs flags _ s =>
            again (s.mapReq id fun x => { x with ahead := x.ahead ++ [{ index := k, data := bs, poison := flags, dst := none, early := [] }] })
          | _ => again r.2
        | some a =>
          let d := r.1.toNat / (q.pieces - q.pos) % (if a.poison.isEmpty then 1 else a.poison.length)
          if a.early.contains d then again r.2
          else match r.2.engineDst q (q.destOf k) with
            | .at l s =>
              let s := s.engineWrite q (l.shift (8 * d)) ((a.data.drop (8 * d)).take 8) [(a.poison[d]?).getD false]
              again (s.mapReq id fun x =>
                { x with ahead := x.ahead.map fun y => if y.index = k then { y with dst := some l, early := d :: y.early } else y })
            | _ => again r.2

/-- A free context of a memory core (01 R18: four). -/
def State.freeMemorySlot (s : State) (core : Nat) : Option Tid :=
  ((upFrom 0 4).find? fun n => s.isFree { kind := .memory, unit := core, slot := n }).map fun n =>
    { kind := .memory, unit := core, slot := n }

/-- A loader program starts on its memory core, with `g1` = the block's address; it waits for a free context there, and an
unregistered `PID` ends the request (08 R206). -/
def State.startLoader (s : State) (q : Req) : State :=
  let entry := q.entry
  if q.started then s
  else if entry = 0 then s.endReq q.id (some 0x06) 0
  else match s.freeMemorySlot q.core with
    | none => s
    | some t =>
      let (uid, s) := s.newUid
      let k : Task := { uid := uid, part := q.part, ctx := q.ctx, hdr := 0, reg := 0, idx := 0, cls := .free, key := 0, prio := 0,
                        dispatched := s.tick, ranBefore := 0, retired := 0, exitAt := none, sig := 0, irrevocable := false, accessed := false,
                        finished := none, pubs := [], host := none, loader := some q.id }
      let regs : Regs := { Regs.reset with
        g := (Vector.replicate 32 (0 : Word)).set 1 q.va
        pc := entry
        status := setBits 0 10 1 (if (s.part q.part).det then 1 else 0) }
      (s.mapReq q.id fun x => { x with started := true }).setThread
        { Thread.idle t with wait := .ready, regs := regs, task := some k }

/-- A child of a `COPYP` delivers after the children issued before it (08 R206). -/
def State.childWaits (s : State) (q : Req) : Bool :=
  q.parent.isSome && s.reqs.any fun x => x.parent == q.parent && decide (x.id < q.id)

/-- A request moves its next line or element (08 R202 to R207). -/
def State.deliver (s : State) (id : Nat) : State :=
  match s.req? id with
  | none => s
  | some q =>
    if q.stage ≠ 0 ∨ q.token.isSome ∨ q.belay ∨ q.waits ∨ s.childWaits q then s
    else match q.kind with
      | .copy => s.move q
      | .gather => s.move q
      | .rcopy => s.remoteLine q
      | .copyp => s.startLoader q
      | .strm => s

/-- `ENGINE_LINE_DELIVER` (08 R203, R204, R207). -/
def execEngineLineDeliver (r : Nat) (s : State) : Out := .next (s.deliver r)

/-! ### The end of a request (08 R200, R201; 14 R326, R332) -/

/-- `STATUS` of a completion record. -/
def recordStatus (q : Req) (cref : Bool) : Word :=
  word ((if cref then 2 ^ 32 else 0) + q.elem % 256 * 2 ^ 24 + q.sid % 256 * 2 ^ 16 + (q.endKind.getD 0) % 256)

/-- The 64 bytes of a completion record; its last four doublewords belong to streams. -/
def recordBytes (q : Req) (cref : Bool) : List Byte :=
  ([recordStatus q cref, if q.kind = .strm then 0 else word q.done, if q.endKind.isSome then q.faddr else 0, q.va] ++
    (upFrom 0 4).map fun i => if q.kind = .strm then bd q.cnts i else 0).flatMap fun w => leBytes 8 w.toNat

/-- The completion action at the word of a rope or future (08 R201); an underflow of a link traps no agent. DEDUCED (log 45).
DESIGN CHOICE (log 64). -/
def State.completionAction (s : State) (q : Req) (l : Loc) : State :=
  match l with
  | .dram p g =>
    let s := s.releasePrt q.id
    if blkAct q.blk = 1 then s.ropeBytes p g (word (declaredBytes q.kind q.blk))
    else if 2 ≤ bits (s.readD p g) 62 2 then s
    else match q.endKind with
      | none => (s.resolveFuture p g 2 (bd q.blk 7)).2
      | some k =>
        let recorded := bd q.blk 4 != 0 && !q.noRecord
        (s.resolveFuture p g 3 (if recorded then recordStatus q false else word k)).2
  | _ => s

/-- The pages of the cairn entry that `RES` writes: from the lowest to the highest source byte, up to 256 MiB (08 R203). -/
def copyPages (blk : List Word) : Word × Nat :=
  let first := ((bd blk 0).toNat : Int)
  let last := first + signedN (bits (bd blk 2) 0 32) 32 * ((copyRows blk : Int) - 1)
  let lo := alignDown (min first last).toNat 4096
  let hi := (max first last).toNat + copyRowBytes blk
  (word lo, Nat.min ((hi + 4095) / 4096 - lo / 4096) 65536)

/-- The thread that waits in `PUBLISH` of an umbra is looked at again. -/
def State.noteUmbra (s : State) (p : Nat) (u : Option Nat) : State :=
  match u with
  | some n => s.raise .flip p n 0
  | none => s

/-- A request is over: residency is registered, its write pointer is no longer reserved, its leave is given back, and what waited
for it goes on. -/
def State.closeReq (s : State) (q : Req) : State :=
  let s := { s with reqs := s.reqs.filter fun x => x.id != q.id }.forgetStream q.id
  -- a fabric that drains after a reset is released (22 R420)
  let s := match (if q.kind = .strm then s.streamFabric q.cl q.id else none) with
    | some f => s.raise .fabRelease q.cl f 0
    | none => s
  let dst := s.scratchDst q.part q.cl q.kind q.blk
  let s := match blkRes q.blk && q.endKind.isNone && declaredBytes q.kind q.blk != 0, dst with
    | true, some d =>
      let pg := copyPages q.blk
      (s.setCairn q.part d.1 pg.1 pg.2 0).2
    | _, _ => s
  let s := match s.armedWp q with
    | some (cl, i) => (s.mapWp cl i fun w => { w with req := none }).wakeWp cl i
    | none => s
  let s := (s.giveBack q.die q.id).noteUmbra q.part q.umbra
  let s := match q.parent with
    | some r =>
      let s := (s.mapReq r fun x => { x with children := x.children - 1 }).raise .engineDone r 0 0
      match s.reqs.find? (fun (x : Req) => x.parent == some r) with
      | some x => s.raise .lineDeliver x.id 0 0
      | none => s
    | none => s
  let s := if q.ordered || q.umbra.isSome then s.raise .commit q.part q.ctx 0 else s
  s.sweepWake q.part

/-- A request that ends early breaks the write pointer that it has armed (08 R202, 14 R326). DEDUCED (log 45). -/
def State.breakWp (s : State) (q : Req) : State :=
  match s.armedWp q with
  | some (cl, i) => if q.endKind.isSome then (s.mapWp cl i fun w => { w with brk := true }).wakeWp cl i else s
  | none => s

/-- The fabric of a stream stands saved with its context or with the checkpoint of its task (14 R335; 22 R417). -/
def State.streamSaved (s : State) (r : Nat) : Bool :=
  let runs (f : Fabric) : Bool := (f.stream.map fun x => x.req) == some r
  let paused (c : Cluster) : Bool := c.paused.any fun x => runs x.fab
  (s.clusters.any fun e => paused e.2) ||
    s.parts.any fun e => e.2.saves.any fun a => (a.cluster.fabrics.any fun f => runs f.2) || paused a.cluster

/-- The record and the completion action of a request that has ended, and its close, once every write that it has made is
acknowledged at `.prt` (08 R201); either can wait for fault service, and neither is made for an aborted task's request
(14 R332). A stopped stream's record precedes the release of its fabric, also of one that is saved, and its action follows it
(08 R209). DEDUCED (log 45). DESIGN CHOICE (log 64). -/
def State.finishReq (s : State) (q : Req) : State :=
  if q.aborted then s.closeReq q
  else
    let s := (s.releasePrt q.id).breakWp q
    let draining := decide (q.kind = .strm) && ((s.streamFabric q.cl q.id).isSome || s.streamSaved q.id)
    if draining && q.recorded then s
    else
    -- a stopped stream: the record only, and the future's line is held
    let halfway (s : State) (q : Req) (holds : Option (Nat × Nat)) : State :=
      let s := s.mapReq q.id fun x => { x with stage := 1, recorded := true, holds := holds, endKind := q.endKind, noRecord := q.noRecord }
      match s.streamFabric q.cl q.id with
      | some f => s.raise .fabRelease q.cl f 0
      | none => s
    let act (s : State) (q : Req) (rec : Option Loc) : State :=
      let write (s : State) (cref : Bool) : State := match rec with
        | some l => s.engineWrite q l (recordBytes q cref) []
        | none => s
      let close (s : State) : State := if draining then halfway s q none else s.closeReq q
      let va := bd q.blk 6
      let align := if blkAct q.blk = 1 then 16 else 8
      if blkAct q.blk = 0 ∨ q.noAction ∨ va.toNat % align ≠ 0 then close (write s false)
      else match (s.mapReq q.id fun x => { x with stage := 2 }).engineAt q va true with
        | .parked s => s
        | .void s => close (write s false)
        | .bad _ => close (write s false)
        | .at l s =>
          let cref := match l with
            | .dram p g => blkAct q.blk == 2 && decide (2 ≤ bits (s.readD p g) 62 2)
            | _ => false
          if draining then halfway (write s cref) q (match l with
            | .dram p g => if blkAct q.blk = 2 then some (p, g / 64) else none
            | _ => none)
          else ((write s cref).completionAction q l).closeReq q
    if bd q.blk 4 = 0 ∨ q.noRecord ∨ q.recorded then act s q none
    else match s.engineAt q (bd q.blk 4) true with
      | .parked s => s.mapReq q.id fun x => { x with stage := 1 }
      | .void s => act s q none
      | .bad k =>
        let q' := { q with endKind := some k, noRecord := true }
        act (s.breakWp q') q' none
      | .at l s => act s q (some l)

/-- A request whose deliveries are over, and for a `COPYP` whose program has ended and whose children are complete, ends. -/
def State.engineEnd (s : State) (id : Nat) : State :=
  match s.req? id with
  | none => s
  | some q =>
    let program := decide (q.kind = .copyp) && q.started
    if q.token.isSome ∨ q.waits ∨ (q.stage = 0 ∧ !(program ∧ q.exited)) ∨ q.children ≠ 0 then s
    else
      let q' := { q with stage := if q.stage = 0 then 1 else q.stage }
      (s.mapReq id fun _ => q').finishReq q'

/-- A request whose place in an inbox has come goes on (22 R416). DESIGN CHOICE (log 43). -/
def State.resumeReq (s : State) (id : Nat) : State :=
  match s.req? id with
  | none => s
  | some q =>
    let s := s.mapReq id fun x => { x with waits := false }
    if q.stage = 0 then s.deliver id else s.engineEnd id

/-- `ENGINE_COMPLETE` (08 R200, R201). -/
def execEngineComplete (r : Nat) (s : State) : Out := .next (s.engineEnd r)

/-! ### Umbras (08 R211, R213, R214) -/

/-- The 64 KiB chunks of the umbra frame pool in a logical column (08 R211, 22 R396). -/
def Part.poolChunks (t : Part) (col : Nat) : List Nat :=
  upFrom (col * 2 ^ 19 + bits t.umbpool 0 10 * 2 ^ 9) (bits t.umbpool 32 10 * 2 ^ 9) ++
    t.poolExtra.filter fun c => c / 2 ^ 19 == col

/-- Shadow chunks for backing chunks, each from the pool of its own column; `none` when a pool lacks them. -/
def Part.reserve (t : Part) : List Nat → Option (List Chunk × Part)
  | [] => some ([], t)
  | g :: gs =>
    match (t.poolChunks (g / 2 ^ 19)).find? fun c => !t.poolUsed.contains c with
    | none => none
    | some c =>
      (Part.reserve { t with poolUsed := t.poolUsed ++ [c] } gs).map fun r =>
        ({ gpa := g, shadow := c, written := false } :: r.1, r.2)

/-- The first byte of a 64 KiB chunk that lies in a view range, as an offset. -/
def Part.viewOffset (t : Part) (gpa : Nat) : Nat :=
  let o := columnOffset gpa
  (t.conf.windows.filter fun e => e.2.enabled).foldl (fun b e =>
    let v := e.2.view.toNat
    let n := e.2.len.toNat * e.2.factor
    if v ≤ o ∧ o < v + n then 0 else if o ≤ v ∧ n ≠ 0 ∧ v - o < b then v - o else b) (2 ^ 16)

/-- The backing chunks of n chunks of a buffer, each translated for writing (08 R211). -/
def State.umbraChunks : State → Word → Nat → Acc (List Nat)
  | s, _, 0 => .ok [] s
  | s, va, n + 1 =>
    let trap : TrapRec := { kind := 0, taddr := va, tinfo := accInfo 1 3 1 }
    let refused (s : State) (va : Word) : Acc (List Nat) := .trap (structTrap 0x03 va 8 0) s
    match s.locate va 1 trap with
    | .wait s => .wait s
    | .trap r s => if r.kind = 0x03 then refused s va else .trap r s
    | .ok l s =>
      match l with
      | .dram p g =>
        let v := (s.part p).viewOffset g
        if v < 2 ^ 16 then refused s (va + word v)
        else (s.structHome l true trap).bind fun _ s =>
          (State.umbraChunks s (va + 2 ^ 16) n).bind fun rest s => .ok (g / 2 ^ 16 :: rest) s
      | _ => refused s va

/-- Umbras that a partition's buffer table holds (08 R211). -/
def umbraTable : Nat := 4096

/-- `UMBRA` (08 R211). DESIGN CHOICE (log 63). -/
def execUmbra (d a b : Reg) (s : State) : Out :=
  s.needTask "UMBRA" fun k =>
    let va := s.g a
    let n := (s.g b).toNat
    if va.toNat % 2 ^ 16 ≠ 0 then .next (s.takeTrap { kind := 0x02, taddr := va, tinfo := accInfo 0 3 0 })
    else if n = 0 ∨ n % 2 ^ 16 ≠ 0 ∨ 2 ^ 32 < n then .next (s.takeTrap (structTrap 0x03 va 12 0))
    else
      (((s.release .prt).umbraChunks va (n / 2 ^ 16)).bind fun gs s =>
        let t := s.part k.part
        let refused (cause : Nat) : Acc Nat := .trap (structTrap 0x03 va cause 0) s
        match (upFrom 0 umbraTable).find? fun i => !t.umbras.any fun u => u.id == i with
        | none => refused 15
        | some id =>
          match t.reserve gs with
          | none => refused 16
          | some (chunks, t') =>
            if t.umbras.any fun u => u.chunks.any fun c => gs.contains c.gpa then refused 17
            else
              let u : Umbra := { id := id, part := k.part, ctx := k.ctx, owner := k.uid, base := va.toNat, len := n,
                                 chunks := chunks, cut := false, ordered := decide (k.cls = .ordered),
                                 remote := none }
              .ok id (s.mapPart k.part fun _ => { t' with umbras := t'.umbras ++ [u] })).run
        fun id s => (s.setG d (word id)).advance 4

/-- The chunk of guest-physical space that a backing chunk stands for. -/
def Part.nominal (t : Part) (backing : Nat) : Nat :=
  match t.select.find? fun e => e.2 == backing with
  | some e => e.1
  | none => backing

/-- A written chunk is published: its selector names the shadow, and the backing it retires joins the pool (08 R211, R213). -/
def Part.publishChunk (t : Part) (c : Chunk) : Part :=
  let own := t.poolUsed.contains c.gpa
  { t with
    select := t.select.put (t.nominal c.gpa) c.shadow
    poolUsed := t.poolUsed.filter fun x => x != c.gpa
    poolExtra := if own then t.poolExtra else t.poolExtra ++ [c.gpa] }

/-- Copies of the lines of a chunk leave every L1 and RDC, and the homes clear their directory bits (13 R319). DEDUCED (log 45). -/
def State.purgeChunk (s : State) (p chunk : Nat) : State :=
  let keep (x : Line) : Bool := !(x.vmid == (s.part p).vmid && x.line / 1024 == chunk)
  let bits (e : Nat × Nat × Nat) : Bool := !(e.1 == (s.part p).vmid && e.2.1 / 1024 == chunk)
  { s with
    clusters := s.clusters.map fun (e : Nat × Cluster) => (e.1, { e.2 with l1 := e.2.l1.filter keep })
    dies := s.dies.map fun (e : Nat × Die) => (e.1, { e.2 with rdc := e.2.rdc.filter keep, dirBits := e.2.dirBits.filter bits }) }

/-- An umbra closes: its written chunks are flipped, or discarded, and the pool regains the other shadows (08 R211, R213). -/
def State.closeUmbra (s : State) (p u : Nat) (discard : Bool) : State :=
  match (s.part p).umbras.find? (fun x => x.id == u) with
  | none => s
  | some x =>
    let flips := if discard then [] else x.chunks.filter fun c => c.written
    let back := (if discard then x.chunks else x.chunks.filter fun c => !c.written).map fun c => c.shadow
    let s := s.mapPart p fun t =>
      flips.foldl Part.publishChunk { t with
        umbras := t.umbras.filter fun y => y.id != u
        poolUsed := t.poolUsed.filter fun c => !back.contains c }
    s.each flips fun s c => s.purgeChunk p c.shadow

/-- An engine request for an umbra is outstanding (08 R213 step 2). -/
def State.umbraBusy (s : State) (p u : Nat) : Bool := s.reqs.any fun q => q.part == p && q.umbra == some u

/-- A `PUBLISH` takes its cut at an umbra's home (14 R330). DEDUCED (log 45). -/
def State.cutUmbra (s : State) (p u : Nat) : State :=
  s.mapPart p fun t => { t with umbras := t.umbras.map fun x => if x.id = u then { x with cut := true } else x }

/-- `PUBLISH`: a free task's takes its cut and waits for the flip; an ordered task's step is held, cut and all, for its commit
(08 R213, R214; 14 R330). DESIGN CHOICE (log 35). DESIGN CHOICE (log 60). DEDUCED (log 45). -/
def execPublish (a b : Reg) (s : State) : Out :=
  s.needTask "PUBLISH" fun k =>
    let u := bits (s.g a) 0 12
    let discard := bit (s.g b) 0
    let mine := k.pubs.any fun x => x.umbra == u
    if mine || !(s.part k.part).umbras.any (fun x => x.id == u && !x.cut) then .next (s.takeTrap (structTrap 0x03 0 18 0))
    else
      let s := s.release .prt
      if s.orderedTask then
        .next ((s.mapTask fun x => { x with pubs := x.pubs ++ [{ umbra := u, discard := discard }] }).advance 4)
      else .next (((s.cutUmbra k.part u).setWait (.flip u discard)).raise .flip k.part u 0)

/-- A thread that waits in `PUBLISH` of an umbra of a partition. -/
def Thread.inPublish (th : Thread) (p u : Nat) : Option Bool :=
  match th.wait, th.task with
  | .flip n discard, some k => if n = u ∧ k.part = p then some discard else none
  | _, _ => none

/-- `PUBLISH_FLIP`: with every earlier `UMB` request complete, the selectors flip and the waiting `PUBLISH` retires
(08 R213, 14 R330). DEDUCED (log 45). -/
def execPublishFlip (p u : Nat) (s : State) : Out :=
  if s.umbraBusy p u then .next s
  else match s.threads.findSome? (fun th => (th.inPublish p u).map fun d => (th, d)) with
    | none =>
      .next (match ((s.part p).umbras.find? fun x => x.id == u).bind fun x => x.remote with
        | some (rdst, len) =>
          let s := s.closeUmbra p u false
          { s with sent := s.sent ++ [.rcopyAck p rdst 0 len 0] }
        | none => s)
    | some (th, discard) =>
      .next ((s.closeUmbra p u discard).asThread th.id fun s => (s.setWait .ready).advance 4)

end Sys2Proof.Machine
end

