-- ==== Sys2Proof/Machine/Image.lean ====
section
/-! DEFINITION. The image binary and the checks that the fabric manager makes at load (11 R269, R270, R275 to R293). -/

namespace Sys2Proof.Machine

/-! ### Elements (11 R269) -/

/-- The kinds of elements. -/
inductive ElemKind where
  | age | te | ce32 | ce64 | de | sge
  deriving DecidableEq, Repr

/-- The kind of an element by its id = row × 8 + column (11 R269). -/
def elemKind (e : Nat) : ElemKind :=
  let r := e / 8
  let c := e % 8
  if c = 0 then .age
  else if c = 7 then .te
  else if r < 4 then .ce32
  else if r < 6 then (if c < 5 then .ce64 else .de)
  else if c < 3 then .de
  else if c < 5 then .sge
  else .sge

/-- An op takes its operands at port a, at ports a and b, or at all three; `none` for an unassigned code (11 R275). -/
def opPorts (op : Nat) : Option Nat :=
  if op = 0 then some 0
  else if op = 0x01 ∨ op = 0x18 ∨ op = 0x19 ∨ op = 0x1B ∨ op = 0x50 ∨ op = 0x60 then some 1
  else if op = 0x12 ∨ op = 0x15 ∨ op = 0x1A ∨ op = 0x30 ∨ op = 0x42 ∨ op = 0x43 then some 3
  else if op ≤ 0x17 ∨ op = 0x31 ∨ op = 0x32 ∨ op = 0x40 ∨ op = 0x41 then some 2
  else none

/-- An element accepts an op (11 R275). -/
def acceptsOp (k : ElemKind) (op : Nat) : Bool :=
  op == 0 || (match k with
    | .age => decide (0x40 ≤ op ∧ op ≤ 0x43)
    | .te => op == 0x50
    | .de => op == 0x60
    | .sge => op == 0x01 || decide (0x30 ≤ op ∧ op ≤ 0x32)
    | .ce32 => decide (op ≤ 0x1B) && !decide (0x13 ≤ op ∧ op ≤ 0x15)
    | .ce64 => decide (op ≤ 0x1B))

/-- `ACC` is accepted for an op (11 R277). -/
def accOp (op : Nat) : Bool := decide (0x02 ≤ op ∧ op ≤ 0x17)

/-- A fused multiply-add. -/
def fmaOp (op : Nat) : Bool := op == 0x12 || op == 0x15

/-! ### Records -/

/-- A port kind from its code and argument index. -/
def portKind (code n : Nat) : PortKind :=
  match code with
  | 0 => .arc
  | 1 => .const
  | 2 => .arg n
  | _ => .none

/-- A pattern with its checks (11 R275 to R282, R290, R293.2). -/
def Pattern.ofWords (lo hi : Word) : Option Pattern :=
  let op := bits lo 0 8
  let codes := [bits lo 8 2, bits lo 10 2, bits lo 12 2]
  let args := [bits lo 14 3, bits lo 17 3, bits lo 20 3]
  let sx := bit lo 23
  let acc := bit lo 24
  let aux := bits lo 32 32
  let code (i : Nat) : Nat := (codes[i]?).getD 3
  let taken := if fmaOp op then 2 else 1
  let portOk (n i : Nat) : Bool :=
    if acc && i == taken then code i == 3
    else if decide (i < n) then code i != 3 && !(acc && code i == 1)
    else code i == 3
  let argOk (i : Nat) : Bool := code i == 2 || (args[i]?).getD 0 == 0
  let auxOk : Bool :=
    if acc then aux / 4 == 0
    else if 0x40 ≤ op ∧ op ≤ 0x43 then decide (aux < 2 ^ 16)
    else if op = 0x50 then decide (aux < 2)
    else if op = 0x60 then decide (1 ≤ aux ∧ aux ≤ 32)
    else aux == 0
  let sxOk := !sx || op == 0x40 || (op == 0x50 && aux == 1)
  match opPorts op with
  | none => none
  | some n =>
    if bits lo 25 7 ≠ 0 ∨ !((upFrom 0 3).all fun i => portOk n i && argOk i) ∨ (acc && !accOp op) ∨ !auxOk ∨ !sxOk ∨
        (op = 0x50 ∧ hi.toNat % 4096 ≠ 0) then none
    else some { op := op, a := portKind (code 0) (bits lo 14 3), b := portKind (code 1) (bits lo 17 3),
                c := portKind (code 2) (bits lo 20 3), sx := sx, acc := acc, aux := aux, const := hi }

/-- A rectangle's elements with its pattern index; `none` when it breaks R293.3 alone (11 R291). -/
def rectElems (w : Word) (npat : Nat) : Option (List (Nat × Nat)) :=
  let p := bits w 0 16
  let r0 := bits w 16 8
  let c0 := bits w 24 8
  let rows := bits w 32 8
  let cols := bits w 40 8
  if npat ≤ p ∨ bits w 48 16 ≠ 0 ∨ 8 < r0 + rows ∨ 8 < c0 + cols then none
  else some ((upFrom r0 rows).flatMap fun r => (upFrom c0 cols).map fun c => (r * 8 + c, p))

/-- A nest record with its checks (11 R284). -/
def Nest.ofBytes (bs : List Byte) : Option Nest :=
  let eng := blockN bs 0 1
  let ndim := blockN bs 1 1
  let bsrc := blockN bs 2 1
  let cnts := (upFrom 0 4).map fun i => blockN bs (4 + 2 * i) 2
  let strs := (upFrom 0 4).map fun i => blockD bs (0x18 + 8 * i)
  let base := blockD bs 0x10
  let ok := decide (eng ≤ 3) && decide (1 ≤ ndim ∧ ndim ≤ 4) && (bsrc == 0xFF || decide (bsrc < 8)) && blockN bs 3 1 == 0 &&
    blockN bs 0x0C 4 == 0 && blockD bs 0x38 == 0 && (bsrc == 0xFF || base == 0) &&
    (upFrom 0 4).all fun i =>
      if i < ndim then (cnts[i]?).getD 0 != 0 else (cnts[i]?).getD 0 == 0 && (strs[i]?).getD 0 == 0
  if ok then some { eng := eng, ndim := ndim, bsrc := bsrc, cnts := cnts, base := base, strs := strs } else none

/-- A controller record with the checks on itself (11 R286). -/
def Ctl.ofBytes (i : Nat) (bs : List Byte) : Option Ctl :=
  let kind := blockN bs 0 1
  let parent := blockN bs 1 1
  let dim := blockN bs 2 1
  let depth := blockN bs 3 1
  let mask := (blockD bs 8).toNat
  let paced := kind == 1 || kind == 2
  let ok := decide (kind ≤ 3) && blockN bs 4 4 == 0 && (if i = 0 then parent == 0xFF else decide (parent < i)) &&
    (if paced then decide (dim ≤ 4) else dim == 0) && (if kind = 2 then decide (1 ≤ depth ∧ depth ≤ 8) else depth == 0) &&
    (kind == 0 || mask == 0)
  if ok then some { kind := kind, parent := parent, dim := dim, depth := depth, mask := mask } else none

/-- Every element of a list of options, or none. -/
def allSome {α : Type} : List (Option α) → Option (List α)
  | [] => some []
  | none :: _ => none
  | some a :: rest => (allSome rest).map fun l => a :: l

/-! ### Checks over the whole image -/

/-- No element stands twice in a list. -/
def distinct (l : List Nat) : Bool :=
  match l with
  | [] => true
  | a :: as => !as.contains a && distinct as

/-- The pattern of a configured element. -/
def Image.pat? (i : Image) (e : Nat) : Option Pattern :=
  match i.elems.find? fun x => x.1 == e with
  | none => none
  | some x => i.pats[x.2]?

/-- The kind of a port of a pattern. -/
def Pattern.port (p : Pattern) (n : Nat) : PortKind :=
  match n with
  | 0 => p.a
  | 1 => p.b
  | _ => p.c

/-- The routes into a port. -/
def Image.into (i : Image) (e port : Nat) : List Route := i.routes.filter fun r => r.dst == e && r.port == port

/-- The checks of R293.4 on one route. -/
def Image.routeOk (i : Image) (r : Route) : Bool :=
  let configured (e : Nat) : Bool := i.elems.any fun x => x.1 == e
  let srcOk := if r.src < 64 then configured r.src
    else if r.src < 72 then decide (r.src < 64 + i.nargs)
    else decide (r.src < 76) && i.nests.any fun n => n.eng == r.src - 72
  let dstOk := decide (r.dst < 64) || decide (80 ≤ r.dst ∧ r.dst < 88)
  srcOk && dstOk && decide (r.port < 3) && (decide (r.dst < 64) || r.port == 0) &&
  decide ((i.routes.filter fun x => x.src == r.src).length ≤ 8)

/-- The checks of R293.5 on the ports of a configured element, and of one that is not. -/
def Image.portsOk (i : Image) (e : Nat) : Bool :=
  (upFrom 0 3).all fun n =>
    let ins := i.into e n
    match i.pat? e with
    | none => ins.isEmpty
    | some p =>
      match p.port n with
      | .arc => (match ins with
        | [r] => decide (r.src < 64) || decide (72 ≤ r.src)
        | _ => false)
      | .arg k => (match ins with
        | [r] => r.src == 64 + k
        | _ => false)
      | _ => ins.isEmpty

/-- The elements from which a set of sources can be reached backwards along routes, n steps deep. -/
def Image.ancestors (i : Image) : Nat → List Nat → List Nat
  | 0, l => l
  | n + 1, l => Image.ancestors i n ((l ++ (i.routes.filter fun r => l.contains r.dst).map fun r => r.src).eraseDups)

/-- The checks of R293.6 on the result slots. -/
def Image.resultsOk (i : Image) : Bool :=
  (upFrom 0 8).all fun n =>
    let ins := i.into (80 + n) 0
    if n < i.nres then
      ins.length == 1 && (i.ancestors 65 [80 + n]).any fun s => decide (64 ≤ s ∧ s < 72)
    else ins.isEmpty

/-- The elements that are left when those without a route from another that is left are taken away, n times (11 R293.7). -/
def Image.unrooted (i : Image) : Nat → List Nat → List Nat
  | 0, l => l
  | n + 1, l =>
    Image.unrooted i n (l.filter fun e => i.routes.any fun r => r.dst == e && decide (r.src < 64) && l.contains r.src)

/-- The elements under a controller record: a pitch's own, or those of its children, n levels deep. -/
def Image.under (i : Image) : Nat → Nat → List Nat
  | 0, _ => []
  | n + 1, c =>
    match i.ctls[c]? with
    | none => []
    | some k =>
      if k.kind = 0 then (upFrom 0 64).filter fun e => k.mask.testBit e
      else ((upFrom 0 i.ctls.length).filter fun j => match i.ctls[j]? with
        | some x => j != 0 && x.parent == c
        | none => false).flatMap fun j => Image.under i n j

/-- The children of a controller record, in ascending index. -/
def Image.children (i : Image) (c : Nat) : List Nat :=
  (upFrom 1 i.ctls.length).filter fun j => match i.ctls[j]? with
    | some x => x.parent == c
    | none => false

/-- The checks on the controller tree as a whole (11 R286). -/
def Image.ctlsOk (i : Image) : Bool :=
  let n := i.ctls.length
  let innerOk := (upFrom 0 n).all fun j => match i.ctls[j]? with
    | none => true
    | some k =>
      (k.kind == 0 || !(i.children j).isEmpty) && (j == 0 || (match i.ctls[k.parent]? with
        | some p => p.kind != 0
        | none => false))
  let owners (e : Nat) : Nat := (i.ctls.filter fun k => k.kind == 0 && k.mask.testBit e).length
  n == 0 || (innerOk && (upFrom 0 64).all fun e => owners e == (if i.elems.any fun x => x.1 == e then 1 else 0))

/-- The latency of an element (11 R292). -/
def Pattern.latency (p : Pattern) : Nat :=
  if p.op = 0x04 ∨ (0x10 ≤ p.op ∧ p.op ≤ 0x12) ∨ p.op = 0x16 ∨ p.op = 0x17 ∨ p.op = 0x50 then 4
  else if 0x13 ≤ p.op ∧ p.op ≤ 0x15 then 6
  else if p.op = 0x1A then 10
  else if p.op = 0x60 then p.aux
  else if 0x40 ≤ p.op ∧ p.op ≤ 0x43 then 20
  else 2

/-- The largest latency of a path that ends at each element, after n rounds; 0 where no path arrives. -/
def Image.arrivals (i : Image) : Nat → Tbl Nat → Tbl Nat
  | 0, t => t
  | n + 1, t =>
    Image.arrivals i n (i.elems.map fun x =>
      let best := (i.routes.filter fun r => r.dst == x.1).foldl (fun b r =>
        Nat.max b (if r.src < 64 then t.getD r.src 0 else 2)) 0
      (x.1, if best = 0 then 0 else best + ((i.pat? x.1).map Pattern.latency).getD 0))

/-- The computed latency of an image (11 R292). -/
def Image.latency (i : Image) : Nat :=
  let t := i.arrivals 64 []
  let stores := (i.elems.filter fun x => ((i.pat? x.1).map fun p => decide (0x42 ≤ p.op ∧ p.op ≤ 0x43)).getD false).map fun x =>
    t.getD x.1 0
  let results := (i.routes.filter fun r => decide (80 ≤ r.dst)).map fun r => if r.src < 64 then t.getD r.src 0 + 2 else 4
  (stores ++ results).foldl Nat.max 0

/-- Two ranges do not meet, or one is empty. -/
def apart (a b : Nat × Nat) : Bool := a.2 == 0 || b.2 == 0 || decide (a.1 + a.2 ≤ b.1) || decide (b.1 + b.2 ≤ a.1)

/-- Every two of a list of ranges are apart. -/
def allApart : List (Nat × Nat) → Bool
  | [] => true
  | a :: as => as.all (apart a) && allApart as

/-- The header of a binary obeys R289. -/
def headerOk (bs : List Byte) : Bool :=
  let flags := blockN bs 6 2
  let counts := (upFrom 0 5).map fun i => blockN bs (8 + 2 * i) 2
  let n (i : Nat) : Nat := (counts[i]?).getD 0
  let offs := (upFrom 0 5).map fun i => blockN bs (0x18 + 4 * i) 4
  let sizes := [16, 8, 4, 64, 16]
  let size := blockN bs 0x2C 4
  let sections := (offs.zip sizes).zip counts |>.map fun e => (e.1.1, e.1.2 * e.2, e.1.2)
  let nargs := blockN bs 0x12 1
  let nres := blockN bs 0x13 1
  blockN bs 0 4 == 0x5A58494D && blockN bs 4 2 == 1 && (flags == 1 || flags == 2) &&
  decide (1 ≤ n 0 ∧ n 0 ≤ 64) && decide (1 ≤ n 1 ∧ n 1 ≤ 64) && decide (n 2 ≤ 512) && decide (n 3 ≤ 4) && decide (n 4 ≤ 32) &&
  decide (nargs ≤ 8) && (if flags = 1 then decide (1 ≤ nres ∧ nres ≤ 8) && n 3 == 0
    else nres == 0 && decide (1 ≤ n 3) && decide (1 ≤ n 4)) &&
  decide (64 ≤ size ∧ size ≤ 16384) && decide (size ≤ bs.length) && blockN bs 0x30 16 == 0 &&
  (sections.all fun e => if e.2.1 = 0 then e.1 == 0
    else e.1 % e.2.2 == 0 && decide (64 ≤ e.1) && decide (e.1 + e.2.1 ≤ size)) &&
  allApart (sections.map fun e => (e.1, e.2.1))

/-- A binary parsed and checked; `none` for one that the fabric manager rejects (11 R293). DEDUCED (log 42). -/
def parseImage (img : Word) (bs : List Byte) : Option Image :=
  if !headerOk bs then none
  else
    let n (i : Nat) : Nat := blockN bs (8 + 2 * i) 2
    let off (i : Nat) : Nat := blockN bs (0x18 + 4 * i) 4
    let pats := allSome ((upFrom 0 (n 0)).map fun i =>
      Pattern.ofWords (blockD bs (off 0 + 16 * i)) (blockD bs (off 0 + 16 * i + 8)))
    let rects := allSome ((upFrom 0 (n 1)).map fun i => rectElems (blockD bs (off 1 + 8 * i)) (n 0))
    let routeWords := (upFrom 0 (n 2)).map fun i => blockN bs (off 2 + 4 * i) 4
    let nests := allSome ((upFrom 0 (n 3)).map fun i => Nest.ofBytes (bs.drop (off 3 + 64 * i)))
    let ctls := allSome ((upFrom 0 (n 4)).map fun i => Ctl.ofBytes i (bs.drop (off 4 + 16 * i)))
    match pats, rects, nests, ctls with
    | some pats, some rects, some nests, some ctls =>
      let covered := rects.flatMap fun r => r
      let op (x : Nat × Nat) : Nat := ((pats[x.2]?).map fun p => p.op).getD 0
      let i : Image :=
        { img := img, call := blockN bs 6 2 == 1, nargs := blockN bs 0x12 1, nres := blockN bs 0x13 1, lat := blockN bs 0x14 4,
          pats := pats, elems := covered.filter fun x => op x != 0,
          routes := routeWords.map fun w => { src := w % 128, dst := w / 128 % 128, port := w / 2 ^ 14 % 4 },
          nests := nests, ctls := ctls }
      let ok := distinct (covered.map fun x => x.1) && (covered.all fun x => acceptsOp (elemKind x.1) (op x)) &&
        (routeWords.all fun w => w / 2 ^ 16 == 0) && i.routes.all i.routeOk && (upFrom 0 64).all i.portsOk && i.resultsOk &&
        (i.unrooted 64 (i.elems.map fun x => x.1)).isEmpty && distinct (nests.map fun n => n.eng) && i.ctlsOk &&
        decide (i.latency ≤ i.lat)
      if ok then some i else none
    | _, _, _, _ => none

end Sys2Proof.Machine
end

