-- ==== Sys2Proof/Machine/Fabric.lean ====
section
/-! DEFINITION. What a fabric computes: tokens, firing, memory elements, controllers and stream engines (11 R271 to R294;
08 R192, R196, R209). -/

namespace Sys2Proof.Machine

/-! ### Tokens and FIFOs (11 R271, R272) -/

/-- The key of an input port's FIFO. -/
def portKey (e port : Nat) : Nat := e * 4 + port

/-- The tokens of an input port. -/
def Fabric.fifo (f : Fabric) (e port : Nat) : List Token := f.fifos.getD (portKey e port) []

/-- The routes from a source id. -/
def Image.from_ (i : Image) (src : Nat) : List Route := i.routes.filter fun r => r.src == src

/-- The routes from a source that take its tokens: an element that had passed `EOI` before a restart takes none (08 R210). -/
def Fabric.routes (f : Fabric) (i : Image) (src : Nat) : List Route :=
  match f.stream with
  | some x => (i.from_ src).filter fun r => !x.ended.contains r.dst
  | none => i.from_ src

/-- Every destination of a source has a free slot; a result slot always has (11 R272, R273). -/
def Fabric.roomFor (f : Fabric) (i : Image) (src : Nat) : Bool :=
  (f.routes i src).all fun r => decide (80 ≤ r.dst) || decide ((f.fifo r.dst r.port).length < 4)

/-- A token placed at every destination of a source. -/
def Fabric.place (f : Fabric) (i : Image) (src : Nat) (t : Token) : Fabric :=
  (f.routes i src).foldl (fun f r =>
    if 80 ≤ r.dst then
      { f with packets := f.packets.map fun p => if p.id = t.packet then { p with results := p.results ++ [(r.dst - 80, t)] } else p }
    else { f with fifos := f.fifos.put (portKey r.dst r.port) (f.fifo r.dst r.port ++ [t]) }) f

/-- The tokens that a fabric holds in its FIFOs, miss queues and delays (11 R294). -/
def Fabric.occupancy (f : Fabric) : Nat :=
  ((f.fifos.map fun e => e.2.length) ++ (f.delays.map fun e => e.2.length)).foldl (· + ·) f.ages.length

/-- A packet has a token in the fabric still. -/
def Fabric.holdsPacket (f : Fabric) (id : Nat) : Bool :=
  (f.fifos.any fun e => e.2.any fun t => t.packet == id) || (f.delays.any fun e => e.2.any fun t => t.packet == id) ||
  f.ages.any fun a => a.tok.packet == id

/-- The control bits and names of a token without data (11 R274). -/
def Token.blank : Token := { data := 0, gf := false, dims := 0, eoi := false, poi := false, packet := 0, its := [0, 0, 0, 0] }

/-- Iterations merged pointwise. -/
def mergeIts (a b : List Nat) : List Nat := (upFrom 0 4).map fun i => Nat.max ((a[i]?).getD 0) ((b[i]?).getD 0)

/-- The control bits that a firing's result takes from its inputs; poison takes the largest kind (11 R274, R283). -/
def Token.join (a b : Token) : Token :=
  { data := if a.poi && b.poi then (if a.data.toNat < b.data.toNat then b.data else a.data) else if b.poi then b.data else a.data,
    gf := a.gf || b.gf, dims := Nat.lor a.dims b.dims, eoi := a.eoi || b.eoi, poi := a.poi || b.poi,
    packet := if a.packet = 0 then b.packet else a.packet, its := mergeIts a.its b.its }

/-! ### Operations (11 R275 to R278) -/

/-- An FP32 operation on two operands, or an FP64 one. -/
def fp2 (fmt : FpFmt) (f : FloatSpec → FVal → FVal → FRes) (a b : Word) : Word :=
  let sp := specOf fmt
  word (f sp (sp.decode (a.toNat % 2 ^ sp.width)) (sp.decode (b.toNat % 2 ^ sp.width))).bits

/-- The result of a compute, table-free operation on its port values (11 R275, R276). -/
def elemOp (op : Nat) (a b c : Word) : Word :=
  let f32op := fun (g : FloatSpec → FVal → FVal → FRes) => fp2 .f32 g a b
  let f64op := fun (g : FloatSpec → FVal → FVal → FRes) => fp2 .f64 g a b
  let fused (fmt : FpFmt) : Word :=
    let sp := specOf fmt
    let v (w : Word) : FVal := sp.decode (w.toNat % 2 ^ sp.width)
    word (sp.fma .rne false (v a) (v b) (v c)).bits
  match op with
  | 0x02 => a + b
  | 0x03 => a - b
  | 0x04 => a * b
  | 0x05 => a &&& b
  | 0x06 => a ||| b
  | 0x07 => a ^^^ b
  | 0x08 => a <<< sh6 b
  | 0x09 => a >>> sh6 b
  | 0x0A => a.sshiftRight (sh6 b)
  | 0x0B => if a.toInt ≤ b.toInt then a else b
  | 0x0C => if a.toInt ≤ b.toInt then b else a
  | 0x0D => wordB (decide (a = b))
  | 0x0E => wordB (decide (a.toInt < b.toInt))
  | 0x0F => wordB (decide (a.toNat < b.toNat))
  | 0x10 => f32op fun sp x y => sp.add .rne x y
  | 0x11 => f32op fun sp x y => sp.mul .rne x y
  | 0x12 => fused .f32
  | 0x13 => f64op fun sp x y => sp.add .rne x y
  | 0x14 => f64op fun sp x y => sp.mul .rne x y
  | 0x15 => fused .f64
  | 0x16 => f32op fun sp x y => sp.minmax false x y
  | 0x17 => f32op fun sp x y => sp.minmax true x y
  | 0x18 => word ((specOf .f64).roundVal .rne ((specOf .f32).decode (a.toNat % 2 ^ 32))).bits
  | 0x19 => word ((specOf .f32).roundVal .rne ((specOf .f64).decode a.toNat)).bits
  | 0x1A => (philox a b c).1
  | 0x1B => word ((specOf .f64).round .rz false (2 * (a.toNat / 2 ^ 11) + 1) (-54)).bits
  | _ => a

/-- `SEL`, `GUARD` and `MERGE`: the data and the guard bit of the result (11 R278). -/
def guardOp (op : Nat) (a b c : Token) : Word × Bool :=
  match op with
  | 0x30 => if c.data ≠ 0 then (a.data, a.gf) else (b.data, b.gf)
  | 0x31 => (a.data, a.gf || b.data == 0)
  | _ => if a.gf then (b.data, a.gf && b.gf) else (a.data, a.gf)

/-! ### Units of the controllers (11 R286, R287) -/

/-- The five dimension marks of a token: `D0` to `D3` and `EOI`. -/
def Token.marks (t : Token) : List Bool := [t.dims.testBit 0, t.dims.testBit 1, t.dims.testBit 2, t.dims.testBit 3, t.eoi]

/-- A count of marks raised by a token. -/
def countMarks (l : List Nat) (t : Token) : List Nat :=
  ((upFrom 0 5).zip t.marks).map fun e => (l[e.1]?).getD 0 + if e.2 then 1 else 0

/-- The units that an element has begun, or finished, by the mark of a dimension. -/
def unitCount (t : Tbl (List Nat)) (e dim : Nat) : Nat := ((t.getD e [])[dim]?).getD 0

/-- A child has completed n units: each of its elements has. -/
def Fabric.completed (f : Fabric) (i : Image) (child dim n : Nat) : Bool :=
  (i.under 33 child).all fun e => decide (n ≤ unitCount f.finished e dim)

/-- An inner node lets an element under one of its children fire (11 R287). -/
def Fabric.nodeAllows (f : Fabric) (i : Image) (n : Nat) (k : Ctl) (e : Nat) : Bool :=
  let kids := i.children n
  match findIdx? (fun c => (i.under 33 c).contains e) kids with
  | none => true
  | some j =>
    let u := unitCount f.started e k.dim
    let kid (x : Nat) : Nat := (kids[x]?).getD 0
    if k.kind = 1 then
      (if j = 0 then f.completed i (kid (kids.length - 1)) k.dim u else f.completed i (kid (j - 1)) k.dim (u + 1))
    else if k.kind = 2 then
      (if j = 0 then f.completed i (kid 0) k.dim u && f.completed i (kid (kids.length - 1)) k.dim (u + 1 - k.depth)
       else f.completed i (kid (j - 1)) k.dim (u + 1))
    else true

/-- Every controller above an element lets it fire. -/
def Fabric.paced (f : Fabric) (i : Image) (e : Nat) : Bool :=
  ((upFrom 0 i.ctls.length).zip i.ctls).all fun x => x.2.kind == 0 || f.nodeAllows i x.1 x.2 e

/-- A firing of an element counts in the units begun. -/
def Fabric.begin_ (f : Fabric) (e : Nat) (t : Token) : Fabric :=
  { f with started := f.started.put e (countMarks (f.started.getD e []) t) }

/-- A result of an element is emitted: it counts in the units finished and in the iterations completed. -/
def Fabric.finish (f : Fabric) (e : Nat) (t : Token) : Fabric :=
  { f with
    finished := f.finished.put e (countMarks (f.finished.getD e []) t)
    progress := f.progress.put e (mergeIts (f.progress.getD e []) t.its) }

/-! ### Firing (11 R272, R277, R279 to R283) -/

/-- A port of a pattern holds its operand: an arc in both modes, an argument in call mode. -/
def Fabric.portReady (f : Fabric) (i : Image) (e n : Nat) (k : PortKind) : Bool :=
  match k with
  | .arc => !(f.fifo e n).isEmpty
  | .arg _ => !i.call || !(f.fifo e n).isEmpty
  | _ => true

/-- A port consumes a token at a firing. -/
def portTakes (i : Image) (k : PortKind) : Bool :=
  match k with
  | .arc => true
  | .arg _ => i.call
  | _ => false

/-- A call-mode element that no port makes wait fires once for each packet, in their order: every arc carries one token per
invocation (11 R272, R273). DEDUCED (log 74). -/
def Pattern.unfed (i : Image) (p : Pattern) : Bool := i.call && (upFrom 0 3).all fun n => !portTakes i (p.port n)

/-- The elements of a call-mode image that no port makes wait. -/
def Image.unfed (i : Image) : List Nat :=
  i.elems.filterMap fun x => (i.pats[x.2]?).bind fun p => if p.unfed i then some x.1 else none

/-- The packet that an element without arcs or arguments fires for. DEDUCED (log 74). -/
def Fabric.ownPacket (f : Fabric) (e : Nat) : Option Nat :=
  (f.packets.find? fun q => q.entered && q.free.contains e).map fun q => q.id

/-- The token that a port supplies; a stream's argument is read like a constant (11 R273). -/
def Fabric.operand (f : Fabric) (p : Pattern) (e n : Nat) (k : PortKind) : Token :=
  match k, (f.fifo e n).head? with
  | .arc, some t => t
  | .arg _, some t => t
  | .arg j, none => { Token.blank with data := (f.stream.bind fun s => s.args[j]?).getD 0 }
  | .const, _ => { Token.blank with data := p.const }
  | _, _ => Token.blank

/-- The element can fire: its operands are there, its destinations or its queue have room, and its controllers let it. -/
def Fabric.canFire (f : Fabric) (i : Image) (p : Pattern) (e : Nat) : Bool :=
  let mine := (f.ages.filter fun a => a.elem == e).length
  f.portReady i e 0 p.a && f.portReady i e 1 p.b && f.portReady i e 2 p.c && f.paced i e &&
  (!p.unfed i || (f.ownPacket e).isSome) &&
  (match elemKind e with
    | .age => decide (mine < 16)
    | .de => decide ((f.delays.getD e []).length < 32)
    | _ => f.roomFor i e)

/-- The heads of the ports that are consumed leave their FIFOs. -/
def Fabric.consume (f : Fabric) (i : Image) (p : Pattern) (e : Nat) : Fabric :=
  (upFrom 0 3).foldl (fun f n =>
    if portTakes i (p.port n) then { f with fifos := f.fifos.put (portKey e n) ((f.fifo e n).drop 1) } else f) f

/-- An accumulator takes an operand; it emits on the mark of its dimension or on `EOI` (11 R277). -/
def Fabric.accumulate (f : Fabric) (p : Pattern) (e : Nat) (a b : Token) : Option Token × Fabric :=
  let r := f.accs.getD e (p.const, false)
  let bad := a.poi || b.poi || r.2
  let kind := Nat.max (if a.poi then a.data.toNat else 0) (Nat.max (if b.poi then b.data.toNat else 0) (if r.2 then r.1.toNat else 0))
  let v := if bad then word kind
    else if fmaOp p.op then elemOp p.op a.data b.data r.1 else elemOp p.op a.data r.1 0
  if a.dims.testBit (p.aux % 4) || a.eoi then
    (some { a with data := v, poi := bad, its := mergeIts a.its b.its }, { f with accs := f.accs.put e (p.const, false) })
  else (none, { f with accs := f.accs.put e (v, bad) })

/-- `LOOKUP` in the table of its element (11 R281). -/
def Fabric.lookup (f : Fabric) (p : Pattern) (e : Nat) (a : Word) : Word :=
  let t := f.tables.getD e []
  if p.aux = 0 then word (t.readNat (8 * bits a 0 9) 8)
  else
    let w := word (t.readNat (4 * bits a 0 10) 4)
    if p.sx then sextW w 32 else w

/-- The access that an AGE's operands name (11 R279). -/
def Pattern.access (p : Pattern) (e : Nat) (a b c out : Token) : AgeAccess :=
  let lsz := if p.op = 0x40 ∨ p.op = 0x42 then 2 else 3
  let va := (a.data + b.data * word p.aux).toNat
  { elem := e, va := word (va - va % 2 ^ lsz), store := decide (0x42 ≤ p.op), lsz := lsz, sx := p.sx, value := c.data, tok := out,
    waits := none, queued := false, fired := 0 }

/-- An element fires (11 R272) at a tick. Its result goes to its destinations, to its miss queue or to its delay line. -/
def Fabric.fire (f : Fabric) (i : Image) (p : Pattern) (e now : Nat) : Fabric :=
  let own := if p.unfed i then f.ownPacket e else none
  let a := f.operand p e 0 p.a
  let a := own.elim a fun k => { a with packet := k }
  let b := f.operand p e 1 p.b
  let c := f.operand p e 2 p.c
  let g := f.consume i p e
  let g := own.elim g fun k =>
    { g with packets := g.packets.map fun q => if q.id = k then { q with free := q.free.filter fun x => x != e } else q }
  let out := (a.join b).join c
  match elemKind e with
  | .age =>
    let g := g.begin_ e out
    { g with ages := g.ages ++ [{ p.access e a b c out with fired := now }] }
  | .de =>
    let g := g.begin_ e a
    { g with delays := g.delays.put e (g.delays.getD e [] ++ [a]) }
  | k =>
    if p.acc then
      match g.accumulate p e a b with
      | (some t, g) => ((g.begin_ e t).finish e t).place i e t
      | (none, g) => let u := { a with its := [] }
                     (g.begin_ e u).finish e u
    else
      let t : Token :=
        if out.poi then out
        else match k with
          | .te => { out with data := f.lookup p e a.data }
          | .sge => if p.op = 0x01 then { out with data := a.data }
              else { out with data := (guardOp p.op a b c).1, gf := (guardOp p.op a b c).2 }
          | _ => { out with data := elemOp p.op a.data b.data c.data }
      ((g.begin_ e t).finish e t).place i e t

/-! ### What a firing lets go on -/

/-- What may go on because tokens have left the ports of an element: the sources of its routes. -/
def State.nudge (s : State) (cl f : Nat) (i : Image) (e : Nat) : State :=
  s.each ((i.routes.filter fun r => r.dst == e).map fun r => r.src).eraseDups fun s x =>
    if x < 64 then
      match elemKind x with
      | .age => s.raise .ageDone cl f x
      | .de => s.raise .delayEmit cl f x
      | _ => s.raise .fire cl f x
    else if x < 72 then s.raise .packetEntry cl f 0
    else s.raise .streamEmit cl f (x - 72)

/-- What may go on because an element has emitted: its destinations, every element that a controller holds, and the end of a
packet or of the stream. -/
def State.emitted (s : State) (cl f : Nat) (i : Image) (src : Nat) : State :=
  let held := if i.ctls.any (fun k => k.kind == 1 || k.kind == 2) then i.elems.map fun x => x.1 else []
  let dsts := ((i.from_ src).filter fun r => decide (r.dst < 64)).map fun r => r.dst
  let s := s.each (dsts ++ held).eraseDups fun s e => s.raise .fire cl f e
  s.raise (if i.call then .results else .streamDone) cl f 0

/-- `ELEMENT_FIRE`: an element fires when it can (11 R272). DEDUCED (log 74). -/
def execElementFire (cl f e : Nat) (s : State) : Out :=
  let g := s.fabric cl f
  match g.image with
  | none => .next s
  | some i =>
    match i.pat? e with
    | none => .next s
    | some p =>
      if g.draining ∨ !g.canFire i p e ∨ (g.stream.any fun x => !s.hasLeave (dieOfCluster cl) x.req) then .next s
      else
        let s := s.mapFabric cl f fun g => { g.fire i p e s.tick with firedAt := s.tick }
        let s := match elemKind e with
          | .age => s.raise .ageDone cl f e
          | .de => s.raise .delayEmit cl f e
          | _ => s.emitted cl f i e
        .next ((s.nudge cl f i e).raise .fire cl f e)

/-- `DELAY_EMIT`: the oldest token of a delay element moves on when its destinations have room (11 R282). -/
def execDelayEmit (cl f e : Nat) (s : State) : Out :=
  let g := s.fabric cl f
  match g.image, g.delays.getD e [] with
  | some i, t :: rest =>
    if g.draining ∨ !g.roomFor i e then .next s
    else
      let s := s.mapFabric cl f fun g => { ({ g with delays := g.delays.put e rest }.finish e t).place i e t with firedAt := s.tick }
      .next (((s.emitted cl f i e).raise .delayEmit cl f e).raise .fire cl f e)
  | _, _ => .next s

/-! ### AGE accesses (11 R279, R280, R283; 08 R192, R196, R209) -/

/-- How an AGE's access ends: with data, poisoned, with a fault, or not yet. -/
inductive AgeAns where
  | done (v : Word) (s : State)
  | data (s : State)
  | retry (summit : Bool) (s : State)
  | fatal (akind : Nat) (s : State)
  | later (s : State)

/-- The bytes of an access. -/
def AgeAccess.size (a : AgeAccess) : Nat := 2 ^ a.lsz

/-- The value that a load delivers (11 R279). -/
def AgeAccess.loaded (a : AgeAccess) (bs : List Byte) : Word :=
  let w := word (leNat bs)
  if a.lsz = 2 && a.sx then sextW w 32 else w

/-- A store of an AGE performed through the cluster cache. -/
def State.ageStore (s : State) (cl uid : Nat) (l : Loc) (bs : List Byte) : State :=
  ((((s.noteOldCode cl uid l bs.length).storeHome cl uid l bs).l1Store cl l bs).noteFscb l).noteIrrevocable l

/-- An address that faults at once whatever a TLB holds: unmapped, or a store to a view range (08 R192), where `page` is the
guest-physical address that the address maps to. -/
def State.ageFatal (s : State) (p cl : Nat) (page : Option Nat) (a : AgeAccess) : Option Nat :=
  match s.place p cl a.va with
  | .unmapped => some 0x04
  | .at _ => none
  | .paged =>
    match page with
    | some g => if a.store && ((s.part p).windowAt g).isSome then some 0x03 else none
    | none => none

/-- An access to a scratchpad where its context is not resident goes to that context's inbox: a store is confirmed there, while the
inbox has room, and a load waits (22 R416). DESIGN CHOICE (log 43). -/
def State.ageInbox (s : State) (p c lc cl f : Nat) (a : AgeAccess) (l : Loc) (by_ : Option Task) : AgeAns :=
  if a.store && decide (((s.part p).inboxOf lc c).length < inboxSize) then
    .done 0 (s.toInbox p lc c (.store l.offset a.size a.value by_))
  else .later ((s.toInbox p lc c (.age cl f a.elem)).mapFabric cl f fun g =>
    { g with ages := g.ages.map fun x => if x = a then { x with queued := true } else x })

/-- An access performed at its location by the running thread, the packet's caller, or by its speculative task under the limits of
13 R316 (08 R190, R196). DEDUCED (log 32). -/
def State.agePerform (s : State) (cl : Nat) (a : AgeAccess) (l : Loc) : AgeAns :=
  let uid := s.curUid
  let n := a.size
  let bs := leBytes n a.value.toNat
  if s.speculative then
    if a.store then
      if (s.cluster cl).ssbRoom uid l then
        .done 0 ((s.noteOldFor .writer cl uid l n).mapCluster cl fun c => c.ssbStore uid l bs)
      else .retry true s
    else if s.noSigRoom l then .retry true s
    else
      let s := s.sign l
      let r := s.loadCached cl false l n
      if r.1.2 && !(s.cluster cl).ssbCovers uid l n then .data r.2
      else .done (a.loaded ((s.cluster cl).overlay uid l r.1.1)) r.2
  else if a.store then .done 0 (s.ageStore cl uid l bs)
  else
    let r := s.loadCached cl false l n
    if r.1.2 then .data r.2 else .done (a.loaded r.1.1) r.2

/-- An access of a call-mode packet, made for its caller: a translation that no TLB holds, or that permits it not, needs service
(08 R192). DESIGN CHOICE (log 43). DESIGN CHOICE (log 28). -/
def State.ageCall (s : State) (cl f : Nat) (a : AgeAccess) : AgeAns :=
  let p := s.curPart
  let c := s.curCtx
  let again (s : State) : AgeAns := .later (s.raise .ageDone cl f a.elem)
  match s.ageFatal p cl (s.callerPage cl a.va) a with
  | some k => .fatal k s
  | none =>
    let s := s.firstAccess
    let acc := if a.store then 1 else 0
    let user := s.mode == 0
    let held := (s.callerEntry cl a.va).filter fun e => e.allows acc user
    match s.place p cl a.va, held with
    | .paged, none => .retry false s
    | _, _ =>
      match (match held with
        | some e => if e.host then AgentAns.at (e.hostLoc p a.va) s else s.agentLocate p c cl cl a.va acc user
        | none => s.agentLocate p c cl cl a.va acc user) with
      | .unmapped => .fatal 0x04 s
      | .busy => again s
      | .fault _ _ => .retry false s
      | .stage2 _ _ => .retry false s
      | .at l s =>
        match (if s.speculative && a.store then none else s.elsewhere l) with
        | some lc => s.ageInbox p c lc cl f a l s.committer
        | none =>
          match s.agentHome l a.store with
          | .fault _ _ => .retry false s
          | .granted s => s.agePerform cl a l
          | .miss => s.agePerform cl a l
          | .busy => again s

/-- An access of a stream, made for its request: a fault that needs service stalls the AGE at its iteration (08 R209).
DESIGN CHOICE (log 43). -/
def State.ageStream (s : State) (cl f : Nat) (q : Req) (a : AgeAccess) : AgeAns :=
  let acc := if a.store then 1 else 0
  let trap : TrapRec := { kind := 0, taddr := a.va, tinfo := 0 }
  let wait (s : State) : AgeAns :=
    let token := (s.req? q.id).bind fun x => x.token
    .later ((s.mapReq q.id fun x => { x with token := none }).mapFabric cl f fun g =>
      { g with ages := g.ages.map fun x => if x = a then { x with waits := token } else x })
  let again (s : State) : AgeAns := .later (s.raise .ageDone cl f a.elem)
  match s.ageFatal q.part cl (s.quietGpa q.part q.ctx a.va) a with
  | some k => .fatal k s
  | none =>
    match s.agentLocate q.part q.ctx cl cl a.va acc q.user with
    | .unmapped => .fatal 0x04 s
    | .busy => again s
    | .fault r l => wait (s.faultService (.engine q.id) q.part q.ctx a.va r l 2 acc trap)
    | .stage2 g r => wait (s.stage2Fault (.engine q.id) q.part q.ctx g r 2 acc trap)
    | .at l s =>
      match s.elsewhereOf q.part q.ctx (some cl) l with
      | some lc => s.ageInbox q.part q.ctx lc cl f a l none
      | none =>
        match s.agentHome l a.store with
        | .fault g r => wait (s.stage2Fault (.engine q.id) q.part q.ctx g r 2 acc trap)
        | .granted s => perform s l
        | .miss => perform s l
        | .busy => again s
where
  /-- The access at its location. -/
  perform (s : State) (l : Loc) : AgeAns :=
    if a.store then
      let bs := leBytes a.size a.value.toNat
      .done 0 ((((s.noteOldCode cl q.id l bs.length).storeHome cl q.id l bs).l1Store cl l bs).noteFscb l)
    else
      let r := s.loadCached cl false l a.size
      if r.1.2 then .data r.2 else .done (a.loaded r.1.1) r.2

/-- A fault takes the place of another in a packet's record: a larger kind, at equal kinds an earlier firing, and then a lower
element (11 R283). -/
def FabFault.before (x y : FabFault) : Bool :=
  if x.kind ≠ y.kind then decide (y.kind < x.kind)
  else if x.fired ≠ y.fired then decide (x.fired < y.fired) else decide (x.elem < y.elem)

/-- The record of a packet's fault (11 R283). -/
def Packet.note (p : Packet) (x : FabFault) : Packet :=
  match p.fault with
  | none => { p with fault := some x }
  | some y => if x.before y then { p with fault := some x } else p

/-- An AGE's result leaves its miss queue for its destinations. -/
def State.ageEmit (s : State) (cl f : Nat) (i : Image) (a : AgeAccess) (t : Token) (fault : Option FabFault) : State :=
  let s := s.mapFabric cl f fun g =>
    let g := { g with
      ages := eraseFirst (fun x => x.elem == a.elem) g.ages
      packets := g.packets.map fun (p : Packet) => if p.id = t.packet then fault.elim p p.note else p
      firedAt := s.tick }
    (g.finish a.elem t).place i a.elem t
  ((s.emitted cl f i a.elem).raise .ageDone cl f a.elem).raise .fire cl f a.elem

/-- The fault of an access in the record of its packet. -/
def AgeAccess.fault (a : AgeAccess) (kind akind : Nat) (summit away : Bool) : FabFault :=
  { kind := kind, elem := a.elem, va := a.va, store := a.store, lsz := a.lsz, akind := akind, summit := summit, away := away,
    fired := a.fired }

/-- A fatal or data fault stops a stream (08 R209, 11 R283). -/
def State.stopStream (s : State) (cl f : Nat) (q : Req) (a : AgeAccess) (kind : Nat) : State :=
  ((s.mapReq q.id fun x => { x with endKind := some kind, faddr := a.va, elem := a.elem }).forgetStream q.id).raise .streamFatal
    cl f 0

/-- The oldest access of an AGE of a call-mode image completes. DESIGN CHOICE (log 61). -/
def State.ageCallStep (s : State) (cl f : Nat) (i : Image) (a : AgeAccess) : State :=
  let out := { a.tok with data := 0 }
  match (s.fabric cl f).packets.find? (fun p => p.id == a.tok.packet) with
  | none => s.ageEmit cl f i a out none
  | some p =>
    let faulted := (p.fault.map fun x => decide (2 ≤ x.kind)).getD false
    let live := match s.thread? p.t with
      | some th => (th.task.map fun k => k.uid) == some p.uid
      | none => false
    let bad (k : Nat) (akind : Nat) (summit : Bool) : Option FabFault := some (a.fault k akind summit false)
    let poison (s : State) (k : Nat) (x : Option FabFault) : State :=
      s.ageEmit cl f i a { out with poi := true, data := word k } x
    if !live then s.ageEmit cl f i a out none
    else if a.store && faulted then poison s ((p.fault.map fun x => x.kind).getD 2) none
    else
      let t := s.cur.id
      match (s.focus p.t).ageCall cl f a with
      | .done v s => (s.focus t).ageEmit cl f i a { out with data := v } none
      | .data s => poison (s.focus t) 1 (bad 1 0 false)
      | .retry summit s => poison (s.focus t) 2 (bad 2 0x03 summit)
      | .fatal k s => poison (s.focus t) 3 (bad 3 k false)
      | .later s => s.focus t

/-- The oldest access of an AGE of a stream completes. -/
def State.ageStreamStep (s : State) (cl f : Nat) (i : Image) (a : AgeAccess) : State :=
  match ((s.fabric cl f).stream.bind fun x => s.req? x.req) with
  | none => s
  | some q =>
    if q.endKind.isSome then s
    else match s.ageStream cl f q a with
      | .done v s => s.ageEmit cl f i a { a.tok with data := v } none
      | .data s => s.stopStream cl f q a 0x10
      | .retry _ s => s
      | .fatal k s => s.stopStream cl f q a k
      | .later s => s

/-- `AGE_ACCESS_COMPLETE`: the oldest access of an AGE is made and its token emitted, when its destinations have room; poison and a
store under `GF` make none (11 R278, R279, R283). -/
def execAgeAccessComplete (cl f e : Nat) (s : State) : Out :=
  let g := s.fabric cl f
  match g.image, g.ages.find? (fun a => a.elem == e) with
  | some i, some a =>
    if g.draining ∨ !g.roomFor i e ∨ a.waits.isSome ∨ a.queued then .next s
    else if a.tok.poi then .next (s.ageEmit cl f i a a.tok none)
    else if a.store && a.tok.gf then .next (s.ageEmit cl f i a { a.tok with data := 0 } none)
    else .next (if i.call then s.ageCallStep cl f i a else s.ageStreamStep cl f i a)
  | _, _ => .next s

/-- The access of an AGE whose place in an inbox has come is made (22 R416). DESIGN CHOICE (log 43). -/
def State.resumeAge (s : State) (cl f e : Nat) : State :=
  let s := s.mapFabric cl f fun g =>
    { g with ages := g.ages.map fun x => if x.elem = e then { x with queued := false } else x }
  let g := s.fabric cl f
  match g.image, g.ages.find? (fun a => a.elem == e) with
  | some i, some a => if i.call then s.ageCallStep cl f i a else s.ageStreamStep cl f i a
  | _, _ => s

/-- The accesses of call packets of a cluster that wait in inboxes are cancelled, since the cluster switches out: their packets leave
poisoned, and the calls are issued again at resumption (14 R335; 22 R416). DESIGN CHOICE (log 43). -/
def State.cancelAges (s : State) (p cl : Nat) : State :=
  s.each (s.cluster cl).fabrics fun s e =>
    match e.2.image with
    | none => s
    | some i =>
      let mine := e.2.ages.filter fun a => a.queued
      if !i.call ∨ mine.isEmpty then s
      else (s.mapPart p fun t => t.dropAges fun k f => k == cl && f == e.1).each mine fun s a =>
        s.ageEmit cl e.1 i a { a.tok with data := 2, poi := true } (some (a.fault 2 0x03 false true))

/-- The tokens that a fabric has admitted in the window of a tick (11 R288): a window starts at each multiple of 1024. -/
def Fabric.admittedAt (f : Fabric) (now : Nat) : Nat := if f.window = now / 1024 then f.admitted else 0

/-- A token admitted at a tick. Tokens that enter an idle fabric start the time that it may hold them without firing (22 R419). -/
def Fabric.countEntry (f : Fabric) (now : Nat) : Fabric :=
  { f with
    admitted := f.admittedAt now + 1
    window := now / 1024
    firedAt := if f.occupancy = 0 then now else f.firedAt }

/-! ### Stream engines (11 R284, R285) -/

/-- The points of a nest's walk. -/
def Nest.total (n : Nest) : Nat := (n.cnts.take n.ndim).foldl (· * ·) 1

/-- The counters at a position, innermost first. -/
def Nest.at (n : Nest) (pos : Nat) : List Nat :=
  ((n.cnts.take n.ndim).foldl (fun (a : List Nat × Nat) c => (a.1 ++ [a.2 % c], a.2 / c)) ([], pos)).1

/-- The counters of a position in the `TNEST` layout; the position past the end keeps its last count in the outermost dimension
(08 R200, 11 R285). -/
def Nest.counters (n : Nest) (pos : Nat) : Word :=
  let l := n.at pos
  let top := n.ndim - 1
  let inner := ((n.cnts.take top).foldl (· * ·) 1)
  word (((upFrom 0 n.ndim).map fun k => (if k = top then pos / inner else (l[k]?).getD 0) % 2 ^ 16 * 2 ^ (16 * k)).foldl (· + ·) 0)

/-- The position of counters in the `TNEST` layout (08 R210). -/
def Nest.position (n : Nest) (w : Word) : Nat :=
  ((upFrom 0 n.ndim).foldl (fun (a : Nat × Nat) k => (a.1 + bits w (16 * k) 16 * a.2, a.2 * (n.cnts[k]?).getD 1)) (0, 1)).1

/-- The token of a point of a nest's walk (11 R285). DESIGN CHOICE (log 72). -/
def Nest.token (n : Nest) (args : List Word) (pos : Nat) : Token :=
  let ix := n.at pos
  let base := if n.bsrc = 0xFF then n.base else (args[n.bsrc]?).getD 0
  let data := ((upFrom 0 n.ndim).foldl (fun (a : Word) k => a + word ((ix[k]?).getD 0) * (n.strs[k]?).getD 0) base)
  let last (k : Nat) : Bool := (upFrom 0 (k + 1)).all fun j => (ix[j]?).getD 0 + 1 == (n.cnts[j]?).getD 1
  let dims := ((upFrom 0 n.ndim).map fun k => if last k then 2 ^ k else 0).foldl (· + ·) 0
  { Token.blank with data := data, dims := dims, eoi := pos + 1 == n.total, its := (upFrom 0 4).map fun k => if k = n.eng then pos + 1 else 0 }

/-- `STREAM_ENGINE_EMIT`: the next point of an engine's walk, within the rate limit and after belay leave (11 R285, R288;
08 R208). -/
def execStreamEngineEmit (cl f e : Nat) (s : State) : Out :=
  let g := s.fabric cl f
  match g.image, g.stream with
  | some i, some x =>
    match i.nests.find? (fun n => n.eng == e) with
    | none => .next s
    | some n =>
      let pos := x.pos.getD e 0
      if g.draining ∨ n.total ≤ pos ∨ !g.roomFor i (72 + e) ∨ g.limit ≤ g.admittedAt s.tick ∨ !s.hasLeave (dieOfCluster cl) x.req then
        .next s
      else
        let s := s.mapFabric cl f fun g =>
          { ((g.countEntry s.tick).place i (72 + e) (n.token x.args pos)) with stream := some { x with pos := x.pos.put e (pos + 1) } }
        .next ((s.emitted cl f i (72 + e)).raise .streamEmit cl f e)
  | _, _ => .next s

/-- The elements of the routes forward from some ids, n steps deep. -/
def Image.descendants (i : Image) : Nat → List Nat → List Nat
  | 0, l => l
  | n + 1, l => Image.descendants i n ((l ++ (i.routes.filter fun r => l.contains r.src).map fun r => r.dst).eraseDups)

/-- The lowest iteration of an engine's nest that has not completed: no element it feeds is behind it (08 R209). -/
def Fabric.completedIts (f : Fabric) (i : Image) (n : Nest) : Nat :=
  ((i.descendants 65 [72 + n.eng]).filter fun e => decide (e < 64)).foldl (fun b e =>
    Nat.min b (((f.progress.getD e [])[n.eng]?).getD 0)) n.total

/-- The counters of a stream's record (08 R200, R209). -/
def Fabric.streamCounters (f : Fabric) (i : Image) : List Word :=
  (upFrom 0 4).map fun e => match i.nests.find? fun n => n.eng == e with
    | some n => n.counters (f.completedIts i n)
    | none => 0

/-- The elements that the engines at the end of their nests feed: they have passed `EOI` (08 R210). -/
def Image.passed (i : Image) (pos : Tbl Nat) : List Nat :=
  (i.descendants 65 ((i.nests.filter fun n => decide (n.total ≤ pos.getD n.eng 0)).map fun n => 72 + n.eng)).filter fun e =>
    decide (e < 64)

/-- `STREAM_COMPLETE`: every configured element has passed `EOI` and every store is confirmed (11 R285). -/
def execStreamComplete (cl f : Nat) (s : State) : Out :=
  let g := s.fabric cl f
  match g.image, g.stream with
  | some i, some x =>
    let done := (i.elems.all fun e => x.ended.contains e.1 || decide (1 ≤ unitCount g.finished e.1 4)) && g.ages.isEmpty
    if g.draining ∨ !done then .next s
    else
      let cnts := g.streamCounters i
      let s := (s.mapReq x.req fun q => { q with cnts := cnts }).mapFabric cl f fun g => { g with stream := none }
      .next ((s.endReq x.req none 0).wakeImage cl)
  | _, _ => .next s

/-- A fabric drains: a stream that runs there has stopped, and its record is due with the counters that it has reached
(08 R209, 11 R294). -/
def State.drainStream (s : State) (cl f : Nat) : State :=
  let g := s.fabric cl f
  match g.image, g.stream with
  | some i, some x =>
    let cnts := g.streamCounters i
    ((s.mapReq x.req fun q => { q with cnts := cnts, stage := 1 }).mapFabric cl f fun g => { g with draining := true }).raise
      .engineDone x.req 0 0
  | _, _ => s.mapFabric cl f fun g => { g with draining := true }

/-- `STREAM_FATAL_STOP`: the counters of the stopped stream are taken, its record is due, and the drain image is loaded (08 R209). -/
def execStreamFatalStop (cl f : Nat) (s : State) : Out :=
  let g := s.fabric cl f
  match g.stream.bind fun x => s.req? x.req with
  | none => .next s
  | some q => if q.endKind.isNone ∨ g.draining then .next s else .next (s.drainStream cl f)

/-- The record of the stream on a fabric is still to be written (08 R209). -/
def State.recordDue (s : State) (g : Fabric) : Bool :=
  match g.stream.bind fun x => s.req? x.req with
  | some q => !q.recorded
  | none => false

/-- `FABRIC_RELEASE`: the drain image has discarded every token, and the fabric is released; a stopped stream's record stands by
then, and its completion action is due (08 R209, 11 R294). -/
def execFabricRelease (cl f : Nat) (s : State) : Out :=
  let g := s.fabric cl f
  if !g.draining ∨ s.recordDue g then .next s
  else
    let s := s.mapFabric cl f Fabric.emptied
    let s := s.wakeImage cl
    let s := match s.partOfCluster cl with
      | some p => s.sweepWake p
      | none => s
    match g.stream with
    | none => .next s
    | some x =>
      .next ((s.mapReq x.req fun q => { q with stage := 1 }).raise .engineDone x.req 0 0)

/-- `RATE_WINDOW`: a window of 1024 ticks has begun at every fabric, and what the limit held goes on (11 R288). -/
def execRateWindow (s : State) : Out :=
  let fresh (x : Fabric) : Fabric := { x with admitted := x.admittedAt s.tick, window := s.tick / 1024 }
  let s := { s with clusters := s.clusters.map fun (e : Nat × Cluster) =>
    (e.1, { e.2 with fabrics := e.2.fabrics.map fun (x : Nat × Fabric) => (x.1, fresh x.2) }) }
  .next (s.each s.clusters fun s e => s.each e.2.fabrics fun s x =>
    let s := if x.2.packets.any fun p => !p.entered then s.raise .packetEntry e.1 x.1 0 else s
    if x.2.stream.isSome then s.each (upFrom 0 4) fun s n => s.raise .streamEmit e.1 x.1 n else s)

end Sys2Proof.Machine
end

