-- ==== Sys2Proof/Machine/Serve.lean ====
section
/-! DEFINITION. `SERVE`, `STRM` and `STRMR`, and the fabric manager: fetching, loading and evicting images, packets in and results
out (08 R189 to R196, R208, R210; 15 R336). -/

namespace Sys2Proof.Machine

/-! ### The fabric manager (08 R191, 15 R336) -/

/-- A server-table entry of a partition (08 R189). DEDUCED (log 31). -/
def State.server (s : State) (p sid : Nat) : ServEnt := (s.part p).conf.servers.getD sid { img := 0, ctl := 0 }

/-- An image is pinned by any valid entry that names it with `PIN` = 1 (08 R189). -/
def State.pinned (s : State) (p : Nat) (img : Word) : Bool :=
  (s.part p).conf.servers.any fun e => bit e.2.ctl 0 && bit e.2.ctl 1 && e.2.img == img

/-- A sid is being changed by a `LAUNCH` that is not yet applied (21 R391). -/
def State.sidChanging (s : State) (p sid : Nat) : Bool :=
  match (s.part p).pending with
  | some (_, c) => decide (c.servers.getD sid { img := 0, ctl := 0 } ≠ s.server p sid)
  | none => false

/-- A fabric of a cluster that holds an image; for a stream it runs none (08 R191, R208). -/
def State.fabricWith (s : State) (cl : Nat) (img : Word) (stream : Bool) : Option Nat :=
  (upFrom 0 4).find? fun f =>
    let g := s.fabric cl f
    (g.image.map fun i => i.img) == some img && g.loading.isNone && !g.draining && !g.stale && !(stream && g.stream.isSome)

/-- The victim fabric: no tokens, no packet, no stream, no pinned image, used least recently; a fabric without an image is less
recent than any other (08 R191, 15 R336). DEDUCED (log 42). -/
def State.victimFabric (s : State) (cl : Nat) : Option Nat :=
  let ok (f : Nat) : Bool :=
    let g := s.fabric cl f
    g.loading.isNone && !g.draining && g.stream.isNone && g.packets.isEmpty && g.occupancy == 0 &&
    !(g.pin && g.image.isSome && !g.stale)
  let rank (f : Nat) : Nat :=
    let g := s.fabric cl f
    if g.image.isNone || g.stale then 0 else g.lastUse + 1
  ((upFrom 0 4).filter ok).foldl (fun b f => match b with
    | none => some f
    | some x => if rank f < rank x then some f else some x) none

/-- The config-cache slot that holds an image. -/
def Cluster.cfgSlot? (c : Cluster) (img : Word) : Option (Nat × CfgSlot) := c.cfgCache.find? fun e => e.2.img == img

/-- A fabric for an image: one that holds it, or none yet, with a load begun where a victim qualifies and none is under way. -/
def State.obtain (s : State) (p c cl sid : Nat) (e : ServEnt) (stream : Bool) : Option Nat × State :=
  match s.fabricWith cl e.img stream with
  | some f => (some f, s)
  | none =>
    if (s.cluster cl).fetches.any fun x => x.img == e.img then (none, s)
    else match s.victimFabric cl with
      | none => (none, s)
      | some f =>
        let cached := ((s.cluster cl).cfgSlot? e.img).isSome
        let x : Fetch := { img := e.img, fabric := f, sid := sid, part := p, ctx := c, user := s.mode == 0, host := s.hostPasid,
                           fetched := cached }
        let s := s.mapFabric cl f fun g => { g.emptied with loading := some e.img }
        let s := s.mapCluster cl fun k => { k with fetches := k.fetches ++ [x] }
        (none, s.raise (if cached then .imageLoad else .imageFetch) cl f 0)

/-- The threads of a cluster that wait for an image, with the sid of each. -/
def State.imageWaiters (s : State) (cl : Nat) (img : Word) : List (Tid × Nat) :=
  s.threads.filterMap fun th => match th.wait, th.task with
    | .image sid, some k => if s.homeCluster th = cl ∧ (s.server k.part sid).img = img then some (th.id, sid) else none
    | _, _ => none

/-- The record of a server-unbound trap (08 R195). -/
def unboundTrap (img : Word) (cause sid : Nat) : TrapRec := structTrap 0x06 img cause sid

/-- A fetch or load ends without an image; its fabric is empty and free. -/
def State.dropFetch (s : State) (cl f : Nat) : State :=
  let s := s.mapFabric cl f fun g => { g with loading := none }
  (s.mapCluster cl fun k => { k with fetches := k.fetches.filter fun x => x.fabric != f }).giveBack (dieOfCluster cl) (imageBelay cl f)

/-- An image is rejected: every waiting caller traps server unbound, cause 2, and the fabric holds no image (08 R191). DEDUCED (log 42). -/
def State.rejectImage (s : State) (cl : Nat) (x : Fetch) : State :=
  let ws := s.imageWaiters cl x.img
  let s := (s.dropFetch cl x.fabric).mapFabric cl x.fabric Fabric.emptied
  let s := s.each ws fun s w => s.asThread w.1 fun s => s.takeTrap (unboundTrap x.img 2 w.2)
  s.wakeImage cl

/-- How a read of the fabric manager ends. -/
inductive ImgAns where
  | bytes (bs : List Byte) (s : State)
  | service (drop : State → Tid → Nat → State) (s : State)
  | later (s : State)
  | reject

/-- The place of an image's bytes as the first caller's plain load finds it; by the host's tables for a host context, where a refusal
of the host stands for the fault (08 R191; 22 R412). -/
def State.imageLocate (s : State) (cl : Nat) (x : Fetch) (va : Word) : AgentAns :=
  match x.host, s.place x.part cl va with
  | some pasid, .paged =>
    match s.tlbHit cl none true x.part pasid va.toNat with
    | some e => .at (e.hostLoc x.part va) s
    | none =>
      match s.atsAnswer x.part pasid va with
      | (some e, s) => .at (e.hostLoc x.part va) (s.tlbFill cl none e)
      | (none, _) => .fault 1 1
  | _, _ => s.agentLocate x.part x.ctx cl cl va 0 x.user

/-- Lines read through the L1 as plain loads of the first caller (08 R191, 11 R281). DEDUCED (log 42). -/
def State.imageRead (s : State) (cl : Nat) (x : Fetch) (va : Word) : Nat → ImgAns
  | 0 => .bytes [] s
  | n + 1 =>
    let drop (f : Requester → TrapRec → State → State) : State → Tid → Nat → State :=
      fun s t sid => f (.thread t) (unboundTrap x.img 2 sid) s
    match s.imageLocate cl x va with
    | .unmapped => .reject
    | .busy => .later s
    | .fault r l =>
      .service (drop fun w tr s => match x.host with
        | some pasid => s.pageRequest w pasid va false tr
        | none => s.faultService w x.part x.ctx va r l 0 0 tr) s
    | .stage2 g r => .service (drop fun w tr s => s.stage2Fault w x.part x.ctx g r 0 0 tr) s
    | .at l s =>
      match s.agentHome l false with
      | .fault g r => .service (drop fun w tr s => s.stage2Fault w x.part x.ctx g r 0 0 tr) s
      | .busy => .later s
      | home =>
        let r := (home.after s).loadCached cl false l 64
        if r.1.2 then .reject
        else match State.imageRead r.2 cl x (va + 64) n with
          | .bytes bs s => .bytes (r.1.1 ++ bs) s
          | a => a

/-- A read that needs fault service drops every caller waiting for the image; a retry wake fetches again (08 R191).
DEDUCED (log 42). -/
def State.serviceImage (s : State) (cl : Nat) (x : Fetch) (drop : State → Tid → Nat → State) : State :=
  let ws := s.imageWaiters cl x.img
  ((s.dropFetch cl x.fabric).each ws fun s w => drop s w.1 w.2).wakeImage cl

/-- The config-cache slot that a fetched image takes: a free one, the lowest, else the least recently used unpinned one
(08 R191, 15 R336). DEDUCED (log 42). -/
def Cluster.freeSlotFor (c : Cluster) (img : Word) : Nat :=
  match c.cfgSlot? img with
  | some e => e.1
  | none =>
    match (upFrom 0 16).find? fun i => (c.cfgCache.get? i).isNone with
    | some i => i
    | none => ((c.cfgCache.filter fun e => !e.2.pin).foldl (fun (b : Option (Nat × Nat)) e => match b with
        | none => some (e.1, e.2.lastUse)
        | some x => if e.2.lastUse < x.2 then some (e.1, e.2.lastUse) else some x) none).elim 0 (·.1)

/-- `IMAGE_FETCH_DONE`: the binary lands in the config cache (08 R191 step 3). -/
def execImageFetchDone (cl f : Nat) (s : State) : Out :=
  match (s.cluster cl).fetches.find? (fun x => x.fabric == f && !x.fetched) with
  | none => .next s
  | some x =>
    match s.imageRead cl x x.img 1 with
    | .reject => .next (s.rejectImage cl x)
    | .service drop s => .next (s.serviceImage cl x drop)
    | .later s => .next (s.raise .imageFetch cl f 0)
    | .bytes head s =>
      let size := blockN head 0x2C 4
      let lines := if size ≤ 16384 then (size + 63) / 64 - 1 else 0
      match s.imageRead cl x (x.img + 64) lines with
      | .reject => .next (s.rejectImage cl x)
      | .service drop s => .next (s.serviceImage cl x drop)
      | .later s => .next (s.raise .imageFetch cl f 0)
      | .bytes rest s =>
        let (now, s) := s.newUid
        let slot : CfgSlot := { img := x.img, binary := head ++ rest, pin := s.pinned x.part x.img, lastUse := now }
        .next ((s.mapCluster cl fun c =>
          { c with
            cfgCache := c.cfgCache.put (c.freeSlotFor x.img) slot
            imgFetch := c.imgFetch + 1
            fetches := c.fetches.map fun (y : Fetch) => if y.fabric = f then { y with fetched := true } else y }).raise
            .imageLoad cl f 0)

/-- The tables of the `LOOKUP` elements read whole (11 R281). -/
def State.readTables (s : State) (cl : Nat) (x : Fetch) (i : Image) :
    List (Nat × Nat) → Except ImgAns (Tbl Memory × State)
  | [] => .ok ([], s)
  | e :: es =>
    match i.pats[e.2]? with
    | none => State.readTables s cl x i es
    | some p =>
      if p.op ≠ 0x50 then State.readTables s cl x i es
      else match s.imageRead cl x p.const 64 with
        | .bytes bs s =>
          match State.readTables s cl x i es with
          | .ok r => .ok ((e.1, Memory.writeBytes [] 0 bs) :: r.1, r.2)
          | .error z => .error z
        | z => .error z

/-- The config cache has lost an image before its load: the image is fetched again (08 R191; 15 R337). DEDUCED (log 42). -/
def State.refetchImage (s : State) (cl f : Nat) : State :=
  (s.mapCluster cl fun c =>
    { c with fetches := c.fetches.map fun (y : Fetch) => if y.fabric = f then { y with fetched := false } else y }).raise
    .imageFetch cl f 0

/-- `IMAGE_LOAD_DONE`: the image is validated; after belay leave it is loaded into its fabric, and its callers issue again
(08 R191 steps 4 and 5). -/
def execImageLoadDone (cl f : Nat) (s : State) : Out :=
  match (s.cluster cl).fetches.find? (fun x => x.fabric == f && x.fetched) with
  | none => .next s
  | some x =>
    match (s.cluster cl).cfgSlot? x.img with
    | none => .next (s.refetchImage cl f)
    | some e =>
    match parseImage x.img e.2.binary with
    | none => .next (s.rejectImage cl x)
    | some i =>
      let die := dieOfCluster cl
      if !s.askedLeave die (imageBelay cl f) then
        .next (s.askBelay die { id := imageBelay cl f, milli := imageMilli, part := x.part })
      else if !s.hasLeave die (imageBelay cl f) then .next s
      else match s.readTables cl x i i.elems with
        | .error (.service drop s) => .next (s.serviceImage cl x drop)
        | .error (.later s) => .next (s.raise .imageLoad cl f 0)
        | .error _ => .next (s.rejectImage cl x)
        | .ok (tables, s) =>
          let (now, s) := s.newUid
          let s := s.mapFabric cl f fun g =>
            { Fabric.reset with image := some i, pin := s.pinned x.part x.img, tables := tables, limit := g.limit,
                                admitted := g.admitted, window := g.window, lastUse := now, firedAt := s.tick }
          let s := s.mapCluster cl fun c =>
            { c with
              imgLoad := c.imgLoad + 1
              cfgCache := c.cfgCache.map fun e => (e.1, if e.2.img = x.img then { e.2 with lastUse := now } else e.2) }
          .next ((s.dropFetch cl f).wakeImage cl)

/-! ### `SERVE` (08 R190) -/

/-- `SERVE`: the entry, a fabric, the mode and the counts are checked in that order; the arguments go in as one packet and the
thread waits. -/
def execServe (d a : Reg) (n r : BitVec 3) (src : BitVec 8) (s : State) : Out :=
  s.needTask "SERVE" fun k =>
    let sid := src.toNat
    let cl := s.curCluster
    let e := s.server k.part sid
    if s.sidChanging k.part sid then .next (s.setWait (.image sid))
    else if !bit e.ctl 0 then .next (s.takeTrap (unboundTrap 0 1 sid))
    else match s.obtain k.part k.ctx cl sid e false with
      | (none, s) => .next (s.setWait (.image sid))
      | (some f, s) =>
        match (s.fabric cl f).image with
        | none => .next (s.setWait (.image sid))
        | some i =>
          if !i.call then .next (s.takeTrap (unboundTrap e.img 4 sid))
          else if i.nargs ≠ n.toNat + 1 ∨ i.nres ≠ r.toNat + 1 then .next (s.takeTrap (unboundTrap e.img 3 sid))
          else
            let (id, s) := s.newUid
            let args := (upFrom 0 (n.toNat + 1)).map fun j => s.g (a + BitVec.ofNat 5 j)
            let q : Packet := { id := id, t := s.cur.id, uid := k.uid, sid := sid, d := d, args := args, entered := false, free := i.unfed,
                                results := [], fault := none }
            .next (((s.mapFabric cl f fun g => { g with packets := g.packets ++ [q] }).setWait (.serve id)).raise
              .packetEntry cl f 0)

/-- `PACKET_ENTRY`: the next packet enters when every destination of every argument slot has a free slot and the limit admits it
(11 R273, R288). -/
def execPacketEntry (cl f : Nat) (s : State) : Out :=
  let g := s.fabric cl f
  match g.image, g.packets.find? (fun p => !p.entered) with
  | some i, some q =>
    if g.draining ∨ g.limit ≤ g.admittedAt s.tick ∨ !((upFrom 0 i.nargs).all fun n => g.roomFor i (64 + n)) then .next s
    else
      let (now, s) := s.newUid
      let s := s.mapFabric cl f fun g =>
        let g := { g.countEntry s.tick with
          packets := g.packets.map fun (p : Packet) => if p.id = q.id then { p with entered := true } else p
          lastUse := now }
        (upFrom 0 i.nargs).foldl (fun g n =>
          g.place i (64 + n) { Token.blank with data := (q.args[n]?).getD 0, eoi := true, packet := q.id }) g
      let s := s.each ((upFrom 0 i.nargs).flatMap fun n => (i.from_ (64 + n)).map fun r => r.dst).eraseDups fun s e =>
        if e < 64 then s.raise .fire cl f e else s.raise .results cl f 0
      let s := s.each q.free fun s e => s.raise .fire cl f e
      .next (s.raise .packetEntry cl f 0)
  | _, _ => .next s

/-- The trap record of a packet's fault (08 R194). -/
def FabFault.trap (x : FabFault) (sid : Nat) : TrapRec :=
  { kind := 0x05, taddr := x.va,
    tinfo := word (2 ^ 32 + x.elem % 256 * 2 ^ 24 + sid % 256 * 2 ^ 16 + x.akind * 2 ^ 8 + x.lsz * 2 ^ 4 + if x.store then 1 else 0) }

/-- The caller of a packet with retry poison leaves the rotation: for the summit, for its access that was cancelled in an inbox, or for
the translation that it needs (08 R190, R192, R196; 22 R416). -/
def State.serveRetry (s : State) (x : FabFault) (trap : TrapRec) : State :=
  let acc := if x.store then 1 else 0
  let user := s.mode == 0
  let cl := s.curCluster
  if x.summit then s.stallSummit
  else if x.away then s.setWait (.inbox false)
  else
    let held := (s.callerEntry cl x.va).filter fun e => e.allows acc user
    match s.place s.curPart cl x.va with
    | .paged =>
      match held with
      | none => s.startWalk (.thread s.cur.id) s.curPart s.curCtx (s.tlbOf s.cur) x.va acc user 1 trap
      | some e =>
        let l : Loc := if e.host then e.hostLoc s.curPart x.va else .dram s.curPart (s.selected s.curPart (e.gpaOf x.va))
        match s.agentHome l x.store with
        | .fault g r => s.stage2Fault (.thread s.cur.id) s.curPart s.curCtx g r 1 acc trap
        | home => home.after s
    | _ => s

/-- Results written to consecutive registers (08 R190). -/
def State.writeResults (s : State) (d : Reg) (vs : List Word) : State :=
  s.each ((upFrom 0 vs.length).zip vs) fun s e => s.setG (d + BitVec.ofNat 5 e.1) e.2

/-- What a packet that has left its fabric does to its caller, which runs (08 R190). -/
def State.servePacket (s : State) (q : Packet) (nres : Nat) : State :=
  let s := s.setWait .ready
  let tok (n : Nat) : Token := ((q.results.find? fun e => e.1 == n).map fun e => e.2).getD Token.blank
  let normal (s : State) : State :=
    if (upFrom 0 nres).any fun n => (tok n).poi then
      (if s.speculative && !s.holdsSummit then s.abortCurrent else s.takeTrap { kind := 0x10, taddr := 0, tinfo := 0 })
    else (s.writeResults q.d ((upFrom 0 nres).map fun n => (tok n).data)).advance 4
  match q.fault with
  | none => normal s
  | some x =>
    if x.kind = 3 then s.takeTrap (x.trap q.sid)
    else if x.kind = 2 then s.serveRetry x (x.trap q.sid)
    else normal s

/-- `SERVE_RESULTS_RETURN`: the oldest packet has all its results and has left the fabric; its caller goes on, traps, or leaves
the rotation, and a caller that is gone gets nothing (08 R190, R196). -/
def execServeResultsReturn (cl f : Nat) (s : State) : Out :=
  let g := s.fabric cl f
  match g.image, g.packets with
  | some i, q :: rest =>
    let complete := (upFrom 0 i.nres).all fun n => q.results.any fun e => e.1 == n
    if !q.entered ∨ !complete ∨ !q.free.isEmpty ∨ g.holdsPacket q.id then .next s
    else
      let s := s.mapFabric cl f fun g => { g with packets := rest }
      let waits : Bool := match s.thread? q.t with
        | some th => decide (th.wait = .serve q.id) && (th.task.map fun k => k.uid) == some q.uid
        | none => false
      let s := if waits then s.asThread q.t fun s => s.servePacket q i.nres else s
      let s := ((s.raise .packetEntry cl f 0).raise .results cl f 0).wakeImage cl
      match s.partOfCluster cl with
      | some p => .next (s.sweepWake p)
      | none => .next s
  | _, _ => .next s

/-! ### `STRM` and `STRMR` (08 R208, R210) -/

/-- A stream starts on a fabric at given positions of its engines; its first token waits for belay leave. Argument slots 4 to 7, which
its block does not feed, hold values that no rule states: they are free (08 R208, 11 R284). DESIGN CHOICE (log 72). -/
def State.startStream (s : State) (k : Task) (cl f : Nat) (i : Image) (va : Word) (blk : List Word) (sid : Nat) (pos : Tbl Nat) :
    State :=
  let (id, s) := s.acceptReq k .strm va blk
  let (now, s) := s.newUid
  let rest := (upFrom 0 4).foldl (fun (a : List Word × State) _ => let w := a.2.freeW; (a.1 ++ [w.1], w.2)) ([], s)
  let s := rest.2
  let start := (upFrom 0 4).map fun e => pos.getD e 0
  let ended := i.passed pos
  let ends := (upFrom 0 4).map fun e => ((i.nests.find? fun n => n.eng == e).map Nest.total).getD 0
  let s := s.mapReq id fun q => { q with sid := sid, die := dieOfCluster cl }
  let s := s.mapFabric cl f fun g =>
    { g with
      stream := some { req := id, args := blk.take 4 ++ rest.1, pos := pos, ended := ended }
      started := [], finished := [], progress := i.elems.map fun e => (e.1, if ended.contains e.1 then ends else start)
      fifos := [], accs := [], delays := [], ages := [], lastUse := now, firedAt := s.tick }
  let s := s.askBelay (dieOfCluster cl) { id := id, milli := streamMilli, part := k.part }
  s.raise .streamDone cl f 0

/-- A stream of a sid with a block, from given counters; `bad` answers for an image that cannot run it. -/
def State.stream (s : State) (k : Task) (va : Word) (blk : List Word) (sid : Nat) (restart : Option (Word × List Word)) : Out :=
  let cl := s.curCluster
  let e := s.server k.part sid
  let refuse (s : State) (cause : Nat) : Out :=
    match restart with
    | some (recVa, _) => .next (s.takeTrap (structTrap 0x03 recVa 20 0))
    | none => .next (s.takeTrap (unboundTrap (if cause = 1 then 0 else e.img) cause sid))
  if s.sidChanging k.part sid then .next (s.setWait (.image sid))
  else if !bit e.ctl 0 then refuse s 1
  else match s.obtain k.part k.ctx cl sid e true with
    | (none, s) => .next (s.setWait (.image sid))
    | (some f, s) =>
      match (s.fabric cl f).image with
      | none => .next (s.setWait (.image sid))
      | some i =>
        if i.call then refuse s 4
        else if 4 < i.nargs then .next (s.takeTrap (unboundTrap e.img 3 sid))
        else
          let cnts := (restart.map fun r => r.2).getD []
          let pos := i.nests.map fun n => (n.eng, if restart.isSome then n.position (bd cnts n.eng) else 0)
          .next ((s.startStream k cl f i va blk sid pos).advance 4)

/-- A 64-byte block read and checked as an engine's, for a stream. -/
def State.streamBlock (s : State) (k : Task) (va : Word) : Acc (List Word) :=
  (s.readBlock va (accInfo 0 3 0) 1 0).bind fun bs s =>
    let blk := (upFrom 0 8).map fun i => blockD bs (8 * i)
    match s.blockFault k.part s.curCluster .strm blk (decide (k.cls = .ordered)) k.loader.isSome with
    | some cause => .trap (structTrap 0x03 va cause 0) s
    | none => .ok blk s

/-- A step with an outcome after it. -/
def Acc.andThen {α : Type} (a : Acc α) (f : α → State → Out) : Out :=
  match a with
  | .ok v s => f v s
  | .trap r s => .next (s.takeTrap r)
  | .wait s => .next s

/-- `STRM` (08 R208). DEDUCED (log 31). -/
def execStrm (a b : Reg) (s : State) : Out :=
  s.needTask "STRM" fun k =>
    let va := s.g a
    let sid := (s.g b).toNat
    if s.speculative then .next s.stallSummit
    else if va.toNat % 64 ≠ 0 then .next (s.takeTrap { kind := 0x02, taddr := va, tinfo := accInfo 0 3 0 })
    else ((s.release .prt).streamBlock k va).andThen fun blk s => s.stream k va blk sid none

/-- `STRMR` (08 R210). -/
def execStrmr (a : Reg) (s : State) : Out :=
  s.needTask "STRMR" fun k =>
    let recVa := s.g a
    let refused (s : State) : Out := .next (s.takeTrap (structTrap 0x03 recVa 20 0))
    if s.speculative then .next s.stallSummit
    else if recVa.toNat % 64 ≠ 0 then refused s
    else ((s.release .prt).readBlock recVa (accInfo 0 3 0) 1 0).andThen fun bs s =>
      let status := blockD bs 0
      let va := blockD bs 0x18
      let sid := bits status 16 8
      let cnts := (upFrom 0 4).map fun i => blockD bs (0x20 + 8 * i)
      if bits status 0 8 = 0 ∨ va.toNat % 64 ≠ 0 then refused s
      else (s.streamBlock k va).andThen fun blk s => s.stream k va blk sid (some (recVa, cnts))

end Sys2Proof.Machine
end

