-- ==== Sys2Proof/Machine/Fetch.lean ====
section
/-! DEFINITION. Instruction fetch (03 R77, R78; 10 R257; 12 R298) and the turn of the threads in the rotation (01 R16). -/

namespace Sys2Proof.Machine

/-- The address lies in a scratchpad window, whatever its offset and whether its slot has a cluster: the local window is 1 MiB, and
the global window 512 slots of 1 MiB (01 R17). DEDUCED (log 19). -/
def inScratchWindow (va : Nat) : Bool :=
  (decide (localWindow ≤ va) && decide (va < localWindow + 2 ^ 20)) ||
  (decide (globalWindow ≤ va) && decide (va < globalWindow + 512 * 2 ^ 20))

/-- What the address of a halfword alone decides (10 R257): trap unmapped for a PC that is not canonical or lies elsewhere in
the reserved range, access for one in a scratchpad window. DEDUCED (log 19). -/
def State.fetchFaultKind (s : State) (va : Word) : Option Nat :=
  match s.cur.id.kind with
  | .command => none
  | _ =>
    match s.place s.curPart s.curCluster va with
    | .at _ => some 0x03
    | .unmapped => some (if inScratchWindow va.toNat then 0x03 else 0x04)
    | .paged => none

/-- The record of a fetch fault: the address of the halfword, and the 05 R130 layout with `ACC` = 2, `LSZ` = 1 and `ORD` = 0
(10 R257). -/
def fetchTrap (kind : Nat) (va : Word) : TrapRec := { kind := kind, taddr := va, tinfo := accInfo 0 1 2 }

/-- A thread is free to fetch what a store went over: for its own task's store with no `FENCEI` since then, for another's with no
`FENCEI` behind an acquire since then (12 R298, R302). DESIGN CHOICE (log 27). -/
def OldCode.open_ (o : OldCode) (th : Thread) (uid : Nat) : Bool :=
  match o.whom with
  | .all => if o.writer = uid then decide (th.fenced < o.tick) else decide (th.synced < o.tick)
  | .writer => o.writer == uid && decide (th.fenced < o.tick)
  | .others => o.writer != uid && decide (th.synced < o.tick)

/-- The values that a fetched halfword is free to return beside the one fetched (12 R298, R302). DESIGN CHOICE (log 27). -/
def State.oldHalves (s : State) (l : Loc) : List (BitVec 16) :=
  ((s.cluster s.curCluster).oldCode.filter fun o => decide (o.loc = l) && o.open_ s.cur s.curUid).map (·.old)

/-- One halfword fetched through the cluster's L1; a speculative task sees its own buffered bytes (12 R298). DEDUCED (log 19). -/
def State.fetchHalf (s : State) (va : Word) : Acc (BitVec 16) :=
  let trap := fetchTrap 0 va
  (s.locate va 2 trap).bind fun l s =>
    (if (s.cachedLine s.curCluster l).isSome then Acc.ok () s else s.structHome l false trap).bind fun _ s =>
      let old := s.oldHalves l
      let r := s.loadCached s.curCluster false l 2
      let bs := if s.speculative then (s.cluster s.curCluster).overlay s.curUid l r.1.1 else r.1.1
      let now := halfOf (bs.headD 0) ((bs.drop 1).headD 0)
      if old.isEmpty then .ok now r.2
      else
        let c := r.2.freeW
        .ok ((old[c.1.toNat % (old.length + 1)]?).getD now) c.2

/-- The instruction at the PC. The checks run in the order of 04 R113: the second halfword is fetched only when the first
asks for it. DEDUCED (log 19). -/
def State.fetch (s : State) : Acc Instr :=
  if (s.fetchFaultKind s.pc).isSome then .ok .instructionFetchFault s
  else (s.fetchHalf s.pc).bind fun h s =>
    match decodeFirst h with
    | .done r w => .ok (orIllegal r w) s
    | .more =>
      if (s.fetchFaultKind (s.pc + 2)).isSome then .ok .instructionFetchFault s
      else (s.fetchHalf (s.pc + 2)).bind fun h2 s =>
        let w : BitVec 32 := h ++ h2
        .ok (orIllegal (decode32 w) w) s

/-- The time that a step takes: at least one tick (log 3). -/
def State.spend (s : State) : State := { s with tick := s.tick + 1 + Config.stepTicks s.tick }

/-- The running thread takes part in the rotation. -/
def State.ready (s : State) : Bool := decide (s.cur.wait = .ready)

end Sys2Proof.Machine
end

