-- ==== Sys2Proof/Machine/System.lean ====
section
/-! DEFINITION. The `SYS` major, the system registers, the service ring, and the two ways a fetch ends without an instruction of
the table (10 R252 to R268; 21 R383; 04 R111). -/

namespace Sys2Proof.Machine

/-- An illegal encoding traps at its PC, changes nothing else and records its cause and word (04 R111). DEDUCED (log 31). -/
def illegalTrap (pc : Word) (cause : Nat) (w : Word) : TrapRec :=
  { kind := 0x01, taddr := pc, tinfo := causeInfo cause w.toNat }

/-- `ILLEGAL_ENCODING`. -/
def execIllegalEncoding (cause : BitVec 8) (w : BitVec 32) (s : State) : Out :=
  .next (s.takeTrap (illegalTrap s.pc cause.toNat (w.setWidth 64)))

/-- `UDF` (04 R110, R112): cause 4, always. -/
def execUdf (x : BitVec 10) (s : State) : Out := .next (s.takeTrap (illegalTrap s.pc 4 (x.setWidth 64)))

/-- `INSTRUCTION_FETCH_FAULT` (10 R257): the halfword at the PC, or else the one after it, cannot be fetched at all. -/
def execInstructionFetchFault (s : State) : Out :=
  match s.fetchFaultKind s.pc with
  | some k => .next (s.takeTrap (fetchTrap k s.pc))
  | none =>
    let k := (s.fetchFaultKind (s.pc + 2)).getD 0x04
    .next (s.takeTrap (fetchTrap k (s.pc + 2)))

/-! ### `TRAP`, `BRK`, `ERET` (10 R262) -/

/-- `TINFO` of `TRAP` and `BRK`: `CAUSE`, the length in halfwords, above the code. -/
def softInfo (halfwords code : Nat) : Word := word (halfwords * 2 ^ 32 + code)

/-- The software trap of an instruction of some halfwords. -/
def State.softTrap (s : State) (halfwords code : Nat) : Out :=
  .next (s.takeTrap { kind := 0x0F, taddr := 0, tinfo := softInfo halfwords code })

/-- `TRAP` (10 R262). -/
def execTrap (c : BitVec 12) (s : State) : Out := s.softTrap 2 c.toNat

/-- `BRK` (10 R262). -/
def execBrk (s : State) : Out := .next (s.takeTrap { kind := 0x11, taddr := s.pc, tinfo := softInfo 2 0 })

/-- A privileged instruction below its mode traps privilege, cause 1, with its func (10 R252, R260). -/
def State.privileged (s : State) (mode func : Nat) (f : Out) : Out :=
  if s.mode < mode then .next (s.takeTrap (privilegeTrap 1 func)) else f

/-- `ERET` (10 R262). -/
def execEret (s : State) : Out := s.privileged 1 2 (.next s.returnFromTrap)

/-! ### System registers (10 R254) -/

/-- The lowest mode that reaches a system register. -/
def sysRegMode (n : Nat) : Nat := if n = 0 then 0 else if n = 0x40 then 2 else 1

/-- A register that is never written from software. -/
def sysRegReadOnly (n : Nat) : Bool := decide (0x10 ≤ n)

/-- The value of a system register of the running thread. `CLUSTER`, `PART` and `THREAD` of a core that is not a barrel core
are free (log 2). `KEY` and `ELAPSED` of a command core, which runs no task, read 0. DESIGN CHOICE (log 71). -/
def State.sysReg (s : State) (n : Nat) : Word × State :=
  let r := s.cur.regs
  let barrel := decide (s.cur.id.kind = .barrel)
  match n with
  | 0x000 => (r.status, s)
  | 0x001 => (r.tvec, s)
  | 0x002 => (r.tpc, s)
  | 0x003 => (r.tkind, s)
  | 0x004 => (r.taddr, s)
  | 0x005 => (r.tinfo, s)
  | 0x006 => (r.tnest, s)
  | 0x007 => (r.tsave, s)
  | 0x010 => if barrel then (word s.cur.id.unit, s) else s.freeW
  | 0x011 => if barrel then (word s.curPart, s) else s.freeW
  | 0x012 => if barrel then (word s.cur.id.slot, s) else s.freeW
  | 0x020 => (match s.cur.task with
    | some k => if k.cls = .ordered then k.key else 0
    | none => 0, s)
  | 0x030 => (match s.cur.task with
    | some k => word (k.elapsed s.tick)
    | none => 0, s)
  | _ => (r.event, s)

/-- A system register written: `STATUS` as its mode allows, bit 0 of `TVEC` as 0, `TKIND` in bits 7:0 (10 R253, R254). -/
def Regs.writeSys (r : Regs) (n : Nat) (v : Word) : Regs :=
  match n with
  | 0x000 => { r with status := statusWrite r.mode r.status v }
  | 0x001 => { r with tvec := setBits v 0 1 0 }
  | 0x002 => { r with tpc := v }
  | 0x003 => { r with tkind := word (bits v 0 8) }
  | 0x004 => { r with taddr := v }
  | 0x005 => { r with tinfo := v }
  | 0x006 => { r with tnest := v }
  | _ => { r with tsave := v }

/-- `MFS` (10 R254, R261). DEDUCED (log 31). -/
def execMfs (d : Reg) (n : BitVec 10) (s : State) : Out :=
  if s.mode < sysRegMode n.toNat then .next (s.takeTrap (privilegeTrap 2 n.toNat))
  else
    let r := s.sysReg n.toNat
    r.2.result d r.1

/-- `MTS` (10 R253, R254, R261). DEDUCED (log 31). -/
def execMts (src : Reg) (n : BitVec 10) (s : State) : Out :=
  if s.mode < sysRegMode n.toNat then .next (s.takeTrap (privilegeTrap 2 n.toNat))
  else if sysRegReadOnly n.toNat then .next (s.takeTrap (privilegeTrap 3 n.toNat))
  else (s.mapRegs fun r => r.writeSys n.toNat (s.g src)).pass

/-! ### Time and counters (10 R264) -/

/-- `CYC` (10 R264). -/
def execCyc (d : Reg) (s : State) : Out := s.result d (word s.tick)

/-- The counter of an id; the stall counters depend on timing and are free (log 3), an id of no counter reads 0. -/
def State.counter (s : State) (id : Nat) : Word × State :=
  let c := s.cluster s.curCluster
  match id with
  | 0 => (word c.imgLoad, s)
  | 1 => (word c.imgFetch, s)
  | 2 => (match s.cur.task with
    | some k => word k.retired
    | none => 0, s)
  | n => if 0x100 ≤ n ∧ n ≤ 0x10D then s.freeW else (0, s)

/-- `PERF` (10 R264). -/
def execPerf (d a : Reg) (s : State) : Out :=
  let r := s.counter (bits (s.g a) 0 16)
  r.2.result d r.1

/-! ### Caches and translations (10 R265, R266) -/

/-- A range of VA of the running thread covers an L1 line by some 64 KiB page of it that maps there; a host context's page whose
translation its TLB no longer holds may map to any line. DESIGN CHOICE (log 28). -/
def State.rangeHoldsLine (s : State) (lo n : Nat) (x : Line) : Bool :=
  let first := lo / 2 ^ 16
  let pages := (lo + n - 1) / 2 ^ 16 + 1 - first
  (upFrom first pages).any fun k =>
    let from_ := Nat.max lo (k * 2 ^ 16)
    let to_ := Nat.min (lo + n) (k * 2 ^ 16 + 2 ^ 16)
    let va := word (k * 2 ^ 16)
    x.vmid == (s.part s.curPart).vmid && match s.callerPage s.curCluster va with
    | some g => x.line / 1024 == g / 2 ^ 16 && decide (g + from_ % 2 ^ 16 < x.line * 64 + 64) &&
        decide (x.line * 64 < g + from_ % 2 ^ 16 + (to_ - from_))
    | none => s.hostPasid.isSome && (s.callerEntry s.curCluster va).isNone

/-- `CINV` (10 R265). A command core has no L1. -/
def execCinv (a b : Reg) (s : State) : Out :=
  let n := (s.g b).toNat
  if s.cur.id.kind = .command then s.pass
  else if n = 0 then (s.emptyL1 s.curCluster).pass
  else (s.mapCluster s.curCluster fun c =>
    { c with l1 := c.l1.filter fun x => !s.rangeHoldsLine (s.g a).toNat n x }).pass

/-- A translation goes under a `TLBINV` of a `VMID` (10 R266). -/
def tlbSelected (vmid : Nat) (va sel : Word) (e : TlbEntry) : Bool :=
  let page := va.toNat / 2 ^ e.bits == e.va / 2 ^ e.bits
  e.vmid == vmid && (bit sel 17 || (!e.host && page && (bit sel 16 || e.glob || e.asid == bits sel 0 16)))

/-- A walk-cache entry goes under a `TLBINV` of a `VMID`. -/
def walkSelected (vmid : Nat) (va sel : Word) (e : WalkCacheEntry) : Bool :=
  e.vmid == vmid && (bit sel 17 || (va.toNat / 2 ^ e.bits == e.va && (bit sel 16 || e.asid == bits sel 0 16)))

/-- `TLBINV` (10 R266). A command core translates nothing. -/
def execTlbinv (a b : Reg) (s : State) : Out :=
  s.privileged 1 8 (
    if s.cur.id.kind = .command then s.pass
    else (s.tlbRemove (s.tlbOf s.cur) (tlbSelected (s.part s.curPart).vmid (s.g a) (s.g b))
      (walkSelected (s.part s.curPart).vmid (s.g a) (s.g b))).pass)

/-- `NOP` (10 R261). -/
def execNop (s : State) : Out := s.pass

/-! ### `WAKE` (10 R267) -/

/-- A token that a thread may wake by `WAKE`: one of its partition's fault service, not one of the host's stage-2 log.
DEDUCED (log 29). -/
def State.mayWake (s : State) (token : Word) : Bool :=
  s.faults.any fun f => f.token == token && !f.stage2 && (s.cur.task.isNone || f.part == s.curPart)

/-- `WAKE` of a token that names no waiter does nothing: an outstanding token whose waiters have ended is over with it, and the next
fault of its page takes a token of its own. DEDUCED (log 29). -/
def State.dropToken (s : State) (token : Word) : State :=
  if s.mayWake token then { s with faults := s.faults.filter fun f => f.token != token } else s

/-- `WAKE` (10 R267). -/
def execWake (d a b : Reg) (s : State) : Out :=
  s.privileged 1 11 (
    let kind := bits (s.g b) 0 2
    if kind = 3 then .next (s.takeTrap (structTrap 0x03 0 23 0))
    else match (if s.mayWake (s.g a) then s.wakeToken (s.g a) kind else none) with
      | some t => t.result d 1
      | none => (s.dropToken (s.g a)).result d 0)

/-! ### `HALT` (10 R268; 21 R393) -/

/-- `HALT`: illegal, cause 6, on any core but a command core (10 R268, 04 R112). It ends the core's event once the work that the rules
give the event is over (21 R393). DEDUCED (log 40). -/
def execHalt (s : State) : Out :=
  if s.cur.id.kind ≠ .command then .next (s.takeTrap (illegalTrap s.pc 6 0xF800000C))
  else s.privileged 2 12 (.next (((s.advance 4).setWait .idle).freeCore s.cur.id.unit))

/-! ### `SYSC` and the service ring (10 R263; 21 R379, R383) -/

/-- The bytes of a packet header (21 R378). -/
def packetHeader (type irq len seq : Nat) : List Byte := leBytes 16 (type + irq * 2 ^ 8 + len * 2 ^ 16 + seq % 2 ^ 32 * 2 ^ 32)

/-- The free bytes of a service ring of a size. DESIGN CHOICE (log 43). -/
def Part.svcFree (t : Part) (size : Nat) : Nat :=
  if t.svcHead ≤ t.svcTail then size - (t.svcTail - t.svcHead) else t.svcHead - t.svcTail

/-- A request of `SYSC` written into the service ring, behind a `PAD` where it would cross the wrap; `none` where there is no
room (21 R383). The tail never meets `SVCHEAD` from behind, since equal offsets mean an empty ring. -/
def State.putService (s : State) (q : Sysc) : Option State :=
  let t := s.part q.part
  let size := 2 ^ t.svcLog
  let pad := if size < t.svcTail + 96 then size - t.svcTail else 0
  if t.svcLog < 12 ∨ t.svcFree size ≤ pad + 96 then none
  else
    let base := t.svcBase.toNat
    let m := if pad = 0 then s.hostMem else s.hostMem.writeBytes (base + t.svcTail) (packetHeader 0x01 0 (pad / 16) t.svcSeq)
    let seq := if pad = 0 then t.svcSeq else t.svcSeq + 1
    let at_ := if pad = 0 then t.svcTail else 0
    let m := m.writeBytes (base + at_)
      (packetHeader 0x10 0 6 seq ++ leBytes 8 q.token.toNat ++ leBytes 8 q.svc ++ q.block)
    some (({ s with hostMem := m }.mapPart q.part fun x =>
      { x with svcTail := (at_ + 96) % size, svcSeq := (seq + 1) % 2 ^ 32 }).interrupt (.vf q.part 16))

/-- The requests of a partition that wait for room enter the ring in the order of their `SYSC`, as far as there is room.
DESIGN CHOICE (log 43). -/
def State.sendServices (s : State) (p : Nat) : List Sysc → State
  | [] => s
  | q :: qs =>
    if q.part ≠ p ∨ q.sent then State.sendServices s p qs
    else match s.putService q with
      | none => s
      | some s =>
        State.sendServices { s with syscs := s.syscs.map fun (x : Sysc) =>
          if x.token = q.token then { x with sent := true } else x } p qs

/-- `SYSC` (10 R263). DESIGN CHOICE (log 35). -/
def execSysc (d a b : Reg) (s : State) : Out :=
  s.needTask "SYSC" fun k =>
    let va := s.g a
    if s.speculative then .next s.stallSummit
    else
    let s := s.release .sys
    if va.toNat % 64 ≠ 0 then .next (s.takeTrap { kind := 0x02, taddr := va, tinfo := accInfo 0 3 0 })
    else (s.readBlock va (accInfo 0 3 0) 1 0).run fun bs s =>
      if s.cur.id.kind = .barrel ∧ !s.canPark s.curCluster k.part k.ctx false then s.takeTrap (structTrap 0x0C va 6 0)
      else
        let (token, s) := s.newToken
        let q : Sysc := { token := token, part := k.part, ctx := k.ctx, uid := k.uid, block := bs,
                          svc := bits (s.g b) 0 16, sent := false }
        let s := ({ s with syscs := s.syscs ++ [q] }).parkRunning (.sysc d) 4
        s.sendServices k.part s.syscs

end Sys2Proof.Machine
end

