-- ==== Sys2Proof/Machine/Queues.lean ====
section
/-! DEFINITION. Host queues: doorbells, events and command cores, the packets, `LAUNCH`, the watchdog, switching a queue out and
in, and the host's own accesses (21 R374 to R395). The firmware of the command cores is no part of the spec: its work on a packet
is one step, or a few, of the packet's meaning (log 11). -/

namespace Sys2Proof.Machine

/-! ### Rings and headers (21 R377 to R380) -/

/-- A packet at the head of a ring: where it stands and its header's fields. -/
structure HostPacket where
  head : Nat
  size : Nat
  type : Nat
  irq  : Bool
  rsv  : Nat
  len  : Nat
  seq  : Nat
  /-- The host address of its first byte. -/
  at_  : Nat
  deriving DecidableEq, Repr

/-- The size of a queue's ring. -/
def Queue.size (x : Queue) : Nat := 2 ^ bits x.now.ctrl 0 5

/-- `CTRL[63]`. -/
def Queue.enabled (x : Queue) : Bool := bit x.now.ctrl 63

/-- The context of a queue. -/
def Queue.ctx (x : Queue) : Nat := bits x.now.ctrl 16 4 % 8

/-- `HEAD` as an offset. -/
def Queue.head (x : Queue) : Nat := x.now.head.toNat

/-- What stands at the head of a queue in one of its states: nothing to read, a header that halts it, or a packet. -/
inductive QueueHead where
  | idle
  | bad (code : Nat)
  | pkt (k : HostPacket)

/-- The header at `HEAD`, checked in the order of 21 R380. -/
def State.queueHead (s : State) (p q state : Nat) : QueueHead :=
  let x := s.queue p q
  let h := x.head
  if !x.enabled ∨ x.state ≠ state ∨ h = x.tail then .idle
  else
    let at_ := x.now.base.toNat + h
    let w := word (s.hostMem.readNat at_ 8)
    let k : HostPacket := { head := h, size := x.size, type := bits w 0 8, irq := bit w 8,
                            rsv := bits w 9 7 + s.hostMem.readNat (at_ + 8) 8, len := bits w 16 16, seq := bits w 32 32, at_ := at_ }
    if k.len = 0 then .bad 1
    else if k.size < k.len * 16 then .bad 2
    else if k.size < h + k.len * 16 then .bad 3
    else if k.seq ≠ bits x.now.nseq 0 32 then .bad 4
    else if k.type = 0 ∨ 6 < k.type then .bad 5
    else .pkt k

/-- A doubleword of a packet. -/
def State.pktD (s : State) (k : HostPacket) (off : Nat) : Word := word (s.hostMem.readNat (k.at_ + off) 8)

/-- The switch-out of a queue's context waits for the queue's core (21 R387). -/
def State.leaving (s : State) (p q : Nat) : Bool := s.events.any fun e => e.kind == 3 && e.part == p && e.q == q

/-- A packet is processed, and after the release its update of the control block begins: `HEAD`, the sequence numbers, and
`LASTERR` of a refused one; a held queue runs again, and a halted one stays halted (21 R378, R381, R382, R386). -/
def State.finishPacket (s : State) (p q : Nat) (k : HostPacket) (refusal : Option Nat) : State :=
  (s.releaseSys 0).updateQcb p q true true k.irq
    { QcbPatch.none with
      head := some (word ((k.head + 16 * k.len) % k.size))
      nseq := some (word (k.seq * 2 ^ 32 + (k.seq + 1) % 2 ^ 32))
      lasterr := refusal.map fun code => word (code * 2 ^ 32 + k.seq)
      state := if (s.queue p q).state = 2 then none else some 0 }

/-- `SEQW` counts on. -/
def QcbFields.bump (c : QcbFields) : QcbFields := { c with seqw := c.seqw + 1 }

/-- One write of an update of a queue's control block: three to the primary, and the same three to the shadow. With the primary
complete for a packet `PROGRESS` takes the packet's `SEQ` (21 R386). -/
def Queue.write (x : Queue) (w : QcbWrite) : Queue :=
  let x := { x with writing := if 5 ≤ w.step then x.writing.drop 1 else { w with step := w.step + 1 } :: x.writing.drop 1 }
  match w.step with
  | 0 => { x with qcb := x.qcb.bump }
  | 1 => { x with qcb := x.qcb.put w.patch }
  | 2 =>
    let y := { x with qcb := x.qcb.bump }
    if w.packet then { y with progress := bits y.qcb.nseq 32 32, performed := false } else y
  | 3 => { x with shadow := x.shadow.bump }
  | 4 => { x with shadow := x.shadow.put w.patch }
  | _ => { x with shadow := x.shadow.bump }

/-- The next write of the updates under way; the vector is raised once the primary is complete, and behind the last write the core
that works on the queue goes on (21 R378, R386). -/
def State.writeQcb (s : State) (p q : Nat) : State :=
  match (s.queue p q).writing with
  | [] => s
  | w :: rest =>
    let s := s.mapQueue p q fun x => x.write w
    let s := if w.step = 2 ∧ w.irq then s.interrupt (.vf p q) else s
    if w.step < 5 ∨ !rest.isEmpty then s.raise .packet p q 7
    else if (s.coreOfQueue p q).isSome then s.raise .packet p q 0
    else s

/-! ### Addresses of packets -/

/-- The memory location of a structure that a packet of a queue names: aligned, mapped for the access, in device memory outside the
views, and not poisoned; the command core acts for the queue's context with supervisor rights (log 11). -/
def State.packetWord (s : State) (p c : Nat) (va : Word) (align acc n : Nat) : Option (Nat × State) :=
  let t := s.part p
  if va.toNat % align ≠ 0 then none
  else match s.agentLocate p c (t.globalCl 0) (stackTlbOf (dieOfColumn t.first * 4)) va acc false with
    | .at l s =>
      match l with
      | .dram p' g =>
        if ((s.part p').windowAt g).isSome then none
        else match s.agentHome l (acc == 1) with
          | .fault _ _ => none
          | home => if s.poisonedAt l n then none else some (g, home.after s)
      | _ => none
    | _ => none

/-- A word that a packet names has a home that serves other requests first (07 R151, 08 R201). -/
def State.wordBusy (s : State) (p c : Nat) (va : Word) (acc : Nat) : Bool :=
  let t := s.part p
  match s.agentLocate p c (t.globalCl 0) (stackTlbOf (dieOfColumn t.first * 4)) va acc false with
  | .at l s => s.agentWaits l 0
  | .busy => true
  | _ => false

/-- The words of memory that a packet names: those of a `SIGNAL`, a `WAITF` and a `LAUNCH`, with the kind of access. -/
def State.packetWords (s : State) (k : HostPacket) : List (Word × Nat) :=
  match k.type with
  | 3 =>
    let w := s.pktD k 16
    let tail := 32 + 64 * bits w 32 16
    if bits w 16 8 = 1 then [(s.pktD k tail, 0), (s.pktD k tail + 64, 0), (s.pktD k (tail + 16), 1)]
    else (upFrom 0 (bits w 48 16)).flatMap fun i => let h := s.pktD k (tail + 8 * i); [(h, 0), (h + 64, 0)]
  | 4 => [(s.pktD k 16, 1)]
  | 5 => [(s.pktD k 16, 0)]
  | _ => []

/-- A packet waits for a home that serves other requests first. -/
def State.packetWaits (s : State) (p q : Nat) (k : HostPacket) : Bool :=
  (s.packetWords k).any fun e => s.wordBusy p (s.queue p q).ctx e.1 e.2

/-- The state of a queue in which its packet is read: the one named, or halted for a packet that a core has in hand (21 R380). -/
def State.readState (s : State) (p q state : Nat) : Nat := if (s.queue p q).state = 2 ∧ s.inHand p q then 2 else state

/-- A packet that a test names, in a state of its queue: processed by a function. A header that fails its checks halts the queue;
where no packet of the queue is to be read, or the queue is to be switched out before its next one, its event ends; another packet
is left alone, and so is a queue whose control block is being updated. -/
def State.onPacket (s : State) (p q state : Nat) (test : HostPacket → Bool) (f : HostPacket → State) : Out :=
  if !(s.queue p q).writing.isEmpty then .next s
  else if s.leaving p q ∧ !s.inHand p q then .next (s.endQueueEvent p q)
  else match s.queueHead p q (s.readState p q state) with
    | .idle => .next (s.endQueueEvent p q)
    | .bad code => .next (s.haltQueue p q code)
    | .pkt k => .next (if !test k then s else if s.packetWaits p q k then s.raise .packet p q (if state = 1 then 2 else 0) else f k)

/-- The first refusal of a list whose condition holds (21 R381). The order of the checks is the model's (log 11). -/
def firstRefusal : List (Bool × Nat) → Option Nat
  | [] => none
  | (b, code) :: rest => if b then some code else firstRefusal rest

/-- A packet refused where a check fails, else acted on. -/
def State.checked (s : State) (p q : Nat) (k : HostPacket) (checks : List (Bool × Nat)) (f : State) : State :=
  match firstRefusal ((k.rsv != 0, 16) :: checks) with
  | some code => s.finishPacket p q k (some code)
  | none => f

/-! ### Doorbells (21 R377, R387, R394) -/

/-- `TAIL_DOORBELL`: an ill-placed tail halts the queue with code 6; a queue that is switched out latches the tail; else the tail
moves and a doorbell event is queued. A queue that is not enabled ignores the write, and an ill-placed tail halts one that is
switched out at once. DESIGN CHOICE (log 11). -/
def execTailDoorbell (p q : Nat) (v : Word) (s : State) : Out :=
  let x := s.queue p q
  if !x.enabled then .next s
  else if v.toNat % 16 ≠ 0 ∨ x.size ≤ v.toNat then
    .next (if x.state = 2 then s else s.haltQueue p q 6)
  else if x.state = 3 then
    .next (s.updateQcb p q false false false { QcbPatch.none with tshad := some (setBits v 63 1 1) })
  else
    let s := s.mapQueue p q fun y => { y with tail := v.toNat }
    .next (if x.state = 0 then s.ring p q else s)

/-- `SVCHEAD_WRITE`: the host has consumed the service ring up to an offset, and requests that waited for room enter it
(21 R376, R383). -/
def execSvcheadWrite (p : Nat) (v : Word) (s : State) : Out :=
  let s := s.mapPart p fun t => { t with svcHead := v.toNat }
  .next (s.sendServices p s.syscs)

/-! ### Events and command cores (21 R393, R394) -/

/-- The first waiting event, in arrival order, whose lock no running event holds. -/
def State.nextEvent (s : State) : Option CmdEvent :=
  s.events.find? fun e => e.lock.isNone || !s.cmds.any fun c => match c.2.event with
    | some x => x.lock == e.lock
    | none => false

/-- `EVENT_HANDOFF`: an idle core takes the next event: its `EVENT` register holds the event's word, its thread runs on from its PC,
and the work that the rules give the event is due. The event ends with the thread's `HALT`, and not before that work is over. An
event of a reset or of an error report asks for no work (log 11). -/
def execEventHandoff (core : Nat) (s : State) : Out :=
  if s.boot ≠ .running ∨ commandCores ≤ core ∨ (s.cmd core).event.isSome then .next s
  else match s.nextEvent with
    | none => .next s
    | some e =>
      let t : Tid := { kind := .command, unit := core, slot := 0 }
      let th := (s.thread? t).getD { Thread.idle t with wait := .idle }
      let s := { s with events := eraseFirst (fun x => decide (x = e)) s.events, cmds := s.cmds.put core { event := some e, since := s.tick, done := !e.ofQueue } }
      let s := s.setThread { th with
        wait := .ready, mid := false, regs := { th.regs with event := e.word, status := setBits th.regs.status 11 2 2 } }
      .next (match e.kind with
        | 1 => s.raise .packet e.part e.q 0
        | 2 => s.raise .packet e.part e.q 2
        | 3 => s.raise .packet e.part e.q 3
        | 4 => s.raise .packet e.part e.q 4
        | 6 => s.raise .packet e.part e.q 6
        | _ => s)

/-! ### Plain packets -/

/-- `PAD`: skipped (21 R379, R381). -/
def execPad (p q : Nat) (s : State) : Out :=
  s.onPacket p q 0 (fun k => k.type == 1) fun k => s.checked p q k [] (s.finishPacket p q k none)

/-- `NOP_PACKET` (21 R381). -/
def execNopPacket (p q : Nat) (s : State) : Out :=
  s.onPacket p q 0 (fun k => k.type == 2) fun k => s.checked p q k [(k.len != 1, 20)] (s.finishPacket p q k none)

/-! ### `SIGNAL` (21 R381, R386) -/

/-- The kind of a `SIGNAL`. -/
def State.signalKind (s : State) (k : HostPacket) : Nat := (s.pktD k 32).toNat

/-- The effect of a `SIGNAL` is recorded as performed; its control block is updated by the next step of its event (21 R386). -/
def State.performSignal (s : State) (p q : Nat) : State := (s.mapQueue p q fun x => { x with performed := true }).raise .packet p q 0

/-- A `SIGNAL` whose effect is one that would trap is refused with code 22 and acts on nothing. -/
def State.signal (s : State) (p q : Nat) (k : HostPacket) (act : State → Option State) : State :=
  s.checked p q k [(k.len != 3, 20), (s.pktD k 40 != 0, 16)]
    (if (s.queue p q).performed then s.finishPacket p q k none
    else match act s with
      | none => s.finishPacket p q k (some 22)
      | some s => s.performSignal p q)

/-- `SIGNAL_RESOLVE`: a future resolves as under `FRES`; a double resolve, or a link that would underflow, is refused. -/
def execSignalResolve (p q : Nat) (s : State) : Out :=
  s.onPacket p q 0 (fun k => k.type == 4 && s.signalKind k == 0) fun k =>
    s.signal p q k fun s =>
      match s.packetWord p (s.queue p q).ctx (s.pktD k 16) 8 1 8 with
      | none => none
      | some (g, s) =>
        if 2 ≤ bits (s.readD p g) 62 2 then none
        else
          let r := s.resolveFuture p g 2 (s.pktD k 24)
          if r.1.isSome then none else some r.2

/-- `SIGNAL_ROPE_BYTES`: the value is subtracted from a rope's `BYTES` as an engine completion does (08 R201). -/
def execSignalRopeBytes (p q : Nat) (s : State) : Out :=
  s.onPacket p q 0 (fun k => k.type == 4 && s.signalKind k == 1) fun k =>
    s.signal p q k fun s =>
      match s.packetWord p (s.queue p q).ctx (s.pktD k 16) 16 1 16 with
      | none => none
      | some (g, s) => some (s.ropeBytes p g (s.pktD k 24))

/-- `SIGNAL_BAD_KIND`: refused with code 23. -/
def execSignalBadKind (p q : Nat) (s : State) : Out :=
  s.onPacket p q 0 (fun k => k.type == 4 && decide (2 ≤ s.signalKind k)) fun k =>
    s.checked p q k [(k.len != 3, 20), (s.pktD k 40 != 0, 16)] (s.finishPacket p q k (some 23))

/-! ### `WAITF` and `REPLY` (21 R381, R382, R384) -/

/-- The future of a `WAITF` at the head of a queue is final, or is not; `none` for an address that no read can reach. -/
def State.awaited (s : State) (p q : Nat) (k : HostPacket) : Option (Bool × State) :=
  match s.packetWord p (s.queue p q).ctx (s.pktD k 16) 8 0 8 with
  | none => none
  | some (g, s) => some (decide (2 ≤ bits (s.readD p g) 62 2), s)

/-- A `WAITF` is done, or holds its queue and frees its core. An address that cannot be read refuses it, with code 22 as for a
`SIGNAL` (log 11). -/
def State.waitFuture (s : State) (p q : Nat) (k : HostPacket) : State :=
  match s.awaited p q k with
  | none => s.finishPacket p q k (some 22)
  | some (true, s) => s.finishPacket p q k none
  | some (false, s) => s.updateQcb p q true false false { QcbPatch.none with state := some 1 }

/-- `WAITF`: the queue is held until the future leaves the empty states. -/
def execWaitf (p q : Nat) (s : State) : Out :=
  s.onPacket p q 0 (fun k => k.type == 5) fun k =>
    s.checked p q k [(k.len != 2, 20), (s.pktD k 24 != 0, 16)] (s.waitFuture p q k)

/-- `WAITF_RESOLVED`: a held queue whose future has left the empty states continues. -/
def execWaitfResolved (p q : Nat) (s : State) : Out :=
  s.onPacket p q 1 (fun k => k.type == 5) fun k => s.waitFuture p q k

/-- The future of a held queue may have resolved: the event of kind 2 is queued (21 R394). -/
def State.futureEvent (s : State) (p q : Nat) : State :=
  match s.queueHead p q 1 with
  | .pkt k => (match s.awaited p q k with
    | some (true, s) => s.pushEvent (s.queueEvent 2 p q)
    | _ => s)
  | _ => s

/-- `REPLY`: the `SYSC` of a token wakes with the result; a token that names no parked one of the VF is refused with code 21. -/
def execReply (p q : Nat) (s : State) : Out :=
  s.onPacket p q 0 (fun k => k.type == 6) fun k =>
    s.checked p q k [(k.len != 2, 20)]
      (match s.syscs.find? fun x => x.token == s.pktD k 16 && x.part == p && s.allTasks.any fun t => t.uid == x.uid with
      | none => s.finishPacket p q k (some 21)
      | some x =>
        let s' := ({ s with syscs := s.syscs.filter fun (y : Sysc) => decide (y ≠ x) }).wakeTask x.uid (s.pktD k 24)
        s'.finishPacket p q k none)

/-! ### `LAUNCH`: the delta (21 R388 to R390) -/

/-- A residency preload of a delta: logical cluster, base, units, kind (17 R342). -/
structure Preload where
  l     : Nat
  base  : Word
  units : Nat
  kind  : Nat

/-- A configuration with the preloads of a delta. -/
structure Delta where
  conf : PConf
  pre  : List Preload

/-- The bytes of a window's view range, as a column range; a window that is not enabled has none. -/
def Window.viewRange (w : Window) : Nat × Nat := if w.enabled then (w.view.toNat, w.len.toNat * w.factor) else (0, 0)

/-- The bytes of a window's stored range. -/
def Window.storedRange (w : Window) : Nat × Nat := if w.enabled then (w.store.toNat, w.len.toNat) else (0, 0)

/-- An enabled window obeys R72 and R73: a legal element, no reserved field, offsets and length in 4 KiB units, and a view that ends
within 20 GiB. DEDUCED (log 48). -/
def Window.legal (w : Window) : Bool :=
  let elem := bits w.ctl 0 3
  (if elem = 0 then bits w.ctl 5 3 != 0 else elem == 1 && decide (1 ≤ bits w.ctl 8 4 ∧ bits w.ctl 8 4 ≤ 4)) &&
  bits w.ctl 16 48 == 0 &&
  ([w.view, w.store, w.len, w.scale].all fun a => a.toNat % 4096 == 0) &&
  ([w.view, w.store, w.scale].all fun a => decide (a.toNat < 20 * 2 ^ 30)) &&
  decide (w.view.toNat + w.len.toNat * w.factor ≤ 20 * 2 ^ 30)

/-- No window overlaps another's view or stored range. DEDUCED (log 48). -/
def windowsApart : List Window → Bool
  | [] => true
  | w :: ws =>
    (ws.all fun x => [w.viewRange, w.storedRange].all fun a => [x.viewRange, x.storedRange].all fun b => apart a b) &&
    windowsApart ws

/-- One delta entry applied: its head and its seven doublewords of payload (21 R389). DESIGN CHOICE (log 73). -/
def Delta.entry (clusters : Nat) (d : Delta) (head : Word) (pl : List Word) : Except Nat Delta :=
  let kind := bits head 0 8
  let i := bits head 8 16
  let v (n : Nat) : Word := bd pl n
  let rest (n : Nat) : Bool := (pl.drop n).any fun w => w != 0
  let c := d.conf
  if bits head 24 40 ≠ 0 then .error 16
  else match kind with
    | 1 =>
      if 256 ≤ i then .error 17
      else if rest 2 ∨ bits (v 1) 2 62 ≠ 0 then .error 16
      else if bit (v 1) 0 ∧ (v 0).toNat % 64 ≠ 0 then .error 17
      else .ok { d with conf := { c with servers := c.servers.put i { img := v 0, ctl := v 1 } } }
    | 2 =>
      let w : Window := { view := v 0, store := v 1, len := v 2, scale := v 3, ctl := v 4 }
      if 16 ≤ i then .error 17
      else if rest 5 ∨ (!w.enabled ∧ bits w.ctl 16 48 ≠ 0) then .error 16
      else if w.enabled ∧ !w.legal then .error 19
      else .ok { d with conf := { c with windows := c.windows.put i w } }
    | 3 =>
      if clusters ≤ i then .error 17
      else if rest 3 then .error 16
      else if (v 0).toNat % 4096 ≠ 0 ∨ v 1 = 0 ∨ 65536 < (v 1).toNat ∨ 1 < (v 2).toNat then .error 17
      else .ok { d with pre := d.pre ++ [{ l := i, base := v 0, units := (v 1).toNat, kind := (v 2).toNat }] }
    | 4 =>
      if 256 ≤ i then .error 17
      else if rest 1 then .error 16
      else .ok { d with conf := { c with loaders := c.loaders.put i (v 0) } }
    | 5 =>
      if 64 ≤ i then .error 17
      else if rest 3 ∨ bits (v 2) 12 52 ≠ 0 then .error 16
      else .ok { d with conf := { c with peers := c.peers.put i [v 0, v 1, v 2] } }
    | _ => .error 17

/-- The delta entries of a packet, n of them from an offset. DEDUCED (log 48). -/
def State.deltaEntries (s : State) (clusters : Nat) (k : HostPacket) : Nat → Nat → Delta → Except Nat Delta
  | 0, _, d => .ok d
  | n + 1, off, d =>
    match d.entry clusters (s.pktD k off) ((upFrom 1 7).map fun i => s.pktD k (off + 8 * i)) with
    | .error c => .error c
    | .ok d => State.deltaEntries s clusters k n (off + 64) d

/-- The control doubleword of a `LAUNCH`. -/
def State.launchCtl (s : State) (k : HostPacket) : Word := s.pktD k 16

/-- The number of delta entries. -/
def launchEntries (w : Word) : Nat := bits w 32 16

/-- The number of header addresses. -/
def launchHeaders (w : Word) : Nat := bits w 48 16

/-- The launch starts a range. -/
def launchRange (w : Word) : Bool := bits w 16 8 == 1

/-- The checks of a `LAUNCH` as a whole, and its delta on the configuration that it starts from (21 R388 to R390).
DESIGN CHOICE (log 73). -/
def State.parseLaunch (s : State) (p : Nat) (k : HostPacket) : Except Nat Delta :=
  let t := s.part p
  let w := s.launchCtl k
  let n := launchEntries w
  let nh := launchHeaders w
  let tail := 32 + 64 * n
  let pad := if launchRange w then s.pktD k (tail + 24) else if nh % 2 = 1 then s.pktD k (tail + 8 * nh) else 0
  let len := 2 + 4 * n + if launchRange w then 2 else (nh + 1) / 2
  let base := bits w 0 8
  let checks := [(decide (15 < base ∨ 15 < bits w 8 8 ∨ 2 ≤ bits w 16 8 ∨ bits w 24 8 ≠ 0), 16),
    (launchRange w && nh != 0, 16), (k.len != len, 20), (s.pktD k 24 != 0 || pad != 0, 16)]
  match firstRefusal checks with
  | some code => .error code
  | none =>
    let conf := if base = 0 then t.conf else t.confs.getD base PConf.reset
    match s.deltaEntries t.clusters k n 32 { conf := conf, pre := [] } with
    | .error code => .error code
    | .ok d =>
      if !windowsApart (d.conf.windows.map fun e => e.2) then .error 19
      else if 3 < (d.conf.servers.filter fun e => bit e.2.ctl 0 && bit e.2.ctl 1).length then .error 18
      else .ok d

/-! ### `LAUNCH`: the selective drain (21 R391) -/

/-- The images named, before or after a change, by the entries that it changes. -/
def changedImages (a b : PConf) : List Word :=
  let none_ : ServEnt := { img := 0, ctl := 0 }
  ((a.servers ++ b.servers).map fun e => e.1).eraseDups.flatMap fun i =>
    let x := a.servers.getD i none_
    let y := b.servers.getD i none_
    if x = y then [] else [x.img, y.img]

/-- A fabric holds, or is loading, one of some images. -/
def Fabric.holds (g : Fabric) (imgs : List Word) : Bool :=
  (match g.image with
    | some i => imgs.contains i.img
    | none => false) ||
  (match g.loading with
    | some w => imgs.contains w
    | none => false)

/-- A cluster has to drain for a change of some images. -/
def Cluster.affected (c : Cluster) (imgs : List Word) : Bool :=
  (c.fabrics.any fun e => e.2.holds imgs) || c.cfgCache.any fun e => imgs.contains e.2.img

/-- A packet or stream of one of the images remains in a fabric. -/
def Cluster.draining (c : Cluster) (imgs : List Word) : Bool :=
  c.fabrics.any fun e => e.2.holds imgs && (!e.2.packets.isEmpty || e.2.stream.isSome)

/-- A logical cluster may not dispatch: its partition is paused, it is being switched, or it drains for a `LAUNCH`
(21 R391; 22 R415; 23 R426). -/
def State.holdsBack (s : State) (p cl : Nat) : Bool :=
  let t := s.part p
  decide (2 ≤ t.shed) || t.switching.contains (t.logicalCl cl) || t.drain.contains cl

/-- A cluster dispatches, or stops dispatching, as its partition's state asks. -/
def State.restop (s : State) (p cl : Nat) : State :=
  (s.mapCluster cl fun c => { c with stopped := s.holdsBack p cl }).raise .dispatch cl 0 0

/-- Images evicted from a cluster's fabrics and its config cache. -/
def State.evictImages (s : State) (cl : Nat) (imgs : List Word) : State :=
  let gone := (upFrom 0 4).filter fun f => (s.fabric cl f).holds imgs
  let s := s.each gone fun s f => (s.dropFetch cl f).mapFabric cl f Fabric.emptied
  s.mapCluster cl fun c => { c with cfgCache := c.cfgCache.filter fun e => !imgs.contains e.2.img }

/-- A saved fabric loses an evicted image; where a stream runs on with it, no call uses it any more (21 R391).
DEDUCED (log 42). -/
def Fabric.withoutImages (g : Fabric) (imgs : List Word) : Fabric :=
  if !g.holds imgs then g else if g.stream.isSome then { g with stale := true } else g.emptied

/-- The saved fabrics of a cluster lose evicted images. -/
def Cluster.withoutImages (c : Cluster) (imgs : List Word) (live : Bool) : Cluster :=
  { c with
    paused := c.paused.map fun x => { x with fab := x.fab.withoutImages imgs }
    fabrics := if live then c.fabrics else c.fabrics.map fun (e : Nat × Fabric) => (e.1, e.2.withoutImages imgs) }

/-- Images evicted from the fabrics that stand saved, with contexts or with checkpoints, of a partition (15 R337, 21 R391). -/
def State.evictSaved (s : State) (p : Nat) (imgs : List Word) : State :=
  if imgs.isEmpty then s else
  let s := s.each (s.part p).clusterList fun s cl => s.mapCluster cl fun c => c.withoutImages imgs true
  s.mapPart p fun t => { t with saves := t.saves.map fun a => { a with cluster := a.cluster.withoutImages imgs false } }

/-- L2 and RDC copies of the view ranges of changed windows, old and new, are invalidated. -/
def State.dropWindows (s : State) (p : Nat) (a b : PConf) : State :=
  let zero : Window := { view := 0, store := 0, len := 0, scale := 0, ctl := 0 }
  let ws := (upFrom 0 16).flatMap fun i =>
    let x := a.windows.getD i zero
    let y := b.windows.getD i zero
    if x = y then [] else [x, y]
  let viewed (v line : Nat) : Bool := v == (s.part p).vmid && ws.any fun w => w.views (columnOffset (line * 64))
  if ws.isEmpty then s
  else
    { s with
      l2 := s.l2.filter fun l => !viewed l.vmid l.line
      dies := s.dies.map fun (e : Nat × Die) => (e.1, { e.2 with rdc := e.2.rdc.filter fun c => !viewed c.vmid c.line }) }

/-- A preload sets a cairn entry, and the directories reflect it before any task of the launch is placed (17 R342). -/
def State.preload (s : State) (p : Nat) (x : Preload) : State :=
  let cl := (s.part p).globalCl x.l
  let s := (s.setCairn p cl x.base x.units x.kind).2
  let waiting := (s.dies.map fun e => (e.2.dirQ.map fun _ => e.1)).flatMap fun l => l
  s.each waiting fun s d => match execDirectoryUpdate d s with
    | .next s => s
    | _ => s

/-- The delta is applied, and the clusters that drained dispatch again. -/
def State.applyDelta (s : State) (p store : Nat) (d : Delta) (imgs : List Word) : State :=
  let old := (s.part p).conf
  let cls := (s.part p).drain
  let s := (s.each cls fun s cl => s.evictImages cl imgs).evictSaved p imgs
  let s := s.mapPart p fun t =>
    { t with conf := d.conf, pending := none, drain := [], confs := if store = 0 then t.confs else t.confs.put store d.conf }
  let s := s.dropWindows p old d.conf
  let s := s.each d.pre fun s x => s.preload p x
  let s := s.each cls fun s cl => s.restop p cl
  s.each (s.part p).clusterList fun s cl => s.wakeImage cl

/-! ### `LAUNCH`: the tasks (21 R392) -/

/-- A header that a command core reads, without fault service. -/
def State.packetHeader (s : State) (p c : Nat) (hdr : Word) : Option (Header × Nat × State) :=
  match s.packetWord p c hdr 64 0 64 with
  | none => none
  | some (g, s) =>
    match s.packetWord p c (hdr + 64) 64 0 64 with
    | none => none
    | some (g', s) => some (Header.ofBytes (s.bytesAt (.dram p g) 64 ++ s.bytesAt (.dram p g') 64), g, s)

/-- The decrements of a range of no instances; the first that cannot be made ends them. -/
def State.packetDecrements (p c : Nat) : List Word → State → Bool × State
  | [], s => (true, s)
  | va :: rest, s =>
    match s.packetWord p c va 64 1 64 with
    | none => (false, s)
    | some (g, s) =>
      let r := s.decrement p g
      if r.1 then (false, r.2) else State.packetDecrements p c rest r.2

/-- A header spawned by a `LAUNCH`, as `SPAWN` or `SPAWNR` would spawn it: whether it was accepted. -/
def State.packetSpawn (s : State) (p c : Nat) (hdr : Word) (n : Option Nat) (rope : Word) : Bool × State :=
  match s.packetHeader p c hdr with
  | none => (false, s)
  | some (h, g, s) =>
    if (h.fault (s.registered p g) n none).isSome then (false, s)
    else if n = some 0 then State.packetDecrements p c h.succ s
    else
      let bind := n.isSome && rope != 0
      let r : Option (Option Nat × State) :=
        if !bind then some (none, s)
        else match s.packetWord p c rope 16 1 16 with
          | none => none
          | some (b, s) =>
            if (s.binding? p b).isSome ∨ 1024 ≤ (s.part p).bindings.length ∨ ropeBroken (s.readD p b) then none
            else some (some b, s)
      match r with
      | none => (false, s)
      | some (b, s') =>
        match s'.register p c hdr g h n none with
        | none => (false, s)
        | some (reg, s) =>
          match b with
          | some b => (true, s.bindRope reg b)
          | none => (true, s)

/-- The headers of a list in order, up to the first that is refused. -/
def State.packetSpawns (p c : Nat) : List Word → State → Bool × State
  | [], s => (true, s)
  | h :: rest, s =>
    let r := s.packetSpawn p c h none 0
    if r.1 then State.packetSpawns p c rest r.2 else r

/-- The tasks of a launch start. -/
def State.startTasks (s : State) (p q : Nat) (k : HostPacket) : Bool × State :=
  let w := s.launchCtl k
  let c := (s.queue p q).ctx
  let tail := 32 + 64 * launchEntries w
  if launchRange w then s.packetSpawn p c (s.pktD k tail) (some (s.pktD k (tail + 8)).toNat) (s.pktD k (tail + 16))
  else State.packetSpawns p c ((upFrom 0 (launchHeaders w)).map fun i => s.pktD k (tail + 8 * i)) s

/-- A launch: its delta is checked whole; while clusters drain it waits, and one launch of a partition at a time is applied
(log 11); then the tasks start, and a refused header records code 17 (21 R390 to R392). -/
def State.launch (s : State) (p q : Nat) (k : HostPacket) : State :=
  match s.parseLaunch p k with
  | .error code => s.finishPacket p q k (some code)
  | .ok d =>
    let other := match (s.part p).pending with
      | some (x, _) => x != q
      | none => false
    if other then s
    else
      let t := s.part p
      let imgs := changedImages t.conf d.conf
      let cls := t.clusterList.filter fun cl => (s.cluster cl).affected imgs
      let s := s.mapPart p fun x =>
        { x with pending := some (q, d.conf), drain := x.drain ++ cls.filter fun cl => !x.drain.contains cl }
      let s := s.each cls fun s cl => s.mapCluster cl fun c => { c with stopped := true }
      if cls.any fun cl => (s.cluster cl).draining imgs then s
      else
        let s := s.applyDelta p (bits (s.launchCtl k) 8 8) d imgs
        -- the host's stores are visible to the tasks that start: no L1 of the partition hides them (21 R392)
        let s := s.each t.clusterList fun s cl => s.emptyL1 cl
        let r := s.startTasks p q k
        let s := r.2.each ((r.2.part p).queues.filter fun e => e.1 != q && (r.2.coreOfQueue p e.1).isSome) fun s e =>
          s.raise .packet p e.1 0
        s.finishPacket p q k (if r.1 then none else some 17)

/-- `LAUNCH` (21 R388 to R392). -/
def execLaunch (p q : Nat) (s : State) : Out :=
  s.onPacket p q 0 (fun k => k.type == 3) fun k => s.checked p q k [] (s.launch p q k)

/-! ### Switching a queue (21 R387) -/

/-- `QUEUE_SWITCH_OUT`: between two packets `STATE` becomes 3, and `PROGRESS` keeps what it holds; a halted queue stays halted
(log 11). -/
def execQueueSwitchOut (p q : Nat) (s : State) : Out :=
  let x := s.queue p q
  if !x.writing.isEmpty then .next (s.raise .packet p q 3)
  else if x.state = 0 ∨ x.state = 1 then .next (s.updateQcb p q true false false { QcbPatch.none with state := some 3 })
  else .next (s.endQueueEvent p q)

/-- The context of a queue is not the one that its partition runs. -/
def State.queueAway (s : State) (p q : Nat) : Bool :=
  let t := s.part p
  t.vacant || t.resident != (s.queue p q).ctx

/-- `QUEUE_SWITCH_IN`: the latched tail is applied, and the queue runs again, unless its context has gone once more. -/
def execQueueSwitchIn (p q : Nat) (s : State) : Out :=
  let x := s.queue p q
  if !x.writing.isEmpty then .next (s.raise .packet p q 4)
  else if x.state ≠ 3 ∨ s.queueAway p q then .next (s.endQueueEvent p q)
  else
    let s := if bit x.now.tshad 63 then s.mapQueue p q fun y => { y with tail := bits x.now.tshad 0 63 } else s
    .next (s.updateQcb p q true false false { QcbPatch.none with tshad := some (setBits x.now.tshad 63 1 0), state := some 0 })

/-! ### The watchdog, and re-arming (21 R380, R395) -/

/-- The ticks that an event may take (21 R395). -/
def watchdogTicks : Nat := 2 ^ 20

/-- `WATCHDOG_EXPIRE`. -/
def execWatchdogExpire (core : Nat) (s : State) : Out :=
  let k := s.cmd core
  .next (if k.event.isSome ∧ k.since + watchdogTicks ≤ s.tick then s.watchdogEnd core else s)

/-- `WATCHDOG_RECOVERY`: the queue of a recovery event goes on: its held future is looked at, it is switched out where its context
has gone, or the packet at `HEAD` is processed again, a `SIGNAL` only if its effect was not performed (21 R386). -/
def execWatchdogRecovery (core : Nat) (s : State) : Out :=
  match (s.cmd core).event with
  | none => .next s
  | some e =>
    if !e.recovery then .next s
    else
      let x := s.queue e.part e.q
      .next (s.raise .packet e.part e.q
        (if s.queueAway e.part e.q then 3 else if x.state = 3 then 4 else if x.state = 1 then 2 else 0))

/-- `QUEUE_REARM`: a halted queue is read again from `HEAD`, or is switched out when its context is (21 R380). -/
def execQueueRearm (p q : Nat) (s : State) : Out :=
  if (s.queue p q).state ≠ 2 then .next s
  else
    let away := s.queueAway p q
    let s := s.updateQcb p q false false false { QcbPatch.none with state := some (if away then 3 else 0) }
    .next (if away ∨ (s.queue p q).head = (s.queue p q).tail then s else s.ring p q)

/-! ### The host's accesses (21 R375; 22 R412) -/

/-- The device address behind a host address, by the HDM decoders; `none` where none decodes it, or nothing is populated behind it
(21 R375). DESIGN CHOICE (log 51). -/
def State.decodeHdm (s : State) (ha : Nat) : Option Nat :=
  ((s.pf.hdm.find? fun e => decide (e.2.base ≤ ha) && decide (ha < e.2.base + e.2.len)).map fun e => e.2.target + (ha - e.2.base)).filter
    populated

/-- The location behind a physical address: guest-physical where a partition has it mapped. DESIGN CHOICE (log 51). -/
def State.hostLoc (s : State) (pa : Nat) : Loc :=
  match s.guestOf pa with
  | some (p, g) => .dram p g
  | none => .phys pa

/-- What a host read of an address is answered with: the bytes of the home and their poison; where no home answers, the spec states no
value: it is free (22 R398; log 2). DESIGN CHOICE (log 51). -/
def State.hostRead (s : State) (ha size : Nat) (pa : Option Nat) : State :=
  match pa with
  | some pa => { s with sent := s.sent ++ [.hostData ha (s.bytesAt (.phys pa) size) (s.poisonedAt (.phys pa) size)] }
  | none =>
    let r := (upFrom 0 8).foldl (fun (a : List Byte × State) _ =>
      let w := a.2.freeW
      (a.1 ++ leBytes 8 w.1.toNat, w.2)) ([], s)
    { r.2 with sent := r.2.sent ++ [.hostData ha (r.1.take size) false] }

/-- A host access performs at the line's home as a `.sys` agent's; `none` while the home serves other requests first. What a read
returns goes to the host, and a write where no home answers reaches none. DESIGN CHOICE (log 51). -/
def State.hostAccess (s : State) (write : Bool) (ha size : Nat) (v : Word) : Option State :=
  let pa := s.decodeHdm ha
  if (pa.map s.hostLoc).any fun l => s.agentWaits l 0 then none
  else if !write then some (s.hostRead ha size pa)
  else match pa with
    | some pa => some ((s.writeBy 0 (s.hostLoc pa) (leBytes size v.toNat) []).releasePrt 0)
    | none => some s

/-- A request from outside waits at a home, behind those that came before it (07 R151). -/
def State.receive (s : State) (x : Inbound) : State := { s with inbound := s.inbound ++ [x] }.raise .inbound 0 0 0

/-- `HOST_CXL_MEM_ACCESS` (21 R375). DESIGN CHOICE (log 51). -/
def execHostCxlMemAccess (write : Bool) (ha size : Nat) (v : Word) (s : State) : Out :=
  match (if s.inbound.isEmpty then s.hostAccess write ha size v else none) with
  | some s => .next s
  | none => .next (s.receive (.access write ha size v))

/-- `ATS_PAGE_RESPONSE`: a host context's thread that was dropped for the host's page wakes with retry or fatal. Kind 3 is no kind
of wake (10 R267), and changes nothing. DEDUCED (log 29). -/
def execAtsPageResponse (t : Tid) (kind : BitVec 2) (s : State) : Out :=
  match s.thread? t with
  | none => .next s
  | some th =>
    match th.wait, th.task.bind fun k => k.host with
    | .fault _ trap, some _ => .next (if kind = 3 then s else s.wakeThread t kind.toNat trap)
    | _, _ => .next s

/-! ### `RCOPY` from a peer (08 R215, 13 R322) -/

/-- The umbra of a context, open and not cut, that holds a range (08 R203, R215; 14 R330). -/
def State.openUmbra (s : State) (p c : Nat) (va : Word) (len : Nat) : Option Umbra :=
  (s.part p).umbras.find? fun u =>
    u.ctx == c && !u.cut && decide (u.base ≤ va.toNat) && decide (va.toNat + len ≤ u.base + u.len)

/-- Data of a peer's request written in place for the resident context; data that no translation places are dropped (log 11).
DESIGN CHOICE (log 20). -/
def State.remoteWrite (s : State) (p c : Nat) (va : Word) (data : List Byte) (poison : List Bool) : State :=
  match s.packetWord p c va 1 1 0 with
  | some (g, s) => s.writeBy 0 (.dram p g) data poison
  | none => s

/-- Data of a peer's request written into the shadow of an umbra. DESIGN CHOICE (log 20). -/
def State.shadowWrite (s : State) (p u : Nat) (a : Arrival) : State :=
  match s.chunkAt p u a.va with
  | none => s
  | some (i, c) =>
    let l := c.place p a.va
    match s.chunkHome p c l with
    | .fault _ _ => s
    | home => ((home.after s).fillChunk p 0 u i c).writeBy 0 l a.data a.poison

/-- An acknowledgement or a refusal for a peer. DESIGN CHOICE (log 20). -/
def State.acknowledge (s : State) (p : Nat) (rdst rtgt : Word) (len kind : Nat) : State :=
  { s with sent := s.sent ++ [.rcopyAck p rdst rtgt len kind] }

/-- The last data of a peer's request for a range without a rope have come: where the whole range lies in one open umbra, all of
them go to its shadow, and the umbra is published if the request asks for it; else the request is refused with kind 3 (08 R215).
DESIGN CHOICE (log 20). -/
def State.remoteUmbra (s : State) (p c : Nat) (base : Word) (len : Nat) (pub : Bool) : State :=
  let mine (a : Arrival) : Bool :=
    a.part == p && decide (base.toNat ≤ a.va.toNat) && decide (a.va.toNat + a.data.length ≤ base.toNat + len)
  let data := s.arrivals.filter mine
  let s := { s with arrivals := s.arrivals.filter fun a => !mine a }
  match s.openUmbra p c base len with
  | none => s.acknowledge p base 0 len 3
  | some u =>
    let s := s.each data fun s a => s.shadowWrite p u.id a
    if !pub then s.acknowledge p base 0 len 0
    else (s.mapPart p fun t => { t with umbras := t.umbras.map fun x =>
        if x.id = u.id then { x with cut := true, remote := some (base, len) } else x }).raise .flip p u.id 0

/-- Data of a peer's `RCOPY` for a rope: they go to their address, and the last of them arrives at the rope with the length and is
acknowledged; `none` while a home serves other requests first. DESIGN CHOICE (log 20). -/
def State.ropeArrival (s : State) (p : Nat) (rdst : Word) (data : List Byte) (poison : List Bool) (last : Bool) (rtgt len : Word) :
    Option State :=
  let c := (s.part p).resident
  if s.wordBusy p c rdst 1 ∨ last ∧ s.wordBusy p c rtgt 1 then none
  else
    let base := rdst + word data.length - len
    let s := s.remoteWrite p c rdst data poison
    if last then
      match (s.releasePrt 0).packetWord p c rtgt 16 1 16 with
      | some (g, s) => some ((s.ropeBytes p g len).acknowledge p base rtgt len.toNat 0)
      | none => some (s.acknowledge p base rtgt len.toNat 0)
    else some s

/-- `RCOPY_REMOTE_ARRIVAL`: data of a peer's `RCOPY`, with the poison of its doublewords, for the context that is resident. With a rope
named they go to their address; without one they wait for the last, with which the whole range is known. DESIGN CHOICE (log 20). -/
def execRcopyRemoteArrival (p : Nat) (rdst : Word) (data : PeerData) (last : Bool) (rtgt : Word) (pub : Bool) (len : Word) (s : State) :
    Out :=
  if rtgt ≠ 0 then
    match (if s.inbound.isEmpty then s.ropeArrival p rdst data.bytes data.poison last rtgt len else none) with
    | some s => .next s
    | none => .next (s.receive (.rcopy p rdst data.bytes data.poison last rtgt len))
  else
    let s : State := { s with arrivals := s.arrivals ++ [{ part := p, va := rdst, data := data.bytes, poison := data.poison }] }
    .next (if last then s.remoteUmbra p (s.part p).resident (rdst + word data.bytes.length - len) len.toNat pub else s)

/-- The oldest request from outside that waits at a home is made, when the home serves it.
DESIGN CHOICE (log 20). DESIGN CHOICE (log 51). -/
def State.serveInbound (s : State) : State :=
  match s.inbound with
  | [] => s
  | x :: rest =>
    let rested : State := { s with inbound := rest }
    match (match x with
      | .access write ha size v => rested.hostAccess write ha size v
      | .rcopy p rdst data poison last rtgt len => rested.ropeArrival p rdst data poison last rtgt len) with
    | some s => if rest.isEmpty then s else s.raise .inbound 0 0 0
    | none => s.raise .inbound 0 0 0

end Sys2Proof.Machine
end

