-- ==== Sys2Proof/Machine/Partitions.lean ====
section
/-! DEFINITION. Partitions: the partition block, shoot-downs, stage 2 and the frame tables, the terminator sweep, saved contexts,
shedding, stops, drains and the function-level reset (22 R396 to R421; 23 R426). -/

namespace Sys2Proof.Machine

/-- The partitions that the PF BAR has a block for (22 R396). -/
def partitionCount : Nat := 64

/-! ### Creating and destroying (22 R397) -/

/-- The fields of `PDESC`. -/
def pdescMask : Word := 0xF83F000000003F3F

/-- A column belongs to an enabled partition other than p. -/
def State.columnTaken (s : State) (p col : Nat) : Bool :=
  s.parts.any fun e => e.1 != p && e.2.enabled && decide (e.2.first ≤ col) && decide (col ≤ e.2.last)

/-- A frame of a column is owned (22 R404). -/
def State.columnOwned (s : State) (col : Nat) : Bool :=
  s.frames.any fun e => e.1 / 640 == col && (match e.2 with
    | .owned _ => true
    | _ => false)

/-- A `PDESC` word may create partition p. -/
def State.mayCreate (s : State) (p : Nat) (v : Word) : Bool :=
  let t := { Part.reset with pdesc := v }
  let cols := upFrom t.first (t.last + 1 - t.first)
  decide (t.first ≤ t.last) && !(cols.any fun c => s.columnTaken p c || s.columnOwned c) &&
  !s.parts.any fun e => e.1 != p && e.2.enabled && e.2.vmid == t.vmid

/-- The registers of a partition's block kept; all that a partition holds dropped. -/
def Part.emptied (t : Part) : Part :=
  { t with
    stopped := false, sweep := none, swept := 0, switching := [], stopReq := false, abandoned := false, resident := 0,
    vacant := false, running := false, switched := false, resetting := false, conf := PConf.reset, pending := none, drain := [],
    confs := [], ctxs := [], saves := [], inboxes := [], rr := [], bindings := [], umbras := [], select := [], poolUsed := [],
    poolExtra := [], dirty := [], shed := 0, share := 256, evictedAt := none }

/-- The ordering lock that a queue's control block names. -/
def Queue.lock (x : Queue) : Nat := bits x.now.ctrl 20 10

/-- A lock that no enabled queue has, the one asked for where it is free: each queue has its own (21 R393).
DESIGN CHOICE (log 52). -/
def State.freeLock (s : State) (asked : Nat) : Nat :=
  let used (l : Nat) : Bool := s.parts.any fun e => e.2.queues.any fun q => q.2.enabled && q.2.lock == l
  if used asked then ((upFrom 0 1024).find? fun l => !used l).getD asked else asked

/-- The control block that the driver gives queue q of VF p: the ring, its size, the queue's context and its lock are the driver's
choice, within 21 R377, R385 and R393. A queue of a context that does not run is switched out (21 R387). DESIGN CHOICE (log 52). -/
def State.assigned (s : State) (p : Nat) (base ctrl : Word) : QcbFields :=
  let size := 12 + bits ctrl 0 5 % 9
  let t := s.part p
  let c := bits ctrl 16 3
  { QcbFields.reset with
    base := setBits base 0 size 0
    ctrl := word ((if bit ctrl 63 then 2 ^ 63 else 0) + s.freeLock (bits ctrl 20 10) * 2 ^ 20 + c * 2 ^ 16 + p * 2 ^ 8 + size)
    state := if t.vacant ∨ t.resident ≠ c then 3 else 0 }

/-- The driver assigns a queue through the PF, with values that no rule states (21 R375). DESIGN CHOICE (log 52). -/
def State.assignQueue (s : State) (p q : Nat) : State :=
  let a := s.freeW
  let b := a.2.freeW
  let c := b.2.assigned p a.1 b.1
  b.2.mapQueue p q fun _ => { Queue.reset with qcb := c, shadow := c }

/-- The driver assigns a partition's queues and its service ring through the PF (21 R375, R383): no step of the table does, so they
come with the partition, with values that no rule states. DESIGN CHOICE (log 52). -/
def State.assignQueues (s : State) (p : Nat) : State :=
  let s := s.each (upFrom 0 16) fun s q => s.assignQueue p q
  let r := s.freeW
  let size := 12 + bits r.1 0 5 % 9
  r.2.mapPart p fun t => { t with svcHead := 0, svcBase := setBits r.1 0 size 0, svcLog := size, svcTail := 0, svcSeq := 0 }

/-- The PF's driver assigns a queue that is not enabled, also one that a function-level reset has disabled (21 R375; 22 R420). No row
of the table names this move of the outside world (log 52). -/
def State.reassignQueue (s : State) (p q : Nat) : State :=
  if !(s.part p).enabled ∨ (s.part p).resetting ∨ 16 ≤ q ∨ (s.queue p q).enabled then s else s.assignQueue p q

/-- The PF's driver programs an HDM decoder, with values that no rule states (21 R375; log 51). -/
def State.setDecoder (s : State) (n : Nat) : State :=
  let a := s.freeW
  let b := a.2.freeW
  let c := b.2.freeW
  { c.2 with pf := { c.2.pf with hdm := c.2.pf.hdm.put n { base := a.1.toNat, len := b.1.toNat, target := c.1.toNat } } }

/-- Nothing outside a partition's block waits for it any more: its headers, records, walks and fault tokens. -/
def State.dropPartition (s : State) (p : Nat) : State :=
  { s with
    regs := s.regs.filter fun r => r.part != p
    biv := s.biv.filter fun b => b.part != p
    walks := s.walks.filter fun w => w.part != p
    faults := s.faults.filter fun f => f.part != p
    syscs := s.syscs.filter fun x => x.part != p
    reqs := s.reqs.filter fun q => q.part != p }

/-- `PDESC_WRITE`: a write that sets `EN` creates the partition or is refused; an enabled one is destroyed, while it is stopped, by
a write that clears `EN` and changes nothing else. Context 0 of a new partition is the one that runs (log 16).
DESIGN CHOICE (log 52). -/
def execPdescWrite (p : Nat) (v : Word) (s : State) : Out :=
  let t := s.part p
  let v := v &&& pdescMask
  if partitionCount ≤ p then .next s
  else if t.enabled then
    if setBits v 63 1 1 = t.pdesc ∧ !bit v 63 ∧ t.stopped then
      .next ((s.dropPartition p).mapPart p fun t => { t.emptied with pdesc := v, queues := [], svcLog := 0, svcBase := 0 })
    else .next s
  else if !bit v 63 then .next (s.mapPart p fun t => { t with pdesc := v })
  else if s.mayCreate p v then
    let s := (s.mapPart p fun t => { t.emptied with pdesc := v, running := true, switched := true }).assignQueues p
    .next (s.each (s.part p).clusterList fun s cl => s.restop p cl)
  else .next s

/-- `PSHARE_WRITE`: a slice mask of a population other than 1, 2, 4, 8 or 16 leaves the mask at 0 (22 R398). -/
def execPshareWrite (p : Nat) (v : Word) (s : State) : Out :=
  let n := popCount 16 (bits v 48 16)
  let mask := if n = 1 ∨ n = 2 ∨ n = 4 ∨ n = 8 ∨ n = 16 then bits v 48 16 else 0
  if partitionCount ≤ p then .next s
  else .next (s.mapPart p fun t => { t with pshare := word (mask * 2 ^ 48 + bits v 0 8) })

/-- `UMBPOOL_WRITE`: ignored while an umbra of the partition is open (22 R396). -/
def execUmbpoolWrite (p : Nat) (v : Word) (s : State) : Out :=
  if partitionCount ≤ p ∨ !(s.part p).umbras.isEmpty then .next s
  else .next (s.mapPart p fun t => { t with umbpool := v &&& 0x000003FF000003FF })

/-! ### Shoot-downs (22 R409 to R411) -/

/-- The numbers of the TLBs of a partition: its clusters', and those of its stack bases (22 R410). -/
def Part.tlbs (t : Part) : List Nat := t.clusterList ++ t.stackList.map stackTlbOf

/-- `SDCTL_SHOOTDOWN`: a shoot-down of the next number is on its way to every TLB of the partition (22 R410). -/
def execSdctlShootdown (p : Nat) (v : Word) (s : State) : Out :=
  let t := s.part p
  let n := (t.sdIssued + 1) % 2 ^ 32
  let d : Shootdown := { part := p, num := n, all := bit v 63, any := bit v 62, asid := bits v 0 16,
                         first := t.sdva.toNat / 2 ^ 16, pages := bits v 32 16 + 1 }
  let s := s.mapPart p fun t =>
    { t with
      sdIssued := n
      sdDone := if t.tlbs.isEmpty then n else t.sdDone
      sdPend := if t.tlbs.isEmpty then t.sdPend else t.sdPend ++ [(d, t.tlbs)] }
  .next (s.each t.tlbs fun s cl => s.raise .shootdown p cl 0)

/-- A translation of a `VMID` is covered by a shoot-down. -/
def TlbEntry.shot (e : TlbEntry) (vmid : Nat) (d : Shootdown) : Bool :=
  (d.all || !e.host) && e.vmid == vmid && d.covers e.asid e.glob e.va e.bits

/-- A walk-cache entry of a `VMID` is covered by a shoot-down. -/
def WalkCacheEntry.shot (e : WalkCacheEntry) (vmid : Nat) (d : Shootdown) : Bool :=
  e.vmid == vmid && d.covers e.asid false (e.va * 2 ^ e.bits) e.bits

/-- The shoot-downs at the front that every TLB has received: the number of the last of them, and those that are left. -/
def completedShots : Nat → List (Shootdown × List Nat) → Nat × List (Shootdown × List Nat)
  | n, [] => (n, [])
  | n, (d, left) :: rest => if left.isEmpty then completedShots d.num rest else (n, (d, left) :: rest)

/-- A shoot-down is taken by one TLB. -/
def takeShot (tlb : Nat) (num : Nat) (l : List (Shootdown × List Nat)) : List (Shootdown × List Nat) :=
  l.map fun e => if e.1.num = num then (e.1, e.2.filter fun x => x != tlb) else e

/-- `SHOOTDOWN_RECEIVE`: the next shoot-down in issue order reaches a TLB, its micro-TLBs and its walk cache: what it covers is
removed, its range is remembered, and numbers that every TLB has received complete in order (22 R410, R411). -/
def execShootdownReceive (p cl : Nat) (s : State) : Out :=
  match (s.part p).sdPend.find? fun e => e.2.contains cl with
  | none => .next s
  | some (d, _) =>
    let s := s.tlbRemove cl (fun e => e.shot (s.part p).vmid d) fun e => e.shot (s.part p).vmid d
    let s := if cl < 512 then s.mapCluster cl fun c => { c with shots := (d :: c.shots).take 8 }
      else s.mapStack (cl - 512) fun k => { k with shots := (d :: k.shots).take 8 }
    .next (s.mapPart p fun t =>
      let r := completedShots t.sdDone (takeShot cl d.num t.sdPend)
      { t with sdDone := r.1, sdPend := r.2 })

/-! ### Stage 2 and the frame tables (22 R404 to R406) -/

/-- The global column that a stage-2 command names: within the partition's columns, which no other enabled partition holds. -/
def State.s2Column (s : State) (p : Nat) (v : Word) : Option Nat :=
  let t := s.part p
  let col := t.first + bits v 48 6
  if t.last < col ∨ bits v 32 10 ≥ 640 ∨ bits v 0 10 ≥ 640 ∨ (!t.enabled ∧ s.columnTaken p col) then none else some col

/-- The result of a stage-2 command. -/
def State.s2Result (s : State) (p code : Nat) : State := s.mapPart p fun t => { t with s2res := code }

/-- A command that is not written while another is busy. -/
def State.s2Command (s : State) (p : Nat) (f : State) : Out :=
  if partitionCount ≤ p ∨ (s.part p).s2busy then .next s else .next f

/-- `S2_INSTALL` (22 R404). -/
def execS2Install (p : Nat) (v : Word) (s : State) : Out :=
  s.s2Command p (match s.s2Column p v with
    | none => s.s2Result p 4
    | some col =>
      let key := frameKey col (bits v 32 10)
      let frame := frameKey col (bits v 0 10)
      if (s.frames.getD frame .clean) ≠ .clean then s.s2Result p 1
      else if (s.s2map.get? key).isSome then s.s2Result p 2
      else { s with
        s2map := s.s2map.put key { w := bit v 61, frame := bits v 0 10 }
        frames := s.frames.put frame (.owned (s.part p).vmid) }.s2Result p 0)

/-- Lines of a `VMID` in a guest frame of a column leave every L1, L2 and RDC. -/
def State.purgeFrame (s : State) (vmid gpa : Nat) : State :=
  let mine (v line : Nat) : Bool := v == vmid && line / 2 ^ 19 == gpa / 2 ^ 25
  let keep (x : Line) : Bool := !mine x.vmid x.line
  { s with
    l2 := s.l2.filter fun x => !mine x.vmid x.line
    clusters := s.clusters.map fun (e : Nat × Cluster) => (e.1, { e.2 with l1 := e.2.l1.filter keep })
    dies := s.dies.map fun (e : Nat × Die) => (e.1, { e.2 with rdc := e.2.rdc.filter keep }) }

/-- The `VMID` that owns a frame, else the partition's (22 R404). -/
def State.frameOwner (s : State) (p key : Nat) : Nat :=
  match s.frames.getD key .clean with
  | .owned v => v
  | _ => (s.part p).vmid

/-- The first guest-physical address of the guest frame that a command names. -/
def s2Gpa (v : Word) : Nat := bits v 48 6 * 2 ^ 35 + bits v 32 10 * 2 ^ 25

/-- `S2_FREE`: the entry is cleared, the frame becomes free-dirty and its lines are purged; the scrub runs (22 R404, R406). A frame
field that is out of range is the command's own: only the guest frame and the column count (R404). -/
def execS2Free (p : Nat) (v : Word) (s : State) : Out :=
  s.s2Command p (match s.s2Column p (setBits v 0 10 0) with
    | none => s.s2Result p 4
    | some col =>
      let key := frameKey col (bits v 32 10)
      match s.s2map.get? key with
      | none => s.s2Result p 3
      | some e =>
        let s := { s with
          s2map := Tbl.drop s.s2map key
          frames := s.frames.put (frameKey col e.frame) .dirty }.purgeFrame (s.frameOwner p (frameKey col e.frame)) (s2Gpa v)
        ((s.s2Result p 0).mapPart p fun t => { t with s2busy := true, scrub := some (col, e.frame) }).raise .scrubDone p 0 0)

/-- `FRAME_SCRUB_DONE`: the memory cores have zeroed the frame, which is free-clean (22 R406). -/
def execFrameScrubDone (p : Nat) (s : State) : Out :=
  match (s.part p).scrub with
  | none => .next s
  | some (col, frame) =>
    let base := col * 2 ^ 35 + frame * 2 ^ 25
    .next ({ s with
      mem := Memory.clear s.mem base (2 ^ 25)
      poison := s.poison.filter fun a => decide (a * 8 < base ∨ base + 2 ^ 25 ≤ a * 8)
      frames := s.frames.put (frameKey col frame) .clean }.mapPart p fun t => { t with s2busy := false, scrub := none })

/-- `S2_PROTECT`: with `W` = 1 it takes effect at once; with `W` = 0 the write-backs of the frame's dirty lines follow
(22 R404, R405). -/
def execS2Protect (p : Nat) (v : Word) (s : State) : Out :=
  s.s2Command p (match s.s2Column p (setBits v 0 10 0) with
    | none => s.s2Result p 4
    | some col =>
      let key := frameKey col (bits v 32 10)
      match s.s2map.get? key with
      | none => s.s2Result p 3
      | some e =>
        let s := { s with s2map := s.s2map.put key { e with w := bit v 61 } }.s2Result p 0
        if bit v 61 then s
        else (s.mapPart p fun t => { t with s2busy := true, writeback := some (col, bits v 32 10) }).raise .writebackDone p 0 0)

/-- `PROTECT_WRITEBACK_DONE`: every dirty line of the frame is in memory, and the marks of its lines are clear (22 R405). -/
def execProtectWritebackDone (p : Nat) (s : State) : Out :=
  match (s.part p).writeback with
  | none => .next s
  | some (col, frame) =>
    let g := (col - (s.part p).first) * 2 ^ 35 + frame * 2 ^ 25
    let s := { s with l2 := s.l2.map fun (x : L2Line) =>
      if x.vmid = (s.part p).vmid ∧ x.line / 2 ^ 19 = g / 2 ^ 25 then { x with mark := false, dirty := false } else x }
    .next (s.mapPart p fun t => { t with s2busy := false, writeback := none })

/-- `S2CMD_UNASSIGNED`: refused with code 5 (22 R404). -/
def execS2cmdUnassigned (p : Nat) (v : Word) (s : State) : Out :=
  let _ := v
  s.s2Command p (s.s2Result p 5)

/-- `S2WAKE_WRITE`: the waiter that `S2TOK` names is woken; a stale token does nothing, and neither does kind 3 (22 R405, R408;
10 R267). DEDUCED (log 29). -/
def execS2wakeWrite (p : Nat) (v : Word) (s : State) : Out :=
  let token := (s.part p).s2tok
  if bits v 0 2 = 3 ∨ !(s.faults.any fun f => f.token == token && f.part == p) then .next s
  else .next ((s.wakeToken token (bits v 0 2)).getD s)

/-! ### Save areas (22 R416 to R418; 14 R335) -/

/-- The address of the `VALID` doubleword of a save area (22 R417). -/
def Part.validAt (t : Part) (l c : Nat) : Nat := t.savebase.toNat + (8 * l + c) * 2 ^ 22

/-- A save area's `VALID` written (22 R417). -/
def State.writeValid (s : State) (p l c v : Nat) : State := s.writeD p ((s.part p).validAt l c) (word v)

/-- A save area that is valid: what its doubleword says, where stage 2 maps it. -/
def State.savedAt (s : State) (p l c : Nat) : Option SaveArea :=
  let t := s.part p
  match t.saves.find? fun a => a.l == l && a.c == c && a.valid == 2 with
  | none => none
  | some a => if (s.physOf p (t.validAt l c)).isSome ∧ s.readD p (t.validAt l c) ≠ 2 then none else some a

/-- Where the scratchpad, the tile store and the context store of a save area stand in it (22 R417). -/
def areaScratch : Nat := 0x120000
def areaTiles : Nat := 0x0A0000
def areaSlots : Nat := 0x030000

/-- The bytes of a tile (01 R16, 09 R224). -/
def tileBytes : Nat := 16384

/-- The bytes of a saved context (22 R417). -/
def slotBytes : Nat := 384

/-- The bytes of a range within an image. -/
def imageBytes (m : Memory) (first n : Nat) : List Byte := (upFrom first n).map fun i => m.read i

/-- A range of memory, which lies in one guest frame, takes the bytes of an image and its poisoned doublewords; no cache keeps an
older copy of its lines. Where format windows are in force it is written line by line, for the views that depend on it or that it lies
in (02 R72, R76). -/
def State.putImage (s : State) (p gpa len : Nat) (m : Memory) (bad : List Nat) : State :=
  match s.physOf p gpa with
  | none => s
  | some a =>
    let gone (x : Line) : Bool := x.vmid == (s.part p).vmid && decide (gpa / 64 ≤ x.line) && decide (x.line < (gpa + len) / 64)
    let s : State := if !(s.part p).conf.windows.isEmpty then
        s.each (upFrom 0 (len / 64)) fun s k =>
          s.writeBy 0 (.dram p (gpa + 64 * k)) (imageBytes m (64 * k) 64) ((upFrom 0 8).map fun d => bad.contains (8 * k + d))
      else
        { s with
          mem := m.foldl (fun (mem : Memory) e => if e.1 < len then mem.write (a + e.1) e.2 else mem) (s.mem.clear a len)
          poison := (s.poison.filter fun d => decide (d < a / 8 ∨ (a + len) / 8 ≤ d)) ++ bad.map fun d => a / 8 + d }
    let s := { s with
      clusters := s.clusters.map fun (e : Nat × Cluster) => (e.1, { e.2 with l1 := e.2.l1.filter fun x => !gone x })
      dies := s.dies.map fun (e : Nat × Die) => (e.1, { e.2 with rdc := e.2.rdc.filter fun x => !gone x }) }
    s.each (upFrom 0 (len / 2 ^ 16)) fun s k => s.markDirtyPage p (gpa + k * 2 ^ 16)

/-- The bytes that a range of memory holds, as an image of its own; what lies in a view range reads through its window (02 R72). -/
def State.getImage (s : State) (p gpa len : Nat) : Option Memory :=
  (s.physOf p gpa).map fun a =>
    if !(s.part p).conf.windows.isEmpty then
      (upFrom 0 (len / 64)).foldl (fun (m : Memory) k => m.writeBytes (64 * k) (s.bytesAt (.dram p (gpa + 64 * k)) 64)) []
    else (s.mem.filter fun e => decide (a ≤ e.1 ∧ e.1 < a + len)).map fun e => (e.1 - a, e.2)

/-- The doublewords of a range that are poisoned, counted from its start. -/
def State.getPoison (s : State) (p gpa len : Nat) : List Nat :=
  match s.physOf p gpa with
  | none => []
  | some a => (s.poison.filter fun d => decide (a / 8 ≤ d ∧ d < (a + len) / 8)).map fun d => d - a / 8

/-- A task of a context. -/
def Task.ofCtx (k : Task) (p c : Nat) : Bool := k.part == p && k.ctx == c

/-- A thread runs a task of a context. -/
def Thread.ofCtx (th : Thread) (p c : Nat) : Bool := (th.task.map fun k => k.ofCtx p c) == some true

/-- What a thread's wait becomes when it is saved: an access in flight, a walk, or a wait for an image or an inbox is given up, and
the instruction is issued again at restore; a wait for fault service keeps its token (22 R416, R418). DEDUCED (log 50). -/
def Thread.saved (th : Thread) : Thread :=
  let afresh : Thread := { th with wait := .ready, mid := false }
  match th.wait with
  | .access _ _ => afresh
  | .home _ => afresh
  | .walk _ => afresh
  | .image _ => afresh
  | .inbox _ => afresh
  | _ => th

/-- The threads of a cluster that hold a task of a context: running, parked, and saved in its ready queue. -/
def State.threadsAt (s : State) (cl p c : Nat) : List Thread :=
  let k := s.cluster cl
  ((s.running cl) ++ (k.store.map fun x => x.thread) ++ k.readyQ.filterMap fun q => match q.job with
    | .saved th _ => some th
    | .fresh _ _ _ => none).filter fun th => th.ofCtx p c

/-- A tile queue that a switch does not wait for: an empty one, one headed by a `TCHAIN` that waits for its message, and one whose
head waits in the inbox of a context that is not resident and is issued again at restore (22 R416, R418). -/
def Part.queueRests (t : Part) (th : Thread) : Bool :=
  match th.tq with
  | [] => true
  | .tchain _ _ true _ _ :: _ => true
  | _ => t.queuedArray ((th.task.map fun k => k.uid).getD 0)

/-- A request writes into a cluster's scratchpad: with its first byte, or with a row that the stride takes there (14 R335). -/
def State.writesScratch (s : State) (q : Req) (cl : Nat) : Bool :=
  let in_ (va : Word) : Bool := match s.place q.part q.cl va with
    | .at l => (match l with
      | .scratch k _ => k == cl
      | _ => false)
    | _ => false
  match q.kind with
  | .copy => (upFrom 0 (copyRows q.blk)).any fun r => in_ (bd q.blk 1 + wordI (signedN (bits (bd q.blk 2) 32 32) 32 * (r : Int)))
  | k => in_ (blkDst k q.blk)

/-- A cluster can be switched: no call packet is in flight, no request of the context writes its scratchpad, and every tile queue
of the context rests (14 R335, 22 R418). -/
def State.canSwitch (s : State) (p l c : Nat) : Bool :=
  let t := s.part p
  let cl := t.globalCl l
  ((s.cluster cl).fabrics.all fun e => e.2.packets.isEmpty) &&
  !(s.reqs.any fun q => q.part == p && q.ctx == c && decide (q.kind ≠ .strm) && s.writesScratch q cl) &&
  (s.threadsAt cl p c).all t.queueRests

/-- The part of a cluster that belongs to a context: what a save area takes (22 R417). -/
def Cluster.ofCtx (k : Cluster) (p c : Nat) : Cluster :=
  { Cluster.reset with
    scratch := k.scratch, scrPoison := k.scrPoison, tiles := k.tiles, sets := k.sets, allocs := k.allocs, cairn := k.cairn,
    wps := k.wps, ssb := k.ssb, paused := k.paused
    fabrics := k.fabrics.map fun (e : Nat × Fabric) => (e.1, e.2.saved)
    readyQ := k.readyQ.filter fun e => e.part == p && e.ctx == c
    store := k.store.filter fun x => x.thread.ofCtx p c }

/-- The rest of a cluster: its caches and what waits for other contexts. -/
def Cluster.without (k : Cluster) (p c : Nat) : Cluster :=
  { k with
    scratch := [], scrPoison := [], tiles := [], sets := [], allocs := [], cairn := [], wps := [], ssb := []
    fabrics := k.fabrics.map fun (e : Nat × Fabric) => (e.1, e.2.emptied)
    paused := [], fetches := []
    readyQ := k.readyQ.filter fun e => !(e.part == p && e.ctx == c)
    store := k.store.filter fun x => !x.thread.ofCtx p c }

/-- A saved fabric put back: what the fabric itself has counted stays, its limit, the tokens of its window and its last use; holding
tokens without firing counts from now (11 R288; 15 R336; 22 R419). Putting it back is no load of an image, and counts as no use.
DESIGN CHOICE (log 75). -/
def Fabric.restored (g saved : Fabric) (now : Nat) : Fabric :=
  { saved with limit := g.limit, admitted := g.admitted, window := g.window, lastUse := g.lastUse, firedAt := now }

/-- The fabrics of a cluster with saved ones put back. -/
def Cluster.restoredFabrics (k a : Cluster) (now : Nat) : Tbl Fabric :=
  a.fabrics.foldl (fun (t : Tbl Fabric) e => t.put e.1 ((k.fabrics.getD e.1 Fabric.reset).restored e.2 now)) k.fabrics

/-- A cluster with a saved context put into it. -/
def Cluster.with_ (k a : Cluster) (now : Nat) : Cluster :=
  { k with
    scratch := a.scratch, scrPoison := a.scrPoison, tiles := a.tiles, sets := a.sets, allocs := a.allocs, cairn := a.cairn,
    wps := a.wps, ssb := a.ssb, fabrics := k.restoredFabrics a now, paused := a.paused, readyQ := k.readyQ ++ a.readyQ, store := k.store ++ a.store }

/-- The fabric limit L of a partition (23 R425). -/
def Part.limit (t : Part) : Nat := if t.shed = 0 then 1024 else Nat.max 1 (1024 * t.share / 256)

/-- The four fabrics of a cluster take their partition's limit. -/
def State.setLimits (s : State) (p cl : Nat) : State :=
  s.each (upFrom 0 4) fun s f => s.mapFabric cl f fun g => { g with limit := (s.part p).limit }

/-- The regions of a cluster's cairn table. -/
def Cluster.cairnRegions (k : Cluster) : List Nat := k.cairn.flatMap fun e => e.2.regions

/-- The tiles of an area as an image: the n-th tile in use at n × 16 KiB (log 17). -/
def tileImage (l : List Tile) : Memory :=
  ((upFrom 0 l.length).zip l).flatMap fun e => (e.2.data.filter fun x => decide (x.1 < tileBytes)).map fun x => (e.1 * tileBytes + x.1, x.2)

/-- The saved contexts of an area that are host contexts: their tasks' names, in the order of their slots (22 R412).
DESIGN CHOICE (log 53). -/
def SaveArea.hosts (a : SaveArea) : List Nat :=
  let host (th : Thread) : Option Nat := th.task.bind fun k => k.host.map fun _ => k.uid
  (a.cluster.store.filterMap fun x => host x.thread) ++ a.cluster.readyQ.filterMap fun q => match q.job with
    | .saved th _ => host th
    | .fresh _ _ _ => none

/-- The image of a host context that a save writes into its slot. The spec gives it no layout: its bytes are free (log 53). -/
def State.writeSlots (s : State) (p l c : Nat) (hosts : List Nat) : State × List (List Byte) :=
  hosts.foldl (fun (a : State × List (List Byte)) _ =>
    let r := (upFrom 0 (slotBytes / 8)).foldl (fun (x : State × List Byte) _ =>
      let w := x.1.freeW
      (w.2, x.2 ++ leBytes 8 w.1.toNat)) (a.1, [])
    let at_ := (s.part p).validAt l c + areaSlots + a.2.length * slotBytes
    (r.1.putImage p at_ slotBytes (Memory.writeBytes [] 0 r.2) [], a.2 ++ [r.2])) (s, [])

/-- The parts of an area that lie in memory in a layout that the spec gives: the scratchpad, the tiles, and the slots of host
contexts (22 R412, R417). The rest of the area's contents stands beside memory (log 17). -/
def State.writeArea (s : State) (p : Nat) (a : SaveArea) : State × SaveArea :=
  let base := (s.part p).validAt a.l a.c
  if (s.physOf p base).isNone then (s, a)
  else
    let s := s.putImage p (base + areaScratch) scratchSize a.cluster.scratch a.cluster.scrPoison
    let s := s.putImage p (base + areaTiles) (tileCount * tileBytes) (tileImage a.cluster.tiles) []
    let s := s.putImage p (base + areaSlots) 0x10000 [] []
    let r := s.writeSlots p a.l a.c a.hosts
    (r.1, { a with
      slots := r.2
      cluster := { a.cluster with
        scratch := [], scrPoison := [], tiles := a.cluster.tiles.map fun (t : Tile) => { t with data := [] } } })

/-- A host context that the driver has written into a slot: a thread of a host process, whose registers and PASID the 384 bytes hold in
a layout that the spec does not give; they are free (22 R412; log 53). -/
def State.hostThread (s : State) (p c : Nat) : Thread × State :=
  let word_ (x : State × List Word) : State × List Word := let w := x.1.freeW; (w.2, x.2 ++ [w.1])
  let r := (upFrom 0 43).foldl (fun x _ => word_ x) (s, [])
  let v (i : Nat) : Word := (r.2[i]?).getD 0
  let (uid, s) := r.1.newUid
  let regs : Regs := { Regs.reset with
    g := Vector.ofFn fun i => v i.val
    x := Vector.ofFn fun i => v (32 + i.val)
    pc := setBits (v 40) 0 1 0
    status := setBits (word (bits (v 41) 0 10)) 10 1 (if (s.part p).det then 1 else 0)
    tvec := setBits (v 42) 0 1 0 }
  let k : Task :=
    { uid := uid, part := p, ctx := c, hdr := 0, reg := 0, idx := 0, cls := .free, key := 0, prio := bits (v 42) 60 3, dispatched := s.tick,
      ranBefore := 0, retired := 0, exitAt := none, sig := 0, irrevocable := false, accessed := false, finished := none, pubs := [],
      host := some (bits (v 41) 40 20), loader := none }
  ({ Thread.idle { kind := .barrel, unit := 0, slot := 0 } with wait := .ready, regs := regs, task := some k }, s)

/-- A host context enters a cluster's ready queue at switch-in. DESIGN CHOICE (log 53). -/
def State.hostEntry (s : State) (cl p c : Nat) : State :=
  let r := s.hostThread p c
  r.2.enqueueSaved cl r.1 false

/-- An area as memory gives it back: what stands in its layout is read from there. A host context whose slot the driver has changed or
cleared has been moved out (22 R412). DESIGN CHOICE (log 53). -/
def State.readArea (s : State) (p : Nat) (a : SaveArea) : SaveArea :=
  let base := (s.part p).validAt a.l a.c
  match s.getImage p (base + areaScratch) scratchSize with
  | none => a
  | some scratch =>
    let tiles := ((upFrom 0 a.cluster.tiles.length).zip a.cluster.tiles).map fun e =>
      { e.2 with data := (s.getImage p (base + areaTiles + e.1 * tileBytes) tileBytes).getD [] }
    let slot (i : Nat) : Memory := (s.getImage p (base + areaSlots + i * slotBytes) slotBytes).getD []
    let hosts := a.hosts
    let left := hosts.filter fun u => match findIdx? (fun x => x == u) hosts with
      | some i => decide (slot i ≠ Memory.writeBytes [] 0 ((a.slots[i]?).getD []))
      | none => false
    let stays (th : Thread) : Bool := !left.contains ((th.task.map fun k => k.uid).getD 0)
    { a with cluster := { a.cluster with
        scratch := scratch
        scrPoison := s.getPoison p (base + areaScratch) scratchSize
        tiles := tiles
        store := a.cluster.store.filter fun x => stays x.thread
        readyQ := a.cluster.readyQ.filter fun q => match q.job with
          | .saved th _ => stays th
          | .fresh _ _ _ => true } }

/-- The slots of an area in which memory holds other bytes than its save wrote, and not only zeros: host contexts that the driver has
written there (22 R412). DESIGN CHOICE (log 53). -/
def State.newSlots (s : State) (p : Nat) (a : SaveArea) : List Nat :=
  let base := (s.part p).validAt a.l a.c
  (upFrom 0 170).filter fun i =>
    let m := (s.getImage p (base + areaSlots + i * slotBytes) slotBytes).getD []
    !m.isEmpty && decide (m ≠ Memory.writeBytes [] 0 ((a.slots[i]?).getD []))

/-- The save of the outgoing context of a cluster begins: `VALID` = 1 (22 R417). -/
def State.beginSave (s : State) (p l c : Nat) : State :=
  let a : SaveArea := { l := l, c := c, valid := 1, cluster := Cluster.reset, threads := [], slots := [] }
  (s.mapPart p fun t => { t with saves := a :: t.saves.filter fun a => !(a.l == l && a.c == c) }).writeValid p l c 1

/-- The save of a context on a cluster has begun. -/
def Part.saving (t : Part) (l c : Nat) : Bool := t.saves.any fun a => a.l == l && a.c == c && a.valid == 1

/-- The outgoing context of a cluster is saved, and its thread contexts are free; what its threads, tile queues and streams wait for in
inboxes is cancelled, and issued again at restore (22 R415 step 3, R416 to R418). -/
def State.saveContext (s : State) (p l c : Nat) : State :=
  let cl := (s.part p).globalCl l
  let out := (s.running cl).filter fun th => th.ofCtx p c
  let uids := (s.threadsAt cl p c).filterMap fun th => th.task.map fun k => k.uid
  let out_ (t : Tid) : Bool := out.any fun th => decide (th.id = t)
  let uidOf (t : Tid) : Nat := ((out.find? fun th => decide (th.id = t)).bind fun th => th.task.map fun k => k.uid).getD 0
  let s := s.each (upFrom 0 4) fun s f => if (s.fabric cl f).loading.isSome then s.dropFetch cl f else s
  let area : SaveArea := { l := l, c := c, valid := 2, cluster := (s.cluster cl).ofCtx p c, threads := out.map Thread.saved, slots := [] }
  let s := s.updateDirectories p cl (s.cluster cl).cairnRegions
  let s := s.each out fun s th => s.setThread { Thread.idle th.id with fenced := th.fenced }
  let save (w : Requester) : Requester := match w with
    | .thread t => if out_ t then .saved (uidOf t) else w
    | _ => w
  let left (w : Requester) : Bool := match w with
    | .thread t => out_ t
    | _ => false
  let s : State :=
    { s with
      walks := s.walks.filter fun w => !left w.who
      faults := s.faults.map fun (f : FaultTok) => { f with waiters := f.waiters.map save } }
  let s := s.mapCluster cl fun k => k.without p c
  let s := s.mapPart p fun t => (uids.foldl Part.dropWaits t).dropAges fun k _ => k == cl
  let r := s.writeArea p area
  (r.1.mapPart p fun t => { t with saves := r.2 :: t.saves.filter fun a => !(a.l == l && a.c == c) }).writeValid p l c 2

/-- The steps of the units of a fabric are due again. -/
def State.restartFabric (s : State) (cl f : Nat) : State :=
  let g := s.fabric cl f
  let s := match g.image with
    | some i => s.each i.elems fun s x => (s.raise .fire cl f x.1).raise .delayEmit cl f x.1
    | none => s
  let s := s.each g.ages fun s a => s.raise .ageDone cl f a.elem
  let s := if g.stream.isSome then
      ((s.each (upFrom 0 4) fun s n => s.raise .streamEmit cl f n).raise .streamDone cl f 0).raise .streamFatal cl f 0
    else s
  if g.draining then s.raise .fabRelease cl f 0 else s

/-- A task that was checkpointed stands in a ready queue. -/
def State.queuedAgain (s : State) (uid : Nat) : Bool :=
  s.clusters.any fun e => e.2.readyQ.any fun q => match q.job with
    | .saved th _ => (th.task.map fun k => k.uid) == some uid
    | .fresh _ _ _ => false

/-- The tokens of a stream's fabric that was saved with the checkpoint of its task return to the same fabric, once the task has been
dispatched again or is gone, and nothing else is using the fabric (14 R335). DESIGN CHOICE (log 75). -/
def State.unpause (s : State) (cl : Nat) : State :=
  s.each (s.cluster cl).paused fun s x =>
    let due := !s.queuedAgain x.uid
    let g := s.fabric cl x.slot
    if !due then s
    else if g.loading.isSome ∨ g.stream.isSome ∨ g.draining ∨ !g.packets.isEmpty then s.raise .unpause cl 0 0
    else
      let s := s.mapCluster cl fun c => { c with paused := c.paused.filter fun y => decide (y ≠ x) }
      (s.mapFabric cl x.slot fun g => g.restored x.fab s.tick).restartFabric cl x.slot

/-- The steps of a restored cluster's units are due again. -/
def State.restart (s : State) (p l c : Nat) : State :=
  let cl := (s.part p).globalCl l
  let k := s.cluster cl
  let s := s.each k.fabrics fun s e => s.restartFabric cl e.1
  let s := if k.paused.isEmpty then s else s.raise .unpause cl 0 0
  let s := s.each (s.threadsAt cl p c) fun s th =>
    if th.tq.isEmpty then s else s.raise .tileExec ((th.task.map fun k => k.uid).getD 0) 0 0
  let s := s.each (s.running cl) fun s th =>
    let s := if th.ckpt then s.raiseFor .checkpoint th.id else s
    match th.wait with
    | .flip u _ => s.raise .flip p u 0
    | .woken kind trap => s.wakeThread th.id kind trap
    | _ => s
  let die := dieOfCluster cl
  (((s.raise .grant cl 0 0).raise .report die p c).raise .commit p c 0).raise .dispatch cl 0 0

/-- The incoming context of a cluster is loaded from its save area; an area that is not valid loads as an empty context
(22 R415 step 4). Host contexts that the driver has written into the area become ready (22 R412). DESIGN CHOICE (log 75). -/
def State.loadContext (s : State) (p l c : Nat) : State :=
  let cl := (s.part p).globalCl l
  let empty : SaveArea := { l := l, c := c, valid := 0, cluster := Cluster.reset, threads := [], slots := [] }
  let saved := s.savedAt p l c
  let a := (saved.map fun a => s.readArea p a).getD empty
  let new := (saved.map fun a => s.newSlots p a).getD []
  let s := s.mapPart p fun t => { t with saves := t.saves.filter fun x => !(x.l == l && x.c == c) }
  let s := s.mapCluster cl fun k => k.with_ a.cluster s.tick
  let s := s.each a.threads fun s th =>
    let s := s.setThread th
    match th.wait with
    | .fault token _ =>
      let back (w : Requester) : Requester := if w = .saved ((th.task.map fun k => k.uid).getD 0) then .thread th.id else w
      { s with faults := s.faults.map fun (f : FaultTok) => if f.token = token then { f with waiters := f.waiters.map back } else f }
    | _ => s
  let s := s.each new fun s _ => s.hostEntry cl p c
  let s := s.updateDirectories p cl (s.cluster cl).cairnRegions
  (s.setLimits p cl).restart p l c

/-- The place of a tile queue's head in an inbox has come: the array executes it (22 R416). -/
def State.arrayNow (s : State) (u : Nat) : State :=
  match execTileQueueExecute u s with
  | .next t => t
  | _ => s

/-- One request of an inbox applied at switch-in (22 R416): a message stays behind in memory where the cluster's inbox is full
(07 R185). -/
def State.applyItem (s : State) (p l c : Nat) (i : InboxItem) : State :=
  let cl := (s.part p).globalCl l
  match i with
  | .msg m =>
    if ((s.cluster cl).messages p c).length < inboxRoom then s.mapCluster cl fun k => { k with inbox := k.inbox ++ [m] }
    else s.toInbox p l c i
  | .send t u m =>
    if ((s.cluster cl).messages p c).length < inboxRoom then
      (s.mapCluster cl fun k => { k with inbox := k.inbox ++ [m] }).sent_ t u
    else s.toInbox p l c i
  | .chain desc data poi =>
    (s.mapCluster cl fun k => { k with chain := k.chain ++ [{ part := p, ctx := c, desc := desc, data := data, poi := poi }] }).raise
      .chainArrive cl 0 0
  | .store off size v by_ => (s.writeHome (.scratch cl off) (leBytes size v.toNat)).noteCommit by_ (.scratch cl off)
  | .array u => s.arrayNow u
  | .age k f e => s.resumeAge k f e
  | .engine r => s.resumeReq r
  | .access t u what =>
    s.asThread t fun s =>
      if s.cur.wait ≠ .inbox false ∨ s.curUid ≠ u then s
      else match what with
        | none => s.mapCur Thread.again
        | some (a, loc) =>
          match (s.setWait .ready).perform a loc with
          | .ok _ s => s
          | .trap r s => s.takeTrap r
          | .wait s => s

/-- The incoming context's inbox for a cluster applied in order (22 R415 step 5, R416). -/
def State.applyInbox (s : State) (p l c : Nat) : State :=
  let items := (s.part p).inboxOf l c
  let s := s.mapPart p fun t => t.setInbox l c []
  (((s.each items fun s i => s.applyItem p l c i).settleInbox p l c).chainFreed ((s.part p).globalCl l)).wakeInboxWaiters p

/-- A cluster switches: save, load, inbox, and dispatching resumes (22 R415). -/
def State.switchCluster (s : State) (p l : Nat) (out inc : Option Nat) : State :=
  let s := match out with
    | some c => s.saveContext p l c
    | none => s
  let s := s.mapPart p fun t => { t with switching := t.switching.filter fun x => x != l }
  let s := match inc with
    | some c => (s.loadContext p l c).applyInbox p l c
    | none => s
  s.restop p ((s.part p).globalCl l)

/-! ### The sweep (22 R415) and the shedding order (23 R426) -/

/-- A terminator sweep begins, with an incoming context or none. -/
def State.beginSweep (s : State) (p : Nat) (inc : Option Nat) : State :=
  (s.mapPart p fun t => { t with sweep := some inc, swept := 0, switching := [] }).raise .token p 0 0

/-- An eviction or a return sweep is in progress. -/
def State.shedSweep (s : State) : Bool := s.parts.any fun e => e.2.sweep.isSome && e.2.evictedAt.isSome

/-- A partition that is to be evicted, or to return, begins its sweep when no other is in progress. -/
def State.settleShed (s : State) (p : Nat) : State :=
  let t := s.part p
  if t.sweep.isSome ∨ t.stopReq ∨ t.stopped ∨ !t.enabled then s
  else match t.evictedAt with
    | none => if t.shed = 3 ∧ !t.vacant then
        (s.mapPart p fun x => { x with evictedAt := some t.resident }).beginSweep p none
      else s
    | some c => if t.shed < 3 then s.beginSweep p (some c) else s

/-- The state that a shedding entry names for a package cap, with its share; `none` for an entry that names nothing. -/
def shedOf (w : Word) (cap : Nat) : Option (Nat × Nat × Nat) :=
  let evict := bits w 0 12
  let pause := bits w 12 12
  let slow := bits w 24 12
  if !bit w 63 ∨ pause ≤ evict ∨ slow ≤ pause then none
  else
    let depth := if cap < evict then 3 else if cap < pause then 2 else if cap < slow then 1 else 0
    if depth = 0 then none else some (bits w 56 6, depth, bits w 36 8)

/-- The deepest state that the entries name for a partition; of entries that name one depth the first gives the share (log 18). -/
def deepestShed (p : Nat) (l : List (Nat × Nat × Nat)) : Nat × Nat :=
  l.foldl (fun b e => if e.1 = p ∧ b.1 < e.2.1 then (e.2.1, e.2.2) else b) (0, 256)

/-- Every entry of the shedding order evaluated for the cap, in ascending order (23 R426). -/
def State.evaluateCap (s : State) : State :=
  let named := (upFrom 0 64).filterMap fun k => shedOf (s.pf.shedding.getD k 0) s.pf.pcap
  s.each (s.parts.filter fun e => e.2.enabled) fun s e =>
    let p := e.1
    let d := deepestShed p named
    let s := s.mapPart p fun t => { t with shed := d.1, share := d.2 }
    let t := s.part p
    let s := s.each t.clusterList fun s cl => (s.setLimits p cl).restop p cl
    let s := s.each t.dies fun s x => s.raise .belay x 0 0
    s.settleShed p

/-- A cap takes effect: at once, or after an eviction or return sweep that is in progress; only the last such write counts. -/
def State.setCap (s : State) (cap : Nat) : State :=
  let s := { s with
    pf := { s.pf with pcap := cap }
    -- S moves with the cap, and a stretch above it begins or ends (23 R425)
    dies := s.dies.map fun (e : Nat × Die) => (e.1, e.2.noteCurrent cap s.tick) }
  let s := s.each (upFrom 0 4) fun s d => if (s.die d).belayQ.isEmpty then s else s.raise .belay d 0 0
  if s.shedSweep then { s with pf := { s.pf with pcapLate := some cap } } else s.evaluateCap

/-- A cap that waited for the sweep's end is evaluated. -/
def State.lateCap (s : State) : State :=
  match s.pf.pcapLate with
  | some _ => if s.shedSweep then s else ({ s with pf := { s.pf with pcapLate := none } }).evaluateCap
  | none => s

/-- Events of a kind for the queues of a context that a test names. -/
def State.queueEvents (s : State) (kind p c : Nat) (test : Queue → Bool) : State :=
  s.each ((s.part p).queues.filter fun e => e.2.enabled && e.2.ctx == c && test e.2) fun s e => s.pushEvent (s.queueEvent kind p e.1)

/-- The token has left the last cluster: the contexts' queues switch out and in (22 R415, 21 R387). -/
def State.tokenLeaves (s : State) (p : Nat) (inc : Option Nat) : State :=
  let t := s.part p
  let s := s.mapPart p fun x => { x with swept := t.clusters + 1 }
  let s := if t.vacant then s else s.queueEvents 3 p t.resident fun x => x.state != 3
  match inc with
  | some c => s.queueEvents 4 p c fun _ => true
  | none => s

/-- Every cluster has resumed: the sweep is over, and what it held up goes on. -/
def State.endSweep (s : State) (p : Nat) (inc : Option Nat) : State :=
  let s := s.mapPart p fun t =>
    { t with
      sweep := none
      resident := inc.getD t.resident
      vacant := inc.isNone
      switched := inc.isSome
      evictedAt := if inc.isSome then none else t.evictedAt }
  let s := match inc with
    | some c => s.each (s.part p).dies fun s d => s.raise .report d p c
    | none => s
  let s := (s.lateCap).settleShed p
  if (s.part p).stopReq ∧ (s.part p).sweep.isNone then
    (if (s.part p).vacant then s.raise .token p (s.part p).clusters 0 else s.beginSweep p none)
  else s

/-! ### The dirty-page report and the stop (22 R421) -/

/-- Bytes of a report per logical column. -/
def reportColumn : Nat := 40 * 1024

/-- The dirty-page report written to `DIRTYLOG`: a bit for each 64 KiB of each column. -/
def State.dirtyReport (s : State) (p : Nat) : State :=
  let t := s.part p
  let base := t.dirtylog.toNat
  let cols := t.last + 1 - t.first
  let m := Memory.clear s.hostMem base (reportColumn * cols)
  let m := t.dirty.foldl (fun (m : Memory) g =>
    let at_ := base + g / 2 ^ 19 * reportColumn + g % 2 ^ 19 / 8
    if g / 2 ^ 19 < cols ∧ g % 2 ^ 19 < 8 * reportColumn then
      Memory.write m at_ (Memory.read m at_ ||| BitVec.ofNat 8 (2 ^ (g % 8)))
    else m) m
  { s with hostMem := m }.mapPart p fun x => { x with dirty := [] }

/-- A stop goes on once no context is resident and every engine request of the partition has ended, but for streams, which are saved
with their contexts (14 R335): its writes are globally visible,
the final report stands, and the partition is stopped. -/
def State.stopStep (s : State) (p : Nat) : State :=
  let live (q : Req) : Bool := q.part == p && !(decide (q.kind = .strm) && q.stage == 0 && (s.streamFabric q.cl q.id).isNone)
  if s.reqs.any live then s
  else
    let s := s.each (upFrom 0 4) fun s d => (s.performInvalidations d fun _ => true).performHostInv d fun _ => true
    (s.dirtyReport p).mapPart p fun t =>
      { t with stopped := true, running := false, switched := false, stopReq := false, evictedAt := none }

/-- `TERMINATOR_TOKEN_ARRIVE`: the token reaches a logical cluster, which stops dispatching and passes it on; a cluster that the
token has reached begins its save once it may, and then switches; past the last cluster the queues switch, the sweep ends, and a stop goes on. -/
def execTerminatorTokenArrive (p l : Nat) (s : State) : Out :=
  let t := s.part p
  match t.sweep with
  | none => .next (if t.stopReq ∧ t.vacant then s.stopStep p else s)
  | some inc =>
    if l < t.clusters then
      if l = t.swept then
        let s := s.mapPart p fun x => { x with swept := l + 1, switching := x.switching ++ [l] }
        let s := s.mapCluster (t.globalCl l) fun c => { c with stopped := true }
        .next ((s.raise .token p (l + 1) 0).raise .token p l 0)
      else if t.switching.contains l then
        let out := if t.vacant then none else some t.resident
        if !(out.map fun c => s.canSwitch p l c).getD true then .next (s.cancelAges p (t.globalCl l))
        else if (out.map fun c => t.saving l c).getD true then
          let s := s.switchCluster p l out inc
          .next (if (s.part p).switching.isEmpty then s.raise .token p t.clusters 0 else s)
        else .next ((s.beginSave p l t.resident).raise .token p l 0)
      else .next s
    else
      let s := if t.swept = t.clusters then s.tokenLeaves p inc else s
      .next (if (s.part p).swept = t.clusters + 1 ∧ (s.part p).switching.isEmpty then s.endSweep p inc else s)

/-! ### Context commands (22 R415, R419, R421) -/

/-- The contexts of a partition. -/
def Part.contexts (t : Part) : Nat := bits t.pdesc 59 3 + 1

/-- `CTXCMD_SLICE_END`: a slice ends, and the token starts at logical cluster 0. Ignored during a sweep; a partition that is
disabled, evicted or being stopped, and a context that it does not have, start none (log 16). -/
def execCtxcmdSliceEnd (p : Nat) (v : Word) (s : State) : Out :=
  let t := s.part p
  let c := bits v 8 3
  if !t.enabled ∨ t.sweep.isSome ∨ t.stopReq ∨ t.resetting ∨ t.evictedAt.isSome ∨ t.contexts ≤ c then .next s
  else .next ((s.mapPart p fun x => { x with stopped := false, running := true }).beginSweep p (some c))

/-- `CTXCMD_STOP`. -/
def execCtxcmdStop (p : Nat) (v : Word) (s : State) : Out :=
  let _ := v
  let t := s.part p
  if !t.enabled ∨ t.stopped ∨ t.resetting then .next s
  else
    let s := s.mapPart p fun x => { x with stopReq := true }
    .next (if t.sweep.isSome then s else if t.vacant then s.raise .token p t.clusters 0 else s.beginSweep p none)

/-- `CTXCMD_FABRIC_DRAIN`: the drain image is loaded, but for a stream of a context that is not resident; a stream that it cuts
off ends with a kind that the spec does not state (22 R419, 11 R294; log 2). -/
def execCtxcmdFabricDrain (p : Nat) (v : Word) (s : State) : Out :=
  let t := s.part p
  let l := bits v 16 9
  let f := bits v 26 2
  if t.clusters ≤ l then .next s
  else
    let cl := t.globalCl l
    let g := s.fabric cl f
    let q := g.stream.bind fun x => s.req? x.req
    let foreign := (q.map fun q => decide (t.residentAt l ≠ some q.ctx)).getD false
    if foreign ∨ g.draining ∨ (g.image.isNone ∧ g.loading.isNone) then .next s
    else
      let s := if g.loading.isSome then (s.dropFetch cl f).wakeImage cl else s
      let s := match q with
        | some q =>
          if q.endKind.isSome then s
          else
            let r := s.freeW
            (r.2.mapReq q.id fun x => { x with endKind := some (bits r.1 0 8) }).forgetStream q.id
        | none => s
      .next (((s.mapFabric cl f fun g => { g with packets := [] }).drainStream cl f).raise .fabRelease cl f 0)

/-- `CTXCMD_DIRTY_REPORT` (22 R421). -/
def execCtxcmdDirtyReport (p : Nat) (v : Word) (s : State) : Out :=
  let _ := v
  .next (s.dirtyReport p)

/-- `CTXCMD_IGNORED`: codes 0 and 5 to 15 (22 R421). -/
def execCtxcmdIgnored (p : Nat) (v : Word) (s : State) : Out :=
  let _ := v
  let _ := p
  .next s

/-- The ticks after which a fabric that holds tokens and fires nothing is reported (22 R419). DESIGN CHOICE (log 46). -/
def hangTicks : Nat := 2 ^ 20

/-- `FABRIC_HANG_REPORT`; the next report of the fabric is another such time away. -/
def execFabricHangReport (cl f : Nat) (s : State) : Out :=
  let g := s.fabric cl f
  if g.occupancy = 0 ∨ s.tick < g.firedAt + hangTicks then .next s
  else .next ((s.mapFabric cl f fun g => { g with firedAt := s.tick }).reportError .hang (cl * 4 + f) 0 1)

/-! ### Function-level reset (22 R420) -/

/-- The tasks of a partition on a cluster and everything that they hold there end; its fabrics drain. -/
def State.resetCluster (s : State) (p cl : Nat) : State :=
  let s := s.each (upFrom 0 4) fun s f => if (s.fabric cl f).loading.isSome then s.dropFetch cl f else s
  let s := s.mapCluster cl fun c =>
    { c with
      readyQ := c.readyQ.filter fun e => e.part != p
      store := [], tiles := [], sets := [], allocs := [], ssb := [], cairn := [], wps := [], paused := []
      stopped := false
      inbox := c.inbox.filter fun m => m.part != p
      chain := c.chain.filter fun m => m.part != p
      fabrics := c.fabrics.map fun (e : Nat × Fabric) =>
        (e.1, if e.2.image.isSome then { e.2 with draining := true, packets := [] } else e.2) }
  s.each (upFrom 0 4) fun s f => s.raise .fabRelease cl f 0

/-- Every save area of a partition gets `VALID` = 3. -/
def State.voidSaves (s : State) (p : Nat) : State :=
  let t := s.part p
  s.each (upFrom 0 t.clusters) fun s l => s.each (upFrom 0 t.contexts) fun s c => s.writeValid p l c 3

/-- A queue that a function-level reset disables: an update under way is lost, and both copies read even (21 R386; 22 R420). -/
def Queue.disabled (x : Queue) : Queue :=
  let x := x.recover
  let off (c : QcbFields) (seqw : Word) : QcbFields := { c with seqw := seqw + 2, ctrl := setBits c.ctrl 63 1 0 }
  { x with writing := [], qcb := off x.qcb x.qcb.seqw, shadow := off x.qcb x.shadow.seqw }

/-- `FUNCTION_LEVEL_RESET`: it wins over a save in progress; every task ends without a record, every area is invalid, the fabrics
drain and the queues are disabled; frames and stage-2 maps stay. The requests of the partition end without record or action, and
its umbras are discarded (log 16). -/
def execFunctionLevelReset (p : Nat) (s : State) : Out :=
  let t := s.part p
  if !t.enabled then .next s
  else
    let mine := s.threads.filter fun th => (th.task.map fun k => k.part) == some p
    let s := s.each mine fun s th => s.setThread { Thread.idle th.id with fenced := th.fenced }
    let s := s.each t.clusterList fun s cl => (s.updateDirectories p cl (s.cluster cl).cairnRegions).resetCluster p cl
    let s := s.voidSaves p
    let s := { s with
      regs := s.regs.filter fun r => r.part != p
      biv := s.biv.filter fun b => b.part != p
      walks := s.walks.filter fun w => w.part != p
      faults := s.faults.filter fun f => f.part != p
      syscs := s.syscs.filter fun x => x.part != p
      reqs := s.reqs.map fun (q : Req) =>
        if q.part = p then { q with aborted := true, stage := 1, token := none, children := 0, exited := true } else q
      dies := s.dies.map fun (e : Nat × Die) => (e.1, { e.2 with
        shares := e.2.shares.filter fun h => h.part != p
        forwards := e.2.forwards.filter fun f => f.entry.part != p })
      events := s.events.filter fun e => !(e.ofQueue && e.part == p) }
    let s := s.each (s.reqs.filter fun q => q.part == p) fun s q => s.raise .engineDone q.id 0 0
    let s := s.each t.queues fun s e => s.endQueueEvent p e.1
    let s := s.mapPart p fun x =>
      { x with
        sweep := none, swept := 0, switching := [], stopReq := false, abandoned := true, resident := 0, vacant := false
        running := false, switched := false, resetting := true, pending := none, drain := [], ctxs := [], saves := [], inboxes := []
        bindings := [], umbras := [], poolUsed := x.poolUsed.filter fun c => x.select.any fun e => e.2 == c
        evictedAt := none
        queues := x.queues.map fun (e : Nat × Queue) => (e.1, e.2.disabled) }
    .next (s.lateCap.pushEvent { word := eventWord 5 none p p, part := p, q := 0, recovery := false })

/-- `VF_RESET_COMPLETE`: the VF is ready for use again (22 R420). -/
def execVfResetComplete (p : Nat) (s : State) : Out :=
  if !(s.part p).resetting then .next s
  else
    let s := s.mapPart p fun t => { t with resetting := false, running := true, switched := true }
    .next ((s.each (s.part p).clusterList fun s cl => s.restop p cl).settleShed p)

end Sys2Proof.Machine
end

