-- ==== Sys2Proof/Machine/Fleet.lean ====
section
/-! DEFINITION. The fleet operator's steps: the power cap, watch tasks, scrubbing and errors, boot and attestation, plain registers
and the links (21 R374; 23 R422 to R434; 00 R7). -/

namespace Sys2Proof.Machine

/-! ### Power (23 R423, R426) -/

/-- `PCAP_WRITE`: a cap outside 400 to 2000 W is ignored; another evaluates the shedding order. -/
def execPcapWrite (v : Word) (s : State) : Out :=
  let cap := bits v 0 12
  if 400 ≤ cap ∧ cap ≤ 2000 then .next (s.setCap cap) else .next s

/-! ### Counters and watch tasks (23 R427, R428) -/

/-- The units whose stalls the groups 0 to 5 of counter ids count (23 R428). -/
def stallUnits (group : Nat) : Nat :=
  match group with
  | 0 => 2048
  | 1 => 2048
  | 2 => 512
  | 3 => 512
  | 4 => 16
  | 5 => 12
  | _ => 0

/-- A counter by its id; stalls are free (log 3), power and temperature are those measured last, and a field out of range reads 0. -/
def State.telemetry (s : State) (id : Nat) : Word × State :=
  let group := id / 2 ^ 28 % 16
  let unit := id / 2 ^ 16 % 2 ^ 12
  let cause := id % 2 ^ 16
  if group ≤ 5 then (if unit < stallUnits group ∧ cause < 14 then s.freeW else (0, s))
  else if group = 6 then ((if unit < 512 ∧ cause = 0 then word (s.cluster unit).readyQ.length else 0), s)
  else if group = 7 then ((if unit = 0 ∧ cause = 0 then s.pf.ppwr else 0), s)
  else if group = 8 then ((if unit < 4 ∧ cause = 0 then word (bits s.pf.temp (16 * unit) 16) else 0), s)
  else (0, s)

/-- The power controller measures the package power and the temperatures of the dies: free values (23 R423; log 3). -/
def State.measurePower (s : State) : State :=
  let a := s.freeW
  let b := a.2.freeW
  { b.2 with pf := { b.2.pf with ppwr := word (bits a.1 0 12), temp := b.1 } }

/-- `armed`. -/
def Watch.armed (w : Watch) : Bool := bit w.wctl 63

/-- A sample crosses the threshold in the direction that the entry watches. -/
def Watch.crosses (w : Watch) (v : Nat) : Bool :=
  match w.last with
  | none => false
  | some b =>
    let t := w.wthr.toNat
    if bit w.wctl 60 then decide (t ≤ v) && decide (b < t) else decide (v < t) && decide (t ≤ b)

/-- An entry after it has fired. -/
def Watch.fired (w : Watch) (underflow : Bool) : Watch :=
  let c := setBits (setBits w.wctl 63 1 0) 62 1 1
  { w with wctl := if underflow then setBits c 61 1 1 else c }

/-- One armed entry is sampled: where the sample crosses, the header's counter is decremented at its home, an underflow changing
nothing but the entry. DESIGN CHOICE (log 46). -/
def State.sampleWatch (s : State) (n : Nat) (w : Watch) : State :=
  let r := s.telemetry (bits w.wctl 0 32)
  let put (s : State) (x : Watch) : State := { s with pf := { s.pf with watches := s.pf.watches.put n x } }
  let w' := { w with last := some r.1.toNat }
  if w.crosses r.1.toNat then
    let d := r.2.decrement (bits w.wctl 40 6) w.whdr.toNat
    put d.2 (w'.fired d.1)
  else put r.2 w'

/-- `WATCH_SAMPLE`: power and temperature are measured, and every armed entry is sampled (23 R423, R427). -/
def execWatchSample (s : State) : Out :=
  .next (s.measurePower.each (s.pf.watches.filter fun e => e.2.armed) fun s e => s.sampleWatch e.1 e.2)

/-! ### Fault coverage (23 R429 to R431) -/

/-- The doublewords of the line of a physical address. -/
def lineDwords (pa : Nat) : List Nat := upFrom (pa / 64 * 8) 8

/-- A detection: a corrected word counts on its die, an uncorrectable one takes the effect that its place gives it, and either is
recorded (23 R430, R431). DESIGN CHOICE (log 55). -/
def State.detect (s : State) (found : ScrubFinding) (die unit addr : Nat) (poison : State → State) : State :=
  match found with
  | .clean => s
  | .corrected => (s.mapDie die fun d => { d with corrected := (d.corrected + 1) % 2 ^ 64 }).reportError .corrected unit addr 1
  | .uncorrectable => (poison s).reportError .poisoned unit addr 1

/-- The n-th element of a list changed. -/
def mapNth {α : Type} (f : α → α) : Nat → List α → List α
  | _, [] => []
  | 0, a :: as => f a :: as
  | n + 1, a :: as => a :: mapNth f n as

/-- A copy of a line with one doubleword poisoned. -/
def Line.poisonAt (c : Line) (dword : Nat) : Line := { c with poison := splice c.poison (dword % 8) [true] }

/-- A copy of a host line with one doubleword poisoned. -/
def HostLine.poisonAt (c : HostLine) (dword : Nat) : HostLine := { c with poison := splice c.poison (dword % 8) [true] }

/-- A fault that is detected before a thread's instruction retires: the instruction traps poisoned data, with an address that the spec
does not state, and in an ordered task that does not hold the summit the task is aborted instead (23 R430; log 2).
DESIGN CHOICE (log 55). -/
def State.instructionFault (s : State) (t : Tid) : State :=
  s.asThread t fun s =>
    if s.cur.wait ≠ .ready then s
    else
      let a := s.freeW
      let b := a.2.freeW
      b.2.poisonedTile { kind := 0x10, taddr := a.1, tinfo := b.1 }

/-- What an uncorrectable word does at its place: it is marked poisoned; a task loses its buffered stores with them and is aborted, an
image leaves the config cache, and an instruction traps. DESIGN CHOICE (log 55). -/
def State.poisonWord (s : State) (w : ScrubWord) : State :=
  match w with
  | .memory pa => { s with poison := (lineDwords pa).foldl addMark s.poison }
  | .scratch cl off => s.setPoison (.scratch cl off) true
  | .tile cl n => s.mapCluster cl fun c => { c with tiles := mapNth (fun (t : Tile) => { t with shape := setBits t.shape 62 1 1 }) n c.tiles }
  | .l1 cl n d => s.mapCluster cl fun c => { c with l1 := mapNth (fun l => l.poisonAt d) n c.l1 }
  | .rdc die n d => s.mapDie die fun k =>
    if n < k.rdc.length then { k with rdc := mapNth (fun l => l.poisonAt d) n k.rdc }
    else { k with hostLines := mapNth (fun l => l.poisonAt d) (n - k.rdc.length) k.hostLines }
  | .ssb cl n =>
    (match ((s.cluster cl).ssb[n]?).bind fun x => s.allTasks.find? fun k => k.uid == x.owner with
    | some k => s.abortTask k none
    | none => s)
  | .config cl n => s.mapCluster cl fun c => { c with cfgCache := Tbl.drop c.cfgCache n }
  | .thread t => s.instructionFault t

/-- The die, the unit and the address that a detection at a word reports. DESIGN CHOICE (log 46). -/
def scrubPlace (w : ScrubWord) : Nat × Nat × Nat :=
  match w with
  | .memory pa => (dieOfColumn (pa / 2 ^ 35), dieOfColumn (pa / 2 ^ 35), pa)
  | .scratch cl off => (dieOfCluster cl, cl, off)
  | .tile cl n => (dieOfCluster cl, cl, n)
  | .l1 cl n _ => (dieOfCluster cl, cl, n)
  | .rdc die n _ => (die, die, n)
  | .ssb cl n => (dieOfCluster cl, cl, n)
  | .config cl n => (dieOfCluster cl, cl, n)
  | .thread t => (tidDie t, t.unit, t.slot)

/-- `PATROL_SCRUB`: a word is read, by the patrol or by an instruction; a corrected one is written back as it is and counted, an
uncorrectable one is marked poisoned in place, and either detection is recorded. No memory answers an unpopulated address.
DESIGN CHOICE (log 55). -/
def execPatrolScrub (w : ScrubWord) (found : ScrubFinding) (s : State) : Out :=
  let absent : Bool := match w with
    | .memory pa => !populated pa
    | _ => false
  if absent then .next s
  else
    let a := scrubPlace w
    .next (s.detect found a.1 a.2.1 a.2.2 fun s => s.poisonWord w)

/-- The tasks that a cluster holds: running, parked, or saved and ready again. DESIGN CHOICE (log 46). -/
def State.tasksOf (s : State) (cl : Nat) : List Task :=
  let c := s.cluster cl
  ((s.running cl).filterMap fun th => th.task) ++ (c.store.filterMap fun k => k.thread.task) ++
    c.readyQ.filterMap fun q => match q.job with
      | .saved th _ => th.task
      | .fresh _ _ _ => none

/-- `DATAPATH_ERROR_LATE`: every task of the cluster ends as under 10 R258, with trap values that the spec does not state, and an
error report is written (23 R430; log 2). DESIGN CHOICE (log 46). -/
def execDatapathErrorLate (cl : Nat) (s : State) : Out :=
  let s := s.each (s.tasksOf cl) fun s k =>
    let a := s.freeW
    let b := a.2.freeW
    b.2.endTask k (dieOfCluster cl) { kind := bits a.1 0 8, taddr := b.1, tinfo := 0 }
  .next (s.reportError .datapath cl 0 1)

/-! ### Boot and attestation (23 R432) -/

/-- The digests of the later stages, in measurement registers 1 to 7: free values, since the images are no part of the spec
(log 2). -/
def State.measureStages (s : State) (firmware : BitVec 256) : State :=
  let r := (upFrom 0 7).foldl (fun (x : State × List (BitVec 256)) _ =>
    let a := x.1.freeW
    let b := a.2.freeW
    let c := b.2.freeW
    let d := c.2.freeW
    (d.2, x.2 ++ [a.1 ++ b.1 ++ c.1 ++ d.1])) (s, [])
  { r.1 with pf := { r.1.pf with measure := firmware :: r.2 } }

/-- The boot ROM's check of a firmware image: a good one is measured in register 0, the later stages in registers 1 to 7, and the
command cores are released; after a bad one only the recovery function answers. -/
def State.bootImage (s : State) (image : BootImage) : State :=
  if image.verifies then ({ s with boot := .running }.measureStages image.digest).offerEvents
  else { s with boot := .recovery }

/-- A step of the host or the outside world that a device answers: after a failed check it answers only as a recovery function, and a
reset, its links and the checks of its memories go on (23 R432). DEDUCED (log 47). -/
def State.answers (s : State) (i : Instr) : Bool :=
  decide (s.boot ≠ .recovery) || (match i with
    | .deviceResetBoot _ => true
    | .recoveryImageWrite _ => true
    | .cxlLinkTraining _ _ => true
    | .flitCrcReplay _ => true
    | .patrolScrub _ _ => true
    | _ => false)

/-- `DEVICE_RESET_BOOT`: the device is reset and boots. What lies outside it stays: host memory, and what it has sent.
DEDUCED (log 47). -/
def execDeviceResetBoot (image : BootImage) (s : State) : Out :=
  .next (({ State.reset with
    fresh := s.fresh, uidNext := s.uidNext, tokenNext := s.tokenNext, hostMem := s.hostMem, irqs := s.irqs, sent := s.sent }).bootImage
      image)

/-- `RECOVERY_IMAGE_WRITE`: after a failed check a new image is written, and is checked in its turn. -/
def execRecoveryImageWrite (image : BootImage) (s : State) : Out :=
  if s.boot = .recovery then .next (s.bootImage image) else .next s

/-- `SPDM_REQUEST`: a device that has booted answers with its measurements and a signature, which is free (log 2). -/
def execSpdmRequest (nonce : Word) (s : State) : Out :=
  if s.boot = .running then
    let r := s.freeW
    .next { r.2 with sent := r.2.sent ++ [.spdm nonce r.2.pf.measure r.1] }
  else .next s

/-! ### Links (21 R374; 23 R429) -/

/-- `CXL_LINK_TRAINING`: the width and rate to which the link has trained; bandwidth follows, which is timing (log 3). -/
def execCxlLinkTraining (width : LinkWidth) (rate : LinkRate) (s : State) : Out := .next { s with link := some (width, rate) }

/-- `FLIT_CRC_REPLAY`: the flit is sent again, and nothing else changes. -/
def execFlitCrcReplay (link : FlitLink) (s : State) : Out :=
  let _ := link
  .next s

/-! ### Registers without behaviour of their own (00 R7; 22 R396, R405; 23 R423 to R431) -/

/-- A partition block's register at an offset, written. An address register keeps the bits above its alignment (log 18). -/
def Part.writeRegister (t : Part) (off : Nat) (v : Word) : Part :=
  if off % 8 ≠ 0 then t
  else if 0x10 ≤ off ∧ off ≤ 0x48 then { t with pretok := splice t.pretok (off / 8 - 2) [v] }
  else match off with
    | 0x50 => { t with ctxdesc := setBits v 0 9 0 }
    | 0x58 => { t with savebase := setBits v 0 22 0 }
    | 0x60 => { t with fscb := setBits v 0 6 0, fsSeq := 0 }
    | 0x68 => { t with sdva := setBits v 0 16 0 }
    | 0x90 => { t with s2tok := v }
    | 0xB0 => { t with dirtylog := setBits v 0 12 0 }
    | _ => t

/-- The fields of a shedding-order entry (23 R426). -/
def shedMask : Word := 0xBF000FFFFFFFFFFF

/-- The fields of `WCTL` (23 R427). -/
def wctlMask : Word := 0xF0003F00FFFFFFFF

/-- A register of the PF outside the partition blocks, written. -/
def Pf.writeRegister (f : Pf) (off : Nat) (v : Word) : Pf :=
  let empty : Watch := { wctl := 0, wthr := 0, whdr := 0, last := none }
  let watch (n : Nat) (g : Watch → Watch) : Pf := { f with watches := f.watches.put n (g (f.watches.getD n empty)) }
  if 0x9100 ≤ off ∧ off < 0x9300 then { f with shedding := f.shedding.put ((off - 0x9100) / 8) (v &&& shedMask) }
  else if 0xA000 ≤ off ∧ off < 0xC000 then
    let n := (off - 0xA000) / 32
    match off % 32 with
    | 0x00 => watch n fun w => { w with wctl := v &&& wctlMask, last := none }
    | 0x08 => watch n fun w => { w with wthr := v }
    | 0x10 => watch n fun w => { w with whdr := setBits v 0 6 0 }
    | _ => f
  else match off with
    | 0x8000 => { f with s2base := v }
    | 0x8008 => { f with s2size := v }
    | 0x8018 => { f with s2cons := v.toNat }
    | 0x8100 => { f with errBase := v }
    | 0x8108 => { f with errSize := v }
    | 0x8118 => { f with errCons := v.toNat }
    | 0x9800 => { f with telidx := v }
    | _ => f

/-- `REGISTER_WRITE`: the register at an offset takes its value; a read-only, unlisted or misplaced one ignores the write, and so
does, in this step, one whose write has a step of its own. -/
def execRegisterWrite (sp : RegSpace) (off : Nat) (v : Word) (s : State) : Out :=
  match sp with
  | .vf _ => .next s
  | .pf =>
    if off % 8 ≠ 0 then .next s
    else if 0x10000 ≤ off ∧ off < 0x14000 then
      .next (s.mapPart ((off - 0x10000) / 256) fun t => t.writeRegister (off % 256) v)
    else .next { s with pf := s.pf.writeRegister off v }

/-! ### Register reads -/

/-- `PSTAT` of a partition (22 R396). -/
def Part.pstat (t : Part) : Word :=
  word ((if t.stopped then 2 ^ 63 else 0) + (if t.sweep.isSome then 2 ^ 62 else 0) + (if t.abandoned then 2 ^ 61 else 0) +
    t.resident % 8 * 2 ^ 8)

/-- A partition block's register at an offset, read; write-only and unlisted ones read 0 (00 R7; 22 R396). -/
def Part.readRegister (t : Part) (off : Nat) : Word :=
  let c := t.ctxs.getD t.resident CtxState.reset
  if off % 8 ≠ 0 then 0
  else if 0x10 ≤ off ∧ off ≤ 0x48 then (t.pretok[off / 8 - 2]?).getD 0
  else match off with
    | 0x00 => t.pdesc
    | 0x08 => t.pshare
    | 0x50 => t.ctxdesc
    | 0x58 => t.savebase
    | 0x60 => t.fscb
    | 0x68 => t.sdva
    | 0x78 => word (t.sdIssued * 2 ^ 32 + t.sdDone)
    | 0x88 => word ((if t.s2busy then 2 ^ 63 else 0) + t.s2res % 256)
    | 0x90 => t.s2tok
    | 0xA8 => t.pstat
    | 0xB0 => t.dirtylog
    | 0xB8 => word c.cseq
    | 0xC0 => word c.tiecnt
    | 0xC8 => t.umbpool
    | _ => 0

/-- A register of a VF at an offset, read (21 R376). -/
def State.readVf (s : State) (p off : Nat) : Word :=
  let t := s.part p
  if off = 0 then word ((if t.running then 1 else 0) + if t.switched then 2 else 0)
  else if off = 8 then word t.svcHead
  else if 0x1000 ≤ off ∧ off < 0x1100 ∧ off % 16 = 8 then word (s.queue p ((off - 0x1000) / 16)).progress
  else 0

/-- A field of a queue control block by its offset (21 R385). -/
def QcbFields.at_ (c : QcbFields) (off : Nat) : Word :=
  match off with
  | 0x00 => c.seqw
  | 0x08 => c.base
  | 0x10 => c.ctrl
  | 0x18 => c.head
  | 0x20 => c.nseq
  | 0x28 => c.state
  | 0x30 => c.lasterr
  | 0x38 => c.tshad
  | _ => 0

/-- The queue control blocks of the PF's control area as the PF BAR shows them: queue q of VF p at 128 × (16p + q), its shadow in the
next 64 bytes (21 R385). DESIGN CHOICE (log 54). -/
def State.readQcb (s : State) (off : Nat) : Word :=
  let x := s.queue (off / 2048) (off / 128 % 16)
  (if off % 128 < 64 then x.qcb else x.shadow).at_ (off % 64)

/-- A register of the PF BAR, the partition blocks among them, read, with the state after the free values that it uses
(22 R396, R405; 23 R423 to R432). DESIGN CHOICE (log 54). -/
def State.readPf (s : State) (off : Nat) : Word × State :=
  let f := s.pf
  if off % 8 ≠ 0 then (0, s)
  else if 0x10000 ≤ off ∧ off < 0x14000 then ((s.part ((off - 0x10000) / 256)).readRegister (off % 256), s)
  else if 0x9100 ≤ off ∧ off < 0x9300 then (f.shedding.getD ((off - 0x9100) / 8) 0, s)
  else if 0xA000 ≤ off ∧ off < 0xC000 then
    match f.watches.get? ((off - 0xA000) / 32) with
    | none => (0, s)
    | some w => (match off % 32 with
      | 0x00 => w.wctl
      | 0x08 => w.wthr
      | 0x10 => w.whdr
      | _ => 0, s)
  else if 0xC000 ≤ off ∧ off < 0xC100 then
    let m := ((f.measure[(off - 0xC000) / 32]?).getD 0).toNat
    (word (m / 2 ^ (64 * (off % 32 / 8)) % 2 ^ 64), s)
  else match off with
    | 0x8000 => (f.s2base, s)
    | 0x8008 => (f.s2size, s)
    | 0x8010 => (word f.s2prod, s)
    | 0x8018 => (word f.s2cons, s)
    | 0x8100 => (f.errBase, s)
    | 0x8108 => (f.errSize, s)
    | 0x8110 => (word f.errProd, s)
    | 0x8118 => (word f.errCons, s)
    | 0x9000 => (word f.pcap, s)
    | 0x9008 => (f.ppwr, s)
    | 0x9010 => (f.temp, s)
    | 0x9800 => (f.telidx, s)
    | 0x9808 => s.telemetry (bits f.telidx 0 32)
    | _ => (if Config.qcbWindow ≤ off ∧ off < Config.qcbWindow + 64 * 2048 then s.readQcb (off - Config.qcbWindow) else 0, s)

end Sys2Proof.Machine
end

