-- ==== Sys2Proof/Machine/Fp.lean ====
section
/-! DEFINITION. The `FP` and `FCVT` majors (06 R137 to R146). -/

namespace Sys2Proof.Machine

/-- An operand of a format (02 R45). -/
def fval (f : FpFmt) (w : Word) : FVal := (specOf f).decode w.toNat

/-- A floating-point result written, with the bits above its format clear, and its flags raised (02 R45, 06 R138). -/
def State.resultFp (s : State) (d : Reg) (r : FRes) : Out := s.resultF d (word r.bits) r.flags

/-- `FADD` (06 R139). -/
def execFadd (d a b : Reg) (f : FpFmt) (m : RoundMode) (s : State) : Out :=
  s.resultFp d ((specOf f).add m (fval f (s.g a)) (fval f (s.g b)))

/-- `FSUB`: A + (−B) (06 R139). -/
def execFsub (d a b : Reg) (f : FpFmt) (m : RoundMode) (s : State) : Out :=
  s.resultFp d ((specOf f).add m (fval f (s.g a)) (fval f (s.g b)).neg)

/-- `FMUL` (06 R139). -/
def execFmul (d a b : Reg) (f : FpFmt) (m : RoundMode) (s : State) : Out :=
  s.resultFp d ((specOf f).mul m (fval f (s.g a)) (fval f (s.g b)))

/-- `FDIV` (06 R139). -/
def execFdiv (d a b : Reg) (f : FpFmt) (m : RoundMode) (s : State) : Out :=
  s.resultFp d ((specOf f).div m (fval f (s.g a)) (fval f (s.g b)))

/-- `FSQRT` (06 R139). -/
def execFsqrt (d a : Reg) (f : FpFmt) (m : RoundMode) (s : State) : Out :=
  s.resultFp d ((specOf f).sqrt m (fval f (s.g a)))

/-- `FMAD` (06 R140). -/
def execFmad (d a b : Reg) (f : FpFmt) (m : RoundMode) (s : State) : Out :=
  s.resultFp d ((specOf f).fma m false (fval f (s.g a)) (fval f (s.g b)) (fval f (s.g d)))

/-- `FNMAD` (06 R140). -/
def execFnmad (d a b : Reg) (f : FpFmt) (m : RoundMode) (s : State) : Out :=
  s.resultFp d ((specOf f).fma m true (fval f (s.g a)) (fval f (s.g b)) (fval f (s.g d)))

/-- `FMIN` (06 R139, 02 R50). -/
def execFmin (d a b : Reg) (f : FpFmt) (s : State) : Out :=
  s.resultFp d ((specOf f).minmax false (fval f (s.g a)) (fval f (s.g b)))

/-- `FMAX` (06 R139, 02 R50). -/
def execFmax (d a b : Reg) (f : FpFmt) (s : State) : Out :=
  s.resultFp d ((specOf f).minmax true (fval f (s.g a)) (fval f (s.g b)))

/-- The bits of A with a sign, or the canonical NaN for a NaN in A; no flag (06 R141). -/
def FloatSpec.withSign (f : FloatSpec) (a : Nat) (neg : Bool) : FRes :=
  if (f.decode a).isNan then ⟨f.nan, .none⟩ else ⟨f.zero neg + a % 2 ^ (f.width - 1), .none⟩

/-- The sign bit of an operand of a format. -/
def fsign (f : FpFmt) (w : Word) : Bool := bit w ((specOf f).width - 1)

/-- `FNEG` (06 R141). -/
def execFneg (d a : Reg) (f : FpFmt) (s : State) : Out :=
  s.resultFp d ((specOf f).withSign (s.g a).toNat (!fsign f (s.g a)))

/-- `FABS` (06 R141). -/
def execFabs (d a : Reg) (f : FpFmt) (s : State) : Out := s.resultFp d ((specOf f).withSign (s.g a).toNat false)

/-- `FCPYS` (06 R141). -/
def execFcpys (d a b : Reg) (f : FpFmt) (s : State) : Out :=
  s.resultFp d ((specOf f).withSign (s.g a).toNat (fsign f (s.g b)))

/-- `FEQ` (06 R139, 02 R51). -/
def execFeq (d a b : Reg) (f : FpFmt) (s : State) : Out :=
  s.resultFp d (fcompare true (fun c => decide (c = 0)) (fval f (s.g a)) (fval f (s.g b)))

/-- `FLT` (06 R139, 02 R51). -/
def execFlt (d a b : Reg) (f : FpFmt) (s : State) : Out :=
  s.resultFp d (fcompare false (fun c => decide (c < 0)) (fval f (s.g a)) (fval f (s.g b)))

/-- `FLE` (06 R139, 02 R51). -/
def execFle (d a b : Reg) (f : FpFmt) (s : State) : Out :=
  s.resultFp d (fcompare false (fun c => decide (c ≤ 0)) (fval f (s.g a)) (fval f (s.g b)))

/-- `FCLASS` (06 R142). -/
def execFclass (d a : Reg) (f : FpFmt) (s : State) : Out :=
  s.result d (word ((specOf f).fclass (fval f (s.g a))))

/-- `FRND` (06 R143). -/
def execFrnd (d a : Reg) (f : FpFmt) (m : RoundMode) (s : State) : Out :=
  s.resultFp d ((specOf f).toIntegral m (fval f (s.g a)))

/-- `FCVT` from format `src` to format `t` (06 R144). -/
def execFcvt (d a : Reg) (t src : FpFmt) (m : RoundMode) (s : State) : Out :=
  s.resultFp d ((specOf t).roundVal m (fval src (s.g a)))

/-- `FTOI` (06 R144, 02 R52). -/
def execFtoi (d a : Reg) (src : FpFmt) (m : RoundMode) (s : State) : Out :=
  let r := toInteger m (-2 ^ 63) (2 ^ 63 - 1) (fval src (s.g a))
  s.resultF d (wordI r.1) r.2

/-- `FTON` (06 R144, 02 R52). -/
def execFton (d a : Reg) (src : FpFmt) (m : RoundMode) (s : State) : Out :=
  let r := toInteger m 0 (2 ^ 64 - 1) (fval src (s.g a))
  s.resultF d (wordI r.1) r.2

/-- `ITOF` (06 R144, 02 R52). -/
def execItof (d a : Reg) (t : FpFmt) (m : RoundMode) (s : State) : Out :=
  s.resultFp d ((specOf t).ofInteger m (s.g a).toInt)

/-- `NTOF` (06 R144, 02 R52). -/
def execNtof (d a : Reg) (t : FpFmt) (m : RoundMode) (s : State) : Out :=
  s.resultFp d ((specOf t).ofInteger m (s.g a).toNat)

/-- `B8TOF`: the binary8 byte A[7:0] by the fields of x7; `P` = 0 gives the canonical NaN and `NV` (06 R145, 02 R56). -/
def execB8tof (d a : Reg) (t : FpFmt) (s : State) : Out :=
  let o := b8Opts (s.x 7)
  s.resultFp d (if o.spec.p = 0 then (specOf t).invalid
    else (specOf t).roundVal .rne (o.spec.decode (bits (s.g a) 0 8)))

/-- `FTOB8`: the binary8 code by the options of x7; `P` = 0 gives the NaN code and `NV` (06 R146, 02 R56, R57). -/
def execFtob8 (d a : Reg) (src : FpFmt) (s : State) : Out :=
  let o := b8Opts (s.x 7)
  s.resultFp d (if o.spec.p = 0 then ⟨o.spec.nan, .invalid⟩ else o.spec.encode o.mode o.inf (fval src (s.g a)))

end Sys2Proof.Machine
end

