-- ==== Sys2Proof/Machine/Imm.lean ====
section
/-! DEFINITION. The immediate majors, `LI`, `LIX` and the `XOP` major (05 R118 to R120). -/

namespace Sys2Proof.Machine

/-- `ADDI` (05 R118). -/
def execAddi (d a : Reg) (imm : BitVec 14) (s : State) : Out := s.result d (s.g a + simm14 imm)

/-- `ADDWI` (05 R118). -/
def execAddwi (d a : Reg) (imm : BitVec 14) (s : State) : Out := s.result d (sx32 (s.g a + simm14 imm))

/-- `ANDI` (05 R118). -/
def execAndi (d a : Reg) (imm : BitVec 14) (s : State) : Out := s.result d (s.g a &&& simm14 imm)

/-- `ORI`: imm14 is zero-extended (05 R118, 03 R85). -/
def execOri (d a : Reg) (imm : BitVec 14) (s : State) : Out := s.result d (s.g a ||| imm.setWidth 64)

/-- `XORI`: imm14 is zero-extended (05 R118, 03 R85). -/
def execXori (d a : Reg) (imm : BitVec 14) (s : State) : Out := s.result d (s.g a ^^^ imm.setWidth 64)

/-- `SHLI` (05 R118). -/
def execShli (d a : Reg) (imm : BitVec 6) (s : State) : Out := s.result d (s.g a <<< imm.toNat)

/-- `SHRI` (05 R118). -/
def execShri (d a : Reg) (imm : BitVec 6) (s : State) : Out := s.result d (s.g a >>> imm.toNat)

/-- `SRAI` (05 R118). -/
def execSrai (d a : Reg) (imm : BitVec 6) (s : State) : Out := s.result d ((s.g a).sshiftRight imm.toNat)

/-- `SLTI` (05 R118). -/
def execSlti (d a : Reg) (imm : BitVec 14) (s : State) : Out := s.result d (wordB (decide ((s.g a).toInt < (simm14 imm).toInt)))

/-- `SLTNI`: imm14 sign-extended, then compared unsigned (05 R118). -/
def execSltni (d a : Reg) (imm : BitVec 14) (s : State) : Out := s.result d (wordB (decide ((s.g a).toNat < (simm14 imm).toNat)))

/-- `LI`: sext(imm19) (05 R119). -/
def execLi (d : Reg) (imm : BitVec 19) (s : State) : Out := s.result d (imm.signExtend 64)

/-- `LIX`: x[k] ← (x[k] << 21) | imm21 (05 R119). -/
def execLix (k : XReg) (imm : BitVec 21) (s : State) : Out :=
  .next ((s.setX k ((s.x k <<< 21) ||| imm.setWidth 64)).advance 4)

/-- `XMOV`: x[d] ← g[a] (05 R120). -/
def execXmov (d : XReg) (a : Reg) (s : State) : Out := .next ((s.setX d (s.g a)).advance 4)

/-- `MOVGX`: g[d] ← x[a] (05 R120). -/
def execMovgx (d : Reg) (a : XReg) (s : State) : Out := s.result d (s.x a)

/-- `XCLR`: x[d] ← 0 (05 R120). -/
def execXclr (d : XReg) (s : State) : Out := .next ((s.setX d 0).advance 4)

end Sys2Proof.Machine
end

