-- ==== Sys2Proof/Machine/Int.lean ====
section
/-! DEFINITION. The `INT` major (05 R116, R117). -/

namespace Sys2Proof.Machine

/-- `ADD`: A + B modulo 2^64 (05 R116). -/
def execAdd (d a b : Reg) (s : State) : Out := s.result d (s.g a + s.g b)

/-- `SUB`: A − B modulo 2^64 (05 R116). -/
def execSub (d a b : Reg) (s : State) : Out := s.result d (s.g a - s.g b)

/-- `MUL`: the low half of A × B (05 R116). -/
def execMul (d a b : Reg) (s : State) : Out := s.result d (s.g a * s.g b)

/-- `MULH`: the high half of the signed product (05 R116). -/
def execMulh (d a b : Reg) (s : State) : Out := s.result d (mulHigh (s.g a) (s.g b))

/-- `MULHN`: the high half of the unsigned product (05 R116). -/
def execMulhn (d a b : Reg) (s : State) : Out := s.result d (mulHighN (s.g a) (s.g b))

/-- `DIV`: the signed quotient (05 R116, 02 R44). -/
def execDiv (d a b : Reg) (s : State) : Out := s.result d (quotS (s.g a) (s.g b))

/-- `DIVN`: the unsigned quotient (05 R116, 02 R44). -/
def execDivn (d a b : Reg) (s : State) : Out := s.result d (quotN (s.g a) (s.g b))

/-- `REM`: the signed remainder (05 R116, 02 R44). -/
def execRem (d a b : Reg) (s : State) : Out := s.result d (remS (s.g a) (s.g b))

/-- `REMN`: the unsigned remainder (05 R116, 02 R44). -/
def execRemn (d a b : Reg) (s : State) : Out := s.result d (remN (s.g a) (s.g b))

/-- `AND` (05 R116). -/
def execAnd (d a b : Reg) (s : State) : Out := s.result d (s.g a &&& s.g b)

/-- `OR` (05 R116). -/
def execOr (d a b : Reg) (s : State) : Out := s.result d (s.g a ||| s.g b)

/-- `XOR` (05 R116). -/
def execXor (d a b : Reg) (s : State) : Out := s.result d (s.g a ^^^ s.g b)

/-- `ANDN`: A & ~B (05 R116). -/
def execAndn (d a b : Reg) (s : State) : Out := s.result d (s.g a &&& ~~~s.g b)

/-- `ORN`: A | ~B (05 R116). -/
def execOrn (d a b : Reg) (s : State) : Out := s.result d (s.g a ||| ~~~s.g b)

/-- `SHL` (05 R116). -/
def execShl (d a b : Reg) (s : State) : Out := s.result d (s.g a <<< sh6 (s.g b))

/-- `SHR`: a logical shift (05 R116). -/
def execShr (d a b : Reg) (s : State) : Out := s.result d (s.g a >>> sh6 (s.g b))

/-- `SRA`: an arithmetic shift (05 R116). -/
def execSra (d a b : Reg) (s : State) : Out := s.result d ((s.g a).sshiftRight (sh6 (s.g b)))

/-- `ROL` (05 R116). -/
def execRol (d a b : Reg) (s : State) : Out := s.result d ((s.g a).rotateLeft (sh6 (s.g b)))

/-- `ROR` (05 R116). -/
def execRor (d a b : Reg) (s : State) : Out := s.result d ((s.g a).rotateRight (sh6 (s.g b)))

/-- `MIN`: the smaller as signed numbers (05 R116). -/
def execMin (d a b : Reg) (s : State) : Out := s.result d (if (s.g a).toInt ≤ (s.g b).toInt then s.g a else s.g b)

/-- `MAX`: the larger as signed numbers (05 R116). -/
def execMax (d a b : Reg) (s : State) : Out := s.result d (if (s.g a).toInt ≤ (s.g b).toInt then s.g b else s.g a)

/-- `MINN`: the smaller as unsigned numbers (05 R116). -/
def execMinn (d a b : Reg) (s : State) : Out := s.result d (if (s.g a).toNat ≤ (s.g b).toNat then s.g a else s.g b)

/-- `MAXN`: the larger as unsigned numbers (05 R116). -/
def execMaxn (d a b : Reg) (s : State) : Out := s.result d (if (s.g a).toNat ≤ (s.g b).toNat then s.g b else s.g a)

/-- `SLT` (05 R116). -/
def execSlt (d a b : Reg) (s : State) : Out := s.result d (wordB (decide ((s.g a).toInt < (s.g b).toInt)))

/-- `SLTN` (05 R116). -/
def execSltn (d a b : Reg) (s : State) : Out := s.result d (wordB (decide ((s.g a).toNat < (s.g b).toNat)))

/-- `SEQ` (05 R116). -/
def execSeq (d a b : Reg) (s : State) : Out := s.result d (wordB (decide (s.g a = s.g b)))

/-- `SNE` (05 R116). -/
def execSne (d a b : Reg) (s : State) : Out := s.result d (wordB (decide (s.g a ≠ s.g b)))

/-- `CLZ`: leading zero bits; 64 for 0 (05 R116). -/
def execClz (d a : Reg) (s : State) : Out := s.result d (word (64 - bitLen (s.g a).toNat))

/-- `CTZ`: trailing zero bits; 64 for 0 (05 R116). -/
def execCtz (d a : Reg) (s : State) : Out := s.result d (word (trailZeros 64 (s.g a).toNat))

/-- `POPC` (05 R116). -/
def execPopc (d a : Reg) (s : State) : Out := s.result d (word (popCount 64 (s.g a).toNat))

/-- `BREV`: bit i is bit 63 − i of A (05 R116). -/
def execBrev (d a : Reg) (s : State) : Out := s.result d (word (revBits 64 (s.g a).toNat))

/-- `BSWAP`: byte i is byte 7 − i of A (05 R116). -/
def execBswap (d a : Reg) (s : State) : Out := s.result d (word (leNat (leBytes 8 (s.g a).toNat).reverse))

/-- `SEXT`: B[5:0] names the top kept bit (05 R116). -/
def execSext (d a b : Reg) (s : State) : Out := s.result d (sextW (s.g a) (bits (s.g b) 0 6 + 1))

/-- `ZEXT`: B[5:0] names the top kept bit (05 R116). -/
def execZext (d a b : Reg) (s : State) : Out := s.result d (zextW (s.g a) (bits (s.g b) 0 6 + 1))

/-- `BFX` (05 R117). -/
def execBfx (d a b : Reg) (s : State) : Out := s.result d (bitsExtract (s.g a) (s.g b))

/-- `BFI` (05 R117). -/
def execBfi (d a b : Reg) (s : State) : Out := s.result d (bitsInsert (s.g d) (s.g a) (s.g b))

/-- `CMOVZ`: g[d] keeps its value when B ≠ 0 (05 R116). -/
def execCmovz (d a b : Reg) (s : State) : Out := s.result d (if s.g b = 0 then s.g a else s.g d)

/-- `CMOVNZ`: g[d] keeps its value when B = 0 (05 R116). -/
def execCmovnz (d a b : Reg) (s : State) : Out := s.result d (if s.g b ≠ 0 then s.g a else s.g d)

/-- `ADDW` (05 R116). -/
def execAddw (d a b : Reg) (s : State) : Out := s.result d (sx32 (s.g a + s.g b))

/-- `SUBW` (05 R116). -/
def execSubw (d a b : Reg) (s : State) : Out := s.result d (sx32 (s.g a - s.g b))

/-- `MULW` (05 R116). -/
def execMulw (d a b : Reg) (s : State) : Out := s.result d (sx32 (s.g a * s.g b))

/-- `SHLW` (05 R116). -/
def execShlw (d a b : Reg) (s : State) : Out := s.result d (sx32 (s.g a <<< sh5 (s.g b)))

/-- `SHRW`: a shift of the 32-bit unsigned value (05 R116). -/
def execShrw (d a b : Reg) (s : State) : Out := s.result d (sx32 (zextW (s.g a) 32 >>> sh5 (s.g b)))

/-- `SRAW`: a shift of the 32-bit signed value (05 R116). -/
def execSraw (d a b : Reg) (s : State) : Out := s.result d ((sx32 (s.g a)).sshiftRight (sh5 (s.g b)))

end Sys2Proof.Machine
end

