-- ==== Sys2Proof/Machine/Late.lean ====
section
/-! DEFINITION. The steps that end an access in flight, an invalidation on its way and a walk (05 R128; 13 R319; 22 R402, R411). -/

namespace Sys2Proof.Machine

/-- The line at whose home a thread waits, by its name. -/
def State.waitsAt (s : State) (t : Tid) : Option (Nat × Nat) := (s.thread? t).bind fun th => match th.wait with
  | .ready => none
  | _ => th.arrivedAt

/-- A move that ends a wait at the home of the same line. -/
def State.retires (s : State) (line : Nat × Nat) (m : Move) : Bool :=
  match m with
  | .unit .retire a b c => s.waitsAt { kind := coreKindOf a, unit := b, slot := c } == some line
  | _ => false

/-- A move put before the first move of a list that passes a test, or else at its end. -/
def putBefore (test : Move → Bool) (m : Move) : List Move → List Move
  | [] => [m]
  | x :: xs => if test x then m :: x :: xs else x :: putBefore test m xs

/-- A thread goes on waiting at its home: it keeps its place before those that arrived there later (07 R151). -/
def State.waitOn (s : State) (t : Tid) (line : Nat × Nat) : State :=
  { s with agenda := putBefore (s.retires line) (.unit .retire (coreKindCode t.kind) t.unit t.slot) s.agenda }

/-- It is not a thread's turn at a line: an engine request holds it (08 R201), or another thread's instruction has its turn there. -/
def State.turnTaken (s : State) (t : Tid) (line : Nat × Nat) : Bool :=
  s.lineHeld line.1 (line.2 * 64) ||
    s.threads.any fun th => decide (th.id ≠ t) && decide (th.wait = .ready) && th.arrivedAt == some line

/-- `MEMORY_ACCESS_RETIRE`: a request has its turn at its home: an access that missed the L2 reaches the memory controller, with stage
2, and has its effect (05 R128, 22 R405); another instruction is issued again and finds its turn there (07 R151). A line that an
engine request holds until its completion action is done keeps it waiting (08 R201). -/
def execMemoryAccessRetire (t : Tid) (s : State) : Out :=
  match s.thread? t with
  | none => .next s
  | some th =>
    match th.wait with
    | .access a l =>
      if (th.arrivedAt.map (s.turnTaken t)) = some true then .next (s.waitOn t (th.arrivedAt.getD (0, 0)))
      else match ((s.focus t).setWait .ready).meetHome a l true with
      | .ok _ r => .next (r.focus s.cur.id)
      | .trap x r => .next ((r.takeTrap x).focus s.cur.id)
      | .wait r => .next (r.focus s.cur.id)
    | .home _ =>
      if (th.arrivedAt.map (s.turnTaken t)) = some true then .next (s.waitOn t (th.arrivedAt.getD (0, 0)))
      else .next (s.setThread { th.again with turn := th.arrivedAt })
    | _ => .next s

/-- `RDC_INVALIDATE`: the oldest invalidation on its way to a die is performed, of a line of device memory and of one of the host
(13 R319, R320). -/
def execRdcInvalidate (die : Nat) (s : State) : Out :=
  let s := match (s.die die).rdcInv with
    | [] => s
    | i :: _ => s.performInvalidations die fun x => decide (x = i)
  .next (s.mapDie die fun d =>
    match d.hostInv with
    | [] => d
    | i :: rest => { d with hostInv := rest, hostLines := d.hostLines.filter fun c => c.line != i.1 })

/-- `WALK_COMPLETE` (22 R402, R403, R411). -/
def execWalkComplete (id : Nat) (s : State) : Out :=
  match s.walks.find? fun w => w.id == id with
  | some w => .next (s.finishWalk w)
  | none => .next s

end Sys2Proof.Machine
end

