-- ==== Sys2Proof/Machine/MemOps.lean ====
section
/-! DEFINITION. The loads, stores, atomics and fences (05 R121 to R131; 07 R155 to R160). -/

namespace Sys2Proof.Machine

/-- `LDB` (05 R121 to R131). -/
def execLdb (v b : Reg) (o : MemOrder) (imm : BitVec 9) (s : State) : Out :=
  s.load .b o v (addrM (s.g b) imm (ldSize .b)) 4

/-- `LDBZ` (05 R121 to R131). -/
def execLdbz (v b : Reg) (o : MemOrder) (imm : BitVec 9) (s : State) : Out :=
  s.load .bz o v (addrM (s.g b) imm (ldSize .bz)) 4

/-- `LDH` (05 R121 to R131). -/
def execLdh (v b : Reg) (o : MemOrder) (imm : BitVec 9) (s : State) : Out :=
  s.load .h o v (addrM (s.g b) imm (ldSize .h)) 4

/-- `LDHZ` (05 R121 to R131). -/
def execLdhz (v b : Reg) (o : MemOrder) (imm : BitVec 9) (s : State) : Out :=
  s.load .hz o v (addrM (s.g b) imm (ldSize .hz)) 4

/-- `LDW` (05 R121 to R131). -/
def execLdw (v b : Reg) (o : MemOrder) (imm : BitVec 9) (s : State) : Out :=
  s.load .w o v (addrM (s.g b) imm (ldSize .w)) 4

/-- `LDWZ` (05 R121 to R131). -/
def execLdwz (v b : Reg) (o : MemOrder) (imm : BitVec 9) (s : State) : Out :=
  s.load .wz o v (addrM (s.g b) imm (ldSize .wz)) 4

/-- `LDD` (05 R121 to R131). -/
def execLdd (v b : Reg) (o : MemOrder) (imm : BitVec 9) (s : State) : Out :=
  s.load .d o v (addrM (s.g b) imm (ldSize .d)) 4

/-- `STB` (05 R121 to R131). -/
def execStb (v b : Reg) (o : MemOrder) (imm : BitVec 9) (s : State) : Out :=
  s.store .b o (s.g v) (addrM (s.g b) imm (stSize .b)) 4

/-- `STH` (05 R121 to R131). -/
def execSth (v b : Reg) (o : MemOrder) (imm : BitVec 9) (s : State) : Out :=
  s.store .h o (s.g v) (addrM (s.g b) imm (stSize .h)) 4

/-- `STW` (05 R121 to R131). -/
def execStw (v b : Reg) (o : MemOrder) (imm : BitVec 9) (s : State) : Out :=
  s.store .w o (s.g v) (addrM (s.g b) imm (stSize .w)) 4

/-- `STD` (05 R121 to R131). -/
def execStd (v b : Reg) (o : MemOrder) (imm : BitVec 9) (s : State) : Out :=
  s.store .d o (s.g v) (addrM (s.g b) imm (stSize .d)) 4

/-- `LDX`, the indexed loads of `MEMX` (05 R121, 03 R86). -/
def execLdx (d a b : Reg) (k : LdKind) (o : MemOrder) (s : State) : Out :=
  s.load k o d (addrX (s.g a) (s.g b) (ldSize k)) 4

/-- `STX`, the indexed stores of `MEMX` (05 R121, 03 R86). -/
def execStx (d a b : Reg) (k : StKind) (o : MemOrder) (s : State) : Out :=
  s.store k o (s.g d) (addrX (s.g a) (s.g b) (stSize k)) 4

/-- `AADD` (07 R157, R158). -/
def execAadd (d a b : Reg) (src : AtomSize) (o : AtomOrder) (c : Scope) (s : State) : Out :=
  s.atomic .add src o c d a b

/-- `AAND` (07 R157, R158). -/
def execAand (d a b : Reg) (src : AtomSize) (o : AtomOrder) (c : Scope) (s : State) : Out :=
  s.atomic .and src o c d a b

/-- `AOR` (07 R157, R158). -/
def execAor (d a b : Reg) (src : AtomSize) (o : AtomOrder) (c : Scope) (s : State) : Out :=
  s.atomic .or src o c d a b

/-- `AXOR` (07 R157, R158). -/
def execAxor (d a b : Reg) (src : AtomSize) (o : AtomOrder) (c : Scope) (s : State) : Out :=
  s.atomic .xor src o c d a b

/-- `AMIN` (07 R157, R158). -/
def execAmin (d a b : Reg) (src : AtomSize) (o : AtomOrder) (c : Scope) (s : State) : Out :=
  s.atomic .min src o c d a b

/-- `AMAX` (07 R157, R158). -/
def execAmax (d a b : Reg) (src : AtomSize) (o : AtomOrder) (c : Scope) (s : State) : Out :=
  s.atomic .max src o c d a b

/-- `AMINN` (07 R157, R158). -/
def execAminn (d a b : Reg) (src : AtomSize) (o : AtomOrder) (c : Scope) (s : State) : Out :=
  s.atomic .minn src o c d a b

/-- `AMAXN` (07 R157, R158). -/
def execAmaxn (d a b : Reg) (src : AtomSize) (o : AtomOrder) (c : Scope) (s : State) : Out :=
  s.atomic .maxn src o c d a b

/-- `ASWAP` (07 R157, R158). -/
def execAswap (d a b : Reg) (src : AtomSize) (o : AtomOrder) (c : Scope) (s : State) : Out :=
  s.atomic .swap src o c d a b

/-- `CAS` (07 R157, R158). -/
def execCas (d a b : Reg) (src : AtomSize) (o : AtomOrder) (c : Scope) (s : State) : Out :=
  s.atomic .cas src o c d a b

/-- `FENCE`: a release waits for the thread's earlier stores, an acquire empties the L1 (07 R155, R156, R159). -/
def execFence (o : AtomOrder) (c : Scope) (s : State) : Out :=
  let s := if o = .rel ∨ o = .ar then s.release c else s
  let s := if o = .acq ∨ o = .ar then s.acquire c else s
  .next (s.advance 4)

/-- `FENCEI`: every earlier store of the thread is confirmed already; its later fetches see what the L1's lines would hide, its own
stores, and those of others up to its last acquire (07 R160; 12 R298, R302). DESIGN CHOICE (log 27). -/
def execFencei (s : State) : Out :=
  let s := s.emptyL1 s.curCluster
  .next ((s.mapCur fun th => { th with fenced := s.tick, synced := th.acquired }).advance 4)

end Sys2Proof.Machine
end

