-- ==== Sys2Proof/Machine/Ordered.lean ====
section
/-! DEFINITION. The summit and the commits of ordered tasks (13 R310 to R317; 01 R35, R37). -/

namespace Sys2Proof.Machine

/-! ### Unfinished ordered tasks (13 R311) -/

/-- A registration counts toward the summit: its key is not still travelling in its parent's commit packet. -/
def State.counts (s : State) (reg : Nat) : Bool :=
  match s.reg? reg with
  | some r => r.spawner.isNone
  | none => true

/-- An ordered instance with its key: registration, index, key. -/
abbrev Instance := Nat × Nat × Word

/-- The ordered task of a context as an instance that counts. -/
def State.taskInstance (s : State) (p c : Nat) (k : Task) : Option Instance :=
  if k.part = p ∧ k.ctx = c ∧ k.cls = .ordered ∧ s.counts k.reg then some (k.reg, k.idx, k.key) else none

/-- A queue entry as an instance that counts. -/
def State.entryInstance (s : State) (p c : Nat) (e : QEntry) : Option Instance :=
  if e.part = p ∧ e.ctx = c ∧ e.ordered then
    match e.job with
    | .fresh r i _ => if s.counts r then some (r, i, e.key) else none
    | .saved th _ => th.task.bind (s.taskInstance p c)
  else none

/-- The instances that a cluster with its threads holds. -/
def State.clusterInstances (s : State) (p c : Nat) (k : Cluster) (ths : List Thread) : List Instance :=
  ths.filterMap (fun th => th.task.bind (s.taskInstance p c)) ++
  k.store.filterMap (fun x => x.thread.task.bind (s.taskInstance p c)) ++
  k.readyQ.filterMap (s.entryInstance p c)

/-- The unfinished ordered instances of a context that count on a die: held, ready, running, parked, saved with their cluster, on their
way from it over a bridge, or unplaced in its share of a range. DEDUCED (log 38). -/
def State.dieInstances (s : State) (p c d : Nat) : List Instance :=
  let here (cl : Nat) : Bool := dieOfCluster cl == d
  let threadsHere := (s.threads.filter fun th => decide (th.id.kind = .barrel) && here th.id.unit).filterMap fun th =>
    th.task.bind (s.taskInstance p c)
  threadsHere ++
  ((s.clusters.filter fun e => here e.1).flatMap fun e => s.clusterInstances p c e.2 []) ++
  (((s.part p).saves.filter fun a => a.c == c && here ((s.part p).globalCl a.l)).flatMap fun a =>
    s.clusterInstances p c a.cluster a.threads) ++
  (((s.dies.flatMap fun e => e.2.forwards).filter fun f => f.src == d).filterMap fun f => s.entryInstance p c f.entry) ++
  ((s.dies.flatMap fun e => e.2.shares.filter fun h => h.src.getD e.1 == d).filterMap fun h =>
    match s.reg? h.reg with
    | some r => if h.part = p ∧ h.ctx = c ∧ r.hdr.ordered ∧ r.spawner.isNone then some (h.reg, h.next, r.key h.next) else none
    | none => none) ++
  (s.regs.filterMap fun r =>
    if r.part = p ∧ r.ctx = c ∧ r.held ∧ r.hdr.ordered ∧ r.spawner.isNone ∧ s.regDie r = d then some (r.id, 0, r.key 0) else none)

/-- The smallest of some keys. -/
def leastKey (l : List Word) : Option Word :=
  l.foldl (fun b k => match b with
    | none => some k
    | some x => some (if k.toNat < x.toNat then k else x)) none

/-- A die reports its smallest unfinished key (13 R311). -/
def State.reportDie (s : State) (d p c : Nat) : State :=
  let k := leastKey ((s.dieInstances p c d).map fun x => x.2.2)
  s.mapCtx p c fun x => { x with reports := x.reports.put d k }

/-- The summit: the smallest of the latest reports and of the keys in the commit queues (13 R311). -/
def State.summit (s : State) (p c : Nat) : Option Word :=
  let x := s.ctxState p c
  leastKey ((x.reports.filterMap fun e => e.2) ++ (x.finished.filter fun k => s.counts k.reg).map fun k => k.key)

/-! ### Naming the holder (13 R311) -/

/-- Every instance of a context that counts and has a key, finished ones among them. -/
def State.withKey (s : State) (p c : Nat) (key : Word) : List (Nat × Nat) :=
  let open_ := ((upFrom 0 4).flatMap fun d => s.dieInstances p c d).filter fun x => x.2.2 == key
  let done := ((s.ctxState p c).finished.filter fun k => s.counts k.reg && k.key == key).map fun k => (k.reg, k.idx)
  ((open_.map fun x => (x.1, x.2.1)) ++ done).eraseDups

/-- The task of a context that is its summit holder, running, parked or finished. -/
def State.holderTask (s : State) (p c : Nat) : Option Task :=
  match (s.ctxState p c).holder with
  | none => none
  | some h => s.allTasks.find? fun k => k.part == p && k.ctx == c && decide (k.cls = .ordered) && k.reg == h.1 && k.idx == h.2

/-- The key of the holder. -/
def State.holderKey (s : State) (p c : Nat) : Option Word :=
  (s.ctxState p c).holder.bind fun h => (s.reg? h.1).map fun r => r.key h.2

/-- The holder of a key: its only instance; else the first of them to finish or the first to stall, either where both exist
(log 2); none before that (13 R311). -/
def State.chooseHolder (s : State) (p c : Nat) (key : Word) : Option (Nat × Nat) × State :=
  match s.withKey p c key with
  | [h] => (some h, s)
  | all =>
    let x := s.ctxState p c
    let done := (x.finished.find? fun k => k.key == key && s.counts k.reg).map fun k => (k.reg, k.idx)
    let stalled := x.stalled.findSome? fun u => (s.allTasks.find? fun k =>
      k.uid == u && k.key == key && all.contains (k.reg, k.idx)).map fun k => (k.reg, k.idx)
    match done, stalled with
    | some a, some b =>
      let r := s.freeB
      (some (if r.1 then a else b), r.2)
    | some a, none => (some a, s)
    | none, b => (b, s)

/-- The context whose ordered tasks go on: those of one that is switched out, or is being switched, wait (22 R413). -/
def State.ctxRuns (s : State) (p c : Nat) : Bool :=
  !(s.part p).vacant && (s.part p).resident == c && (s.part p).sweep.isNone

/-- The sequencer names the summit holder of the context that is resident; an irrevocable holder stays, and so does one whose key
is still the summit. -/
def State.nameHolder (s : State) (p c : Nat) : State :=
  if !s.ctxRuns p c then s
  else
    let irrevocable := ((s.holderTask p c).map fun k => k.irrevocable).getD false
    match s.summit p c with
    | none => if irrevocable then s else s.mapCtx p c fun x => { x with holder := none }
    | some key =>
      if irrevocable ∨ s.holderKey p c = some key then s
      else
        let r := s.chooseHolder p c key
        r.2.mapCtx p c fun x => { x with holder := r.1 }

/-- What the holder can do next is due: its commit, its becoming irrevocable, or its dispatch (01 R35; 13 R312, R316). -/
def State.summitStep (s : State) (p c : Nat) : State :=
  let s := s.nameHolder p c
  let x := s.ctxState p c
  match x.holder with
  | none => s
  | some h =>
    if x.finished.any fun k => k.reg == h.1 && k.idx == h.2 then s.raise .commit p c 0
    else if x.stalled.any fun u => ((s.holderTask p c).map fun k => k.uid) == some u then s.raise .irrevocable p c 0
    else if (s.holderQueued p c).isSome then s.raise .holderDispatch p c 0
    else s

/-- `SUMMIT_REPORT` (13 R311). -/
def execSummitReport (die p c : Nat) (s : State) : Out := .next ((s.reportDie die p c).summitStep p c)

/-! ### Commits (13 R312, R316) -/

/-- The SSB lines of a task, in the order in which they were taken. -/
def State.ssbOf (s : State) (uid : Nat) : List SsbLine :=
  s.clusters.flatMap fun e => e.2.ssb.filter fun x => x.owner == uid

/-- A buffered line applied at its home: doublewords that one store wrote whole as doublewords, which clears their poison, other
bytes one by one (05 R131). -/
def State.applyLine (s : State) (uid : Nat) (x : SsbLine) : State :=
  s.each (upFrom 0 8) fun s i =>
    let dw := (upFrom (8 * i) 8).filterMap fun o => (x.bytes.find? fun b => b.1 == o)
    if x.whole.contains i ∧ dw.length = 8 then s.agentWrite uid (x.loc.shift (8 * i)) (dw.map fun b => b.2)
    else s.each dw fun s b => s.agentWrite uid (x.loc.shift b.1) [b.2]

/-- The commit unit of a context waits for the host at a line that stage 2 refused. DESIGN CHOICE (log 69). -/
def State.commitWaits (s : State) (p c : Nat) : Bool := s.faults.any fun f => f.waiters.contains (.commit p c)

/-- What the homes answer to the lines of a commit, each of which needs the write permission of stage 2 (22 R405).
DESIGN CHOICE (log 69). -/
def State.linesHome (s : State) : List SsbLine → HomeAnswer
  | [] => .granted s
  | x :: xs =>
    match s.agentHome x.loc true with
    | .granted s => State.linesHome s xs
    | a => a

/-- The buffered lines of a task may be applied: the commit unit waits behind earlier requests to a line, or for the host where stage 2
refuses one, in a record like that of a commit's decrement (01 R37; 22 R405). DESIGN CHOICE (log 69). -/
def State.whenWritable (s : State) (k : Task) (again : UnitKind) (f : State → State) : State :=
  if s.commitWaits k.part k.ctx then s
  else match s.linesHome (s.ssbOf k.uid) with
    | .granted s => f s
    | .fault g r => s.stage2Fault (.commit k.part k.ctx) k.part k.ctx g r 3 1 { kind := 0, taddr := 0, tinfo := 0 }
    | _ => s.raise again k.part k.ctx 0

/-- The lines applied as one act, with the values before them kept for fetches without a `FENCEI`, and every RDC invalidation
acknowledged (13 R312 step 2). DEDUCED (log 68). -/
def State.applyLines (s : State) (uid : Nat) (ls : List SsbLine) : State :=
  let s := s.each ls fun s x => s.noteOldFor .others (match x.loc with
    | .scratch c _ => c
    | _ => (s.clusters.findSome? fun e => if e.2.ssb.any fun y => y.owner == uid then some e.1 else none).getD 0) uid x.loc 64
  let s := s.each ls fun s x => (s.applyLine uid x).noteFscb x.loc
  s.releasePrt uid

/-- The SSB lines of a task freed. -/
def State.freeSsb (s : State) (uid : Nat) : State :=
  { s with clusters := s.clusters.map fun (e : Nat × Cluster) => (e.1, { e.2 with ssb := e.2.ssb.filter fun x => x.owner != uid }) }

/-- The keys of a committed task's ordered children are registered with the summit (13 R312 step 4). -/
def State.registerChildren (s : State) (k : Task) : State :=
  let mine := s.regs.filter fun r => r.spawner == some k.uid
  let s := { s with regs := s.regs.map fun (r : Registration) => if r.spawner = some k.uid then { r with spawner := none } else r }
  s.each mine fun s r => s.noteKey k.part k.ctx (s.regDie r) (r.key 0)

/-- The commit of a finished summit holder, steps 1 to 7 (13 R312). DEDUCED (log 33). -/
def State.commitTask (s : State) (k : Task) : State :=
  let ls := s.ssbOf k.uid
  let s := s.applyLines k.uid ls
  let s := s.each k.pubs fun s h => s.closeUmbra k.part h.umbra h.discard
  let s := s.registerChildren k
  let s := s.each (s.successors k) fun s hdr => s.commitDecrement k.part k.ctx ((s.part k.part).globalCl 0) hdr
  let s := s.broadcast k (ls.map fun x => s.sigLine x.loc)
  let s := (s.freeSsb k.uid).mapCtx k.part k.ctx fun x =>
    { x with
      cseq := x.cseq + 1
      holder := none
      finished := x.finished.filter fun y => y.uid != k.uid
      stalled := x.stalled.filter fun u => u != k.uid }
  let s := (s.memberExit k.part k.reg k.idx).instanceEnd k.reg true
  s.each (s.part k.part).dies fun s d => s.raise .report d k.part k.ctx

/-- `COMMIT`: the sequencer commits the summit holder when it is finished; a held `PUBLISH` takes its cut now and waits for its umbra's
earlier requests (08 R214; 13 R312, R317; 14 R330). -/
def execCommit (p c : Nat) (s : State) : Out :=
  let s := s.nameHolder p c
  match (if s.ctxRuns p c then (s.ctxState p c).holder else none) with
  | none => .next s
  | some h =>
    match (s.ctxState p c).finished.find? (fun k => k.reg == h.1 && k.idx == h.2) with
    | none => .next s
    | some k =>
      let s := s.each k.pubs fun s x => s.cutUmbra p x.umbra
      if k.pubs.any fun x => s.umbraBusy p x.umbra then .next s
      else .next (s.whenWritable k .commit fun s => s.commitTask k)

/-- A task that stalls and holds the summit becomes irrevocable: its buffered lines are committed without steps 3 and 5, so the keys
of the ordered children that it has spawned are registered; a commit sequence number is taken, and it goes on (13 R316, R317). -/
def State.makeIrrevocable (s : State) (k : Task) : State :=
  let ls := s.ssbOf k.uid
  let s := (s.applyLines k.uid ls).registerChildren k
  let s := s.broadcast k (ls.map fun x => s.sigLine x.loc)
  let s := (s.freeSsb k.uid).mapCtx k.part k.ctx fun x =>
    { x with cseq := x.cseq + 1, stalled := x.stalled.filter fun u => u != k.uid }
  s.mapTaskThread k.uid fun th =>
    { th with
      wait := if th.wait = .summit then .ready else th.wait
      task := th.task.map fun x => { x with irrevocable := true } }

/-- `IRREVOCABLE_COMMIT` (13 R316). -/
def execIrrevocableCommit (p c : Nat) (s : State) : Out :=
  let s := s.nameHolder p c
  match (if s.ctxRuns p c then s.holderTask p c else none) with
  | none => .next s
  | some k =>
    if (s.ctxState p c).stalled.contains k.uid ∧ !k.irrevocable then .next (s.whenWritable k .irrevocable fun s => s.makeIrrevocable k)
    else .next s

end Sys2Proof.Machine
end

