-- ==== Sys2Proof/Machine/Packed.lean ====
section
/-! DEFINITION. The `PK` and `RNG` majors (06 R147 to R150). -/

namespace Sys2Proof.Machine

/-- `PADD` (06 R147). -/
def execPadd (d a b : Reg) (h : PkShape) (s : State) : Out := s.result d (lanes2 h (fun x y => x + y) (s.g a) (s.g b))

/-- `PSUB` (06 R147). -/
def execPsub (d a b : Reg) (h : PkShape) (s : State) : Out := s.result d (lanesS h (fun x y => x - y) (s.g a) (s.g b))

/-- `PMUL` (06 R147). -/
def execPmul (d a b : Reg) (h : PkShape) (s : State) : Out := s.result d (lanes2 h (fun x y => x * y) (s.g a) (s.g b))

/-- `PADDS` (06 R147). -/
def execPadds (d a b : Reg) (h : PkShape) (s : State) : Out := s.result d (lanesS h (fun x y => saturate h (x + y)) (s.g a) (s.g b))

/-- `PSUBS` (06 R147). -/
def execPsubs (d a b : Reg) (h : PkShape) (s : State) : Out := s.result d (lanesS h (fun x y => saturate h (x - y)) (s.g a) (s.g b))

/-- `PMIN` (06 R147). -/
def execPmin (d a b : Reg) (h : PkShape) (s : State) : Out := s.result d (lanesS h (fun x y => if x ≤ y then x else y) (s.g a) (s.g b))

/-- `PMAX` (06 R147). -/
def execPmax (d a b : Reg) (h : PkShape) (s : State) : Out := s.result d (lanesS h (fun x y => if x ≤ y then y else x) (s.g a) (s.g b))

/-- `PMINN` (06 R147). -/
def execPminn (d a b : Reg) (h : PkShape) (s : State) : Out := s.result d (lanes2 h (fun x y => if x ≤ y then x else y) (s.g a) (s.g b))

/-- `PMAXN` (06 R147). -/
def execPmaxn (d a b : Reg) (h : PkShape) (s : State) : Out := s.result d (lanes2 h (fun x y => if x ≤ y then y else x) (s.g a) (s.g b))

/-- `PCEQ` (06 R147). -/
def execPceq (d a b : Reg) (h : PkShape) (s : State) : Out :=
  s.result d (lanes2 h (fun x y => if x = y then 2 ^ laneWidth h - 1 else 0) (s.g a) (s.g b))

/-- `PCGT` (06 R147). -/
def execPcgt (d a b : Reg) (h : PkShape) (s : State) : Out := s.result d (lanesS h (fun x y => if y < x then -1 else 0) (s.g a) (s.g b))

/-- `PSHUF` (06 R148). -/
def execPshuf (d a b : Reg) (h : PkShape) (s : State) : Out := s.result d (shuffle h (s.g a) (s.g b))

/-- `PDOT` (06 R149). -/
def execPdot (d a b : Reg) (h : PkShape) (s : State) : Out := s.result d (laneDot h (s.g d) (s.g a) (s.g b))

/-- `RNGP`: g[d] gets output words 0 and 1, x5 words 2 and 3 (06 R150, 02 R69, R70). -/
def execRngp (d a b : Reg) (s : State) : Out :=
  let r := philox (s.g a) (s.g b) (s.x 6)
  .next (((s.setG d r.1).setX 5 r.2).advance 4)

/-- `RNGF64`: ((g >> 11) + 0.5) × 2^−53, rounded toward zero (02 R71). -/
def execRngf64 (d a : Reg) (s : State) : Out :=
  s.result d (word ((specOf .f64).round .rz false (2 * ((s.g a).toNat / 2 ^ 11) + 1) (-54)).bits)

/-- `RNGF32`: (g[31:8] + 0.5) × 2^−24, rounded toward zero (02 R71). -/
def execRngf32 (d a : Reg) (s : State) : Out :=
  s.result d (word ((specOf .f32).round .rz false (2 * bits (s.g a) 8 24 + 1) (-25)).bits)

end Sys2Proof.Machine
end

