-- ==== Sys2Proof/Machine/Short16.lean ====
section
/-! DEFINITION. The 16-bit forms: each has the effect of its 32-bit partner, with a length of 2 bytes (03 R89, 05 R136). -/

namespace Sys2Proof.Machine

/-- imm7 sign-extended (03 R89). -/
def simm7 (i : BitVec 7) : Word := i.signExtend 64

/-- A two-address form: g[d] ← f g[d] g[s] (03 R89). -/
def State.two (s : State) (d src : Reg4) (f : Word → Word → Word) : Out :=
  s.result (reg4 d) (f (s.g (reg4 d)) (s.g (reg4 src))) 2

/-- 16-bit `MOV`, as `OR d, s, g0`. -/
def execMov16 (d src : Reg4) (s : State) : Out := s.result (reg4 d) (s.g (reg4 src)) 2

/-- 16-bit `ADD`. -/
def execAdd16 (d src : Reg4) (s : State) : Out := s.two d src fun a b => a + b

/-- 16-bit `SUB`. -/
def execSub16 (d src : Reg4) (s : State) : Out := s.two d src fun a b => a - b

/-- 16-bit `AND`. -/
def execAnd16 (d src : Reg4) (s : State) : Out := s.two d src fun a b => a &&& b

/-- 16-bit `OR`. -/
def execOr16 (d src : Reg4) (s : State) : Out := s.two d src fun a b => a ||| b

/-- 16-bit `XOR`. -/
def execXor16 (d src : Reg4) (s : State) : Out := s.two d src fun a b => a ^^^ b

/-- 16-bit `SHL`. -/
def execShl16 (d src : Reg4) (s : State) : Out := s.two d src fun a b => a <<< sh6 b

/-- 16-bit `SHR`. -/
def execShr16 (d src : Reg4) (s : State) : Out := s.two d src fun a b => a >>> sh6 b

/-- 16-bit `SRA`. -/
def execSra16 (d src : Reg4) (s : State) : Out := s.two d src fun a b => a.sshiftRight (sh6 b)

/-- 16-bit `LDD`. -/
def execLdd16 (d src : Reg4) (s : State) : Out := s.load .d .plain (reg4 d) (s.g (reg4 src)) 2

/-- 16-bit `STD`. -/
def execStd16 (d src : Reg4) (s : State) : Out := s.store .d .plain (s.g (reg4 d)) (s.g (reg4 src)) 2

/-- 16-bit `LDW`, sign-extending. -/
def execLdw16 (d src : Reg4) (s : State) : Out := s.load .w .plain (reg4 d) (s.g (reg4 src)) 2

/-- 16-bit `STW`. -/
def execStw16 (d src : Reg4) (s : State) : Out := s.store .w .plain (s.g (reg4 d)) (s.g (reg4 src)) 2

/-- 16-bit `JR`. -/
def execJr16 (src : Reg4) (s : State) : Out := s.jumpReg (s.g (reg4 src)) none

/-- 16-bit `JLR`: the link is PC + 2 (03 R79). -/
def execJlr16 (src : Reg4) (s : State) : Out := s.jumpReg (s.g (reg4 src)) (some (s.pc + 2))

/-- 16-bit `NOP`. -/
def execNop16 (s : State) : Out := s.pass 2

/-- `RET`, as `JR lk`. -/
def execRet16 (s : State) : Out := s.jumpReg (s.g lk) none

/-- 16-bit `EXIT`. -/
def execExit16 (s : State) : Out := s.exitTask "EXIT"

/-- 16-bit `YIELD`. -/
def execYield16 (s : State) : Out := s.yield "YIELD" 2

/-- 16-bit `ADDI`. -/
def execAddi16 (d : Reg4) (imm : BitVec 7) (s : State) : Out := s.result (reg4 d) (s.g (reg4 d) + simm7 imm) 2

/-- 16-bit `LI`. -/
def execLi16 (d : Reg4) (imm : BitVec 7) (s : State) : Out := s.result (reg4 d) (simm7 imm) 2

/-- 16-bit `SHLI`. -/
def execShli16 (d : Reg4) (imm : BitVec 6) (s : State) : Out := s.result (reg4 d) (s.g (reg4 d) <<< imm.toNat) 2

/-- 16-bit `SHRI`. -/
def execShri16 (d : Reg4) (imm : BitVec 6) (s : State) : Out := s.result (reg4 d) (s.g (reg4 d) >>> imm.toNat) 2

/-- `LDSP`: `LDD d, [sp + imm7 × 8]`, imm7 unsigned (05 R136). -/
def execLdsp (d : Reg4) (imm : BitVec 7) (s : State) : Out :=
  s.load .d .plain (reg4 d) (s.g sp + word (imm.toNat * 8)) 2

/-- `STSP`: `STD d, [sp + imm7 × 8]`, imm7 unsigned (05 R136). -/
def execStsp (d : Reg4) (imm : BitVec 7) (s : State) : Out :=
  s.store .d .plain (s.g (reg4 d)) (s.g sp + word (imm.toNat * 8)) 2

/-- `BEQZ`. -/
def execBeqz (d : Reg4) (imm : BitVec 7) (s : State) : Out := s.branch (decide (s.g (reg4 d) = 0)) imm 2

/-- `BNEZ`. -/
def execBnez (d : Reg4) (imm : BitVec 7) (s : State) : Out := s.branch (decide (s.g (reg4 d) ≠ 0)) imm 2

/-- 16-bit `J`. -/
def execJ16 (imm : BitVec 12) (s : State) : Out := .next (s.jump (target s.pc imm))

/-- 16-bit `JL`: the link is PC + 2 (03 R79). -/
def execJl16 (imm : BitVec 12) (s : State) : Out := .next ((s.setG lk (s.pc + 2)).jump (target s.pc imm))

/-- 16-bit `TRAP`: `CAUSE` is 1 (10 R262). -/
def execTrap16 (imm : BitVec 12) (s : State) : Out := s.softTrap 1 imm.toNat

end Sys2Proof.Machine
end

