-- ==== Sys2Proof/Machine/Sync.lean ====
section
/-! DEFINITION. The `SYNC` major: ropes, dependency counters and futures (07 R151 to R168, R174). -/

namespace Sys2Proof.Machine

/-- A step of an instruction with its state changed at the end, unless it traps. -/
def Acc.after {α : Type} (a : Acc α) (f : State → State) : Acc α :=
  match a with
  | .ok v s => .ok v (f s)
  | .trap r s => .trap r s
  | .wait s => .wait (f s)

/-- An instruction on a structure of device memory: an ordered task that is not irrevocable stalls for the summit; else it
acts as a release at `.prt` if it says so, and then on the structure's guest-physical address (07 R151 to R155); what it
writes there counts as the task's own earlier write (07 R156). DEDUCED (log 24). -/
def State.onStructure (s : State) (va : Word) (align : Nat) (rel : Bool) (f : Nat → Nat → State → Acc Unit) : Acc Unit :=
  if s.speculative then .wait s.stallSummit
  else ((if rel then s.release .prt else s).structure_ va align 1).bind fun l t =>
    match l with
    | .dram p g => (f p g t).after fun t => t.claimWrite s.curCluster s.curUid p g
    | _ => .trap (structTrap 0x03 va 8 0) t

/-- A trap with kind rope misuse; `DETAIL` holds `PEND` (07 R163). -/
def ropeTrap (va : Word) (cause : Nat) (w : Word) : TrapRec := structTrap 0x12 va cause (ropePend w)

/-- `RPINIT` (07 R163, R164). -/
def execRpinit (a b : Reg) (s : State) : Out :=
  (s.onStructure (s.g a) 16 true fun p g s =>
    let w := s.readD p g
    let n := bits (s.g b) 0 32
    if n = 0 ∨ 2 ^ 30 ≤ n then .trap (ropeTrap (s.g a) 4 w) s
    else if !(s.ropeWaiters p g).isEmpty then .trap (ropeTrap (s.g a) 5 w) s
    else
      let s := s.writeRope p g (word (n * 2 ^ 32 + n))
      let s := s.agentWrite s.curUid (.dram p (g + 8)) (leBytes 8 0)
      .ok () (s.mapPart p fun t => { t with bindings := t.bindings.filter fun x => x.gpa != g })).run fun _ s => s.advance 4

/-- The instance of the range bound to a rope that the running task is (07 R164). DEDUCED (log 22). -/
def State.boundMember (s : State) (p g : Nat) : Option Nat :=
  match s.cur.task, s.binding? p g with
  | some k, some b => if b.reg = k.reg then some k.idx else none
  | _, _ => none

/-- `RPARR` (07 R162 to R164). -/
def execRparr (d a b : Reg) (s : State) : Out :=
  (s.onStructure (s.g a) 16 true fun p g s =>
    let w := s.readD p g
    if ropeBroken w then .ok () (s.setG d w)
    else match s.ropeArrive p g (s.g b) (s.boundMember p g) with
      | .error c => .trap (ropeTrap (s.g a) c w) s
      | .ok s => .ok () (s.setG d w)).run fun _ s => s.advance 4

/-- `RPEXP` (07 R163). -/
def execRpexp (a b : Reg) (s : State) : Out :=
  (s.onStructure (s.g a) 16 false fun p g s =>
    let w := s.readD p g
    let bytes := s.readD p (g + 8)
    if ropeBroken w then .ok () s
    else if 2 ^ 64 ≤ bytes.toNat + (s.g b).toNat then .trap (ropeTrap (s.g a) 3 w) s
    else .ok () (s.agentWrite s.curUid (.dram p (g + 8)) (leBytes 8 (bytes + s.g b).toNat))).run fun _ s => s.advance 4

/-- `RPWAIT`: it returns at once from a broken rope or a phase that has passed, else it parks (07 R163). -/
def execRpwait (d a b : Reg) (s : State) : Out :=
  (s.onStructure (s.g a) 16 false fun p g s =>
    let w := s.readD p g
    let back (v : Word) : Acc Unit := .ok () (((s.setG d v).acquire .prt).advance 4)
    if ropeBroken w then back 1
    else if bit w 63 ≠ bit (s.g b) 63 then back 0
    else s.parkOn { die := s.homeDie p g, part := p, ctx := s.curCtx, gpa := g, kind := .rope s.curUid (bit w 63), spill := false }
      3 (s.g a) (.rpwait d) fun s => s).run fun _ s => s

/-- A word read as an acquire load at `.prt`; a speculative task reads its own buffered bytes, and the line enters its
signature (07 R155, R163, R166). DEDUCED (log 25). -/
def State.testWord (s : State) (d : Reg) (va : Word) (align : Nat) : Out :=
  (s.structure_ va align 0).run fun l s =>
    if s.speculative && s.noSigRoom l then s.stallSummit
    else
      let s := if s.speculative then s.sign l else s
      let bs := s.bytesAt l 8
      let bs := if s.speculative then (s.cluster s.curCluster).overlay s.curUid l bs else bs
      ((s.setG d (word (leNat bs))).acquire .prt).advance 4

/-- `RPTEST` (07 R163). -/
def execRptest (d a : Reg) (s : State) : Out := s.testWord d (s.g a) 16

/-- `DCDEC`: an underflow traps counter underflow, cause 2 (07 R174, 01 R23). -/
def execDcdec (a : Reg) (s : State) : Out :=
  (s.onStructure (s.g a) 64 true fun p g s =>
    let r := s.decrement p g
    if r.1 then .trap (structTrap 0x0A (s.g a) 2 0) r.2 else .ok () r.2).run fun _ s => s.advance 4

/-- The state of a future's word (07 R165). -/
def futureState (w : Word) : Nat := bits w 62 2

/-- `FRES` and `FPOIS`: the future takes its final state and its records are served; an underflow of a link traps after
that, cause 3 (07 R166, R167). -/
def State.settle (s : State) (a b : Reg) (final : Nat) : Out :=
  (s.onStructure (s.g a) 8 true fun p g s =>
    let w := s.readD p g
    if 2 ≤ futureState w then .trap (structTrap 0x0B (s.g a) (final - 1) (futureState w)) s
    else
      let r := s.resolveFuture p g final (s.g b)
      match r.1 with
      | some hdr => .trap (structTrap 0x0A hdr 3 0) (r.2.claimWrite s.curCluster s.curUid p g)
      | none => .ok () r.2).run fun _ s => s.advance 4

/-- `FRES` (07 R166). -/
def execFres (a b : Reg) (s : State) : Out := s.settle a b 2

/-- `FPOIS` (07 R166). -/
def execFpois (a b : Reg) (s : State) : Out := s.settle a b 3

/-- `STATE` of an empty future becomes 1 with its first record (07 R165, R166). -/
def State.markFuture (s : State) (p g : Nat) : State :=
  s.agentWrite s.curUid (.dram p g) (leBytes 8 (setBits (s.readD p g) 62 2 1).toNat)

/-- `FWAIT` (07 R166). -/
def execFwait (d a b : Reg) (s : State) : Out :=
  (s.onStructure (s.g a) 8 false fun p g s =>
    let w := s.readD p g
    if 2 ≤ futureState w then
      .ok () ((((s.setG d (word (bits w 0 62))).setG b (word (futureState w))).acquire .prt).advance 4)
    else s.parkOn { die := s.homeDie p g, part := p, ctx := s.curCtx, gpa := g, kind := .future s.curUid, spill := false }
      1 (s.g a) (.fwait d b) fun s => s.markFuture p g).run fun _ s => s

/-- `FLINK`: a future already final decrements the header at once; else a link is recorded (07 R166). DESIGN CHOICE (log 23). -/
def execFlink (a b : Reg) (s : State) : Out :=
  (s.onStructure (s.g a) 8 false fun p g s =>
    let hdr := s.g b
    (s.structure_ hdr 64 1).bind fun l s =>
      let h := l.offset
      if 2 ≤ futureState (s.readD p g) then
        let r := s.decrement p h
        if r.1 then .trap (structTrap 0x0A hdr 4 0) r.2 else .ok () (r.2.claimWrite s.curCluster s.curUid p h)
      else
        match s.record { die := s.homeDie p g, part := p, ctx := s.curCtx, gpa := g, kind := .link hdr h, spill := false } with
        | none => .trap (structTrap 0x0C (s.g a) 2 0) s
        | some s => .ok () (s.markFuture p g)).run fun _ s => s.advance 4

/-- `FTEST` (07 R166). -/
def execFtest (d a : Reg) (s : State) : Out := s.testWord d (s.g a) 8

end Sys2Proof.Machine
end

