-- ==== Sys2Proof/Machine/Dispatch.lean ====
section
/-! DEFINITION. One arm per constructor: each instruction and each step of the table calls its meaning. -/

namespace Sys2Proof.Machine

/-- What an instruction or a step of the table does. -/
def exec (i : Instr) (s : State) : Host.Outcome State Fault Refusal :=
  match i with
  | .add d a b => Sys2Proof.Machine.execAdd d a b s
  | .sub d a b => Sys2Proof.Machine.execSub d a b s
  | .mul d a b => Sys2Proof.Machine.execMul d a b s
  | .mulh d a b => Sys2Proof.Machine.execMulh d a b s
  | .mulhn d a b => Sys2Proof.Machine.execMulhn d a b s
  | .div d a b => Sys2Proof.Machine.execDiv d a b s
  | .divn d a b => Sys2Proof.Machine.execDivn d a b s
  | .rem d a b => Sys2Proof.Machine.execRem d a b s
  | .remn d a b => Sys2Proof.Machine.execRemn d a b s
  | .and d a b => Sys2Proof.Machine.execAnd d a b s
  | .or d a b => Sys2Proof.Machine.execOr d a b s
  | .xor d a b => Sys2Proof.Machine.execXor d a b s
  | .andn d a b => Sys2Proof.Machine.execAndn d a b s
  | .orn d a b => Sys2Proof.Machine.execOrn d a b s
  | .shl d a b => Sys2Proof.Machine.execShl d a b s
  | .shr d a b => Sys2Proof.Machine.execShr d a b s
  | .sra d a b => Sys2Proof.Machine.execSra d a b s
  | .rol d a b => Sys2Proof.Machine.execRol d a b s
  | .ror d a b => Sys2Proof.Machine.execRor d a b s
  | .min d a b => Sys2Proof.Machine.execMin d a b s
  | .max d a b => Sys2Proof.Machine.execMax d a b s
  | .minn d a b => Sys2Proof.Machine.execMinn d a b s
  | .maxn d a b => Sys2Proof.Machine.execMaxn d a b s
  | .slt d a b => Sys2Proof.Machine.execSlt d a b s
  | .sltn d a b => Sys2Proof.Machine.execSltn d a b s
  | .seq d a b => Sys2Proof.Machine.execSeq d a b s
  | .sne d a b => Sys2Proof.Machine.execSne d a b s
  | .clz d a => Sys2Proof.Machine.execClz d a s
  | .ctz d a => Sys2Proof.Machine.execCtz d a s
  | .popc d a => Sys2Proof.Machine.execPopc d a s
  | .brev d a => Sys2Proof.Machine.execBrev d a s
  | .bswap d a => Sys2Proof.Machine.execBswap d a s
  | .sext d a b => Sys2Proof.Machine.execSext d a b s
  | .zext d a b => Sys2Proof.Machine.execZext d a b s
  | .bfx d a b => Sys2Proof.Machine.execBfx d a b s
  | .bfi d a b => Sys2Proof.Machine.execBfi d a b s
  | .cmovz d a b => Sys2Proof.Machine.execCmovz d a b s
  | .cmovnz d a b => Sys2Proof.Machine.execCmovnz d a b s
  | .addw d a b => Sys2Proof.Machine.execAddw d a b s
  | .subw d a b => Sys2Proof.Machine.execSubw d a b s
  | .mulw d a b => Sys2Proof.Machine.execMulw d a b s
  | .shlw d a b => Sys2Proof.Machine.execShlw d a b s
  | .shrw d a b => Sys2Proof.Machine.execShrw d a b s
  | .sraw d a b => Sys2Proof.Machine.execSraw d a b s
  | .addi d a imm => Sys2Proof.Machine.execAddi d a imm s
  | .addwi d a imm => Sys2Proof.Machine.execAddwi d a imm s
  | .andi d a imm => Sys2Proof.Machine.execAndi d a imm s
  | .ori d a imm => Sys2Proof.Machine.execOri d a imm s
  | .xori d a imm => Sys2Proof.Machine.execXori d a imm s
  | .shli d a imm => Sys2Proof.Machine.execShli d a imm s
  | .shri d a imm => Sys2Proof.Machine.execShri d a imm s
  | .srai d a imm => Sys2Proof.Machine.execSrai d a imm s
  | .slti d a imm => Sys2Proof.Machine.execSlti d a imm s
  | .sltni d a imm => Sys2Proof.Machine.execSltni d a imm s
  | .li d imm => Sys2Proof.Machine.execLi d imm s
  | .lix k imm => Sys2Proof.Machine.execLix k imm s
  | .xmov d a => Sys2Proof.Machine.execXmov d a s
  | .movgx d a => Sys2Proof.Machine.execMovgx d a s
  | .xclr d => Sys2Proof.Machine.execXclr d s
  | .ldb v b o imm => Sys2Proof.Machine.execLdb v b o imm s
  | .ldbz v b o imm => Sys2Proof.Machine.execLdbz v b o imm s
  | .ldh v b o imm => Sys2Proof.Machine.execLdh v b o imm s
  | .ldhz v b o imm => Sys2Proof.Machine.execLdhz v b o imm s
  | .ldw v b o imm => Sys2Proof.Machine.execLdw v b o imm s
  | .ldwz v b o imm => Sys2Proof.Machine.execLdwz v b o imm s
  | .ldd v b o imm => Sys2Proof.Machine.execLdd v b o imm s
  | .stb v b o imm => Sys2Proof.Machine.execStb v b o imm s
  | .sth v b o imm => Sys2Proof.Machine.execSth v b o imm s
  | .stw v b o imm => Sys2Proof.Machine.execStw v b o imm s
  | .std v b o imm => Sys2Proof.Machine.execStd v b o imm s
  | .ldx d a b k o => Sys2Proof.Machine.execLdx d a b k o s
  | .stx d a b k o => Sys2Proof.Machine.execStx d a b k o s
  | .aadd d a b src o c => Sys2Proof.Machine.execAadd d a b src o c s
  | .aand d a b src o c => Sys2Proof.Machine.execAand d a b src o c s
  | .aor d a b src o c => Sys2Proof.Machine.execAor d a b src o c s
  | .axor d a b src o c => Sys2Proof.Machine.execAxor d a b src o c s
  | .amin d a b src o c => Sys2Proof.Machine.execAmin d a b src o c s
  | .amax d a b src o c => Sys2Proof.Machine.execAmax d a b src o c s
  | .aminn d a b src o c => Sys2Proof.Machine.execAminn d a b src o c s
  | .amaxn d a b src o c => Sys2Proof.Machine.execAmaxn d a b src o c s
  | .aswap d a b src o c => Sys2Proof.Machine.execAswap d a b src o c s
  | .cas d a b src o c => Sys2Proof.Machine.execCas d a b src o c s
  | .fence o c => Sys2Proof.Machine.execFence o c s
  | .fencei => Sys2Proof.Machine.execFencei s
  | .j o => Sys2Proof.Machine.execJ o s
  | .jl o => Sys2Proof.Machine.execJl o s
  | .jr a => Sys2Proof.Machine.execJr a s
  | .jlr a => Sys2Proof.Machine.execJlr a s
  | .beq a b o => Sys2Proof.Machine.execBeq a b o s
  | .bne a b o => Sys2Proof.Machine.execBne a b o s
  | .blt a b o => Sys2Proof.Machine.execBlt a b o s
  | .bge a b o => Sys2Proof.Machine.execBge a b o s
  | .bltn a b o => Sys2Proof.Machine.execBltn a b o s
  | .bgen a b o => Sys2Proof.Machine.execBgen a b o s
  | .fadd d a b f m => Sys2Proof.Machine.execFadd d a b f m s
  | .fsub d a b f m => Sys2Proof.Machine.execFsub d a b f m s
  | .fmul d a b f m => Sys2Proof.Machine.execFmul d a b f m s
  | .fdiv d a b f m => Sys2Proof.Machine.execFdiv d a b f m s
  | .fsqrt d a f m => Sys2Proof.Machine.execFsqrt d a f m s
  | .fmad d a b f m => Sys2Proof.Machine.execFmad d a b f m s
  | .fnmad d a b f m => Sys2Proof.Machine.execFnmad d a b f m s
  | .fmin d a b f => Sys2Proof.Machine.execFmin d a b f s
  | .fmax d a b f => Sys2Proof.Machine.execFmax d a b f s
  | .fneg d a f => Sys2Proof.Machine.execFneg d a f s
  | .fabs d a f => Sys2Proof.Machine.execFabs d a f s
  | .fcpys d a b f => Sys2Proof.Machine.execFcpys d a b f s
  | .feq d a b f => Sys2Proof.Machine.execFeq d a b f s
  | .flt d a b f => Sys2Proof.Machine.execFlt d a b f s
  | .fle d a b f => Sys2Proof.Machine.execFle d a b f s
  | .fclass d a f => Sys2Proof.Machine.execFclass d a f s
  | .frnd d a f m => Sys2Proof.Machine.execFrnd d a f m s
  | .fcvt d a t src m => Sys2Proof.Machine.execFcvt d a t src m s
  | .ftoi d a src m => Sys2Proof.Machine.execFtoi d a src m s
  | .fton d a src m => Sys2Proof.Machine.execFton d a src m s
  | .itof d a t m => Sys2Proof.Machine.execItof d a t m s
  | .ntof d a t m => Sys2Proof.Machine.execNtof d a t m s
  | .b8tof d a t => Sys2Proof.Machine.execB8tof d a t s
  | .ftob8 d a src => Sys2Proof.Machine.execFtob8 d a src s
  | .padd d a b h => Sys2Proof.Machine.execPadd d a b h s
  | .psub d a b h => Sys2Proof.Machine.execPsub d a b h s
  | .pmul d a b h => Sys2Proof.Machine.execPmul d a b h s
  | .padds d a b h => Sys2Proof.Machine.execPadds d a b h s
  | .psubs d a b h => Sys2Proof.Machine.execPsubs d a b h s
  | .pmin d a b h => Sys2Proof.Machine.execPmin d a b h s
  | .pmax d a b h => Sys2Proof.Machine.execPmax d a b h s
  | .pminn d a b h => Sys2Proof.Machine.execPminn d a b h s
  | .pmaxn d a b h => Sys2Proof.Machine.execPmaxn d a b h s
  | .pceq d a b h => Sys2Proof.Machine.execPceq d a b h s
  | .pcgt d a b h => Sys2Proof.Machine.execPcgt d a b h s
  | .pshuf d a b h => Sys2Proof.Machine.execPshuf d a b h s
  | .pdot d a b h => Sys2Proof.Machine.execPdot d a b h s
  | .rngp d a b => Sys2Proof.Machine.execRngp d a b s
  | .rngf64 d a => Sys2Proof.Machine.execRngf64 d a s
  | .rngf32 d a => Sys2Proof.Machine.execRngf32 d a s
  | .rpinit a b => Sys2Proof.Machine.execRpinit a b s
  | .rparr d a b => Sys2Proof.Machine.execRparr d a b s
  | .rpexp a b => Sys2Proof.Machine.execRpexp a b s
  | .rpwait d a b => Sys2Proof.Machine.execRpwait d a b s
  | .rptest d a => Sys2Proof.Machine.execRptest d a s
  | .dcdec a => Sys2Proof.Machine.execDcdec a s
  | .fres a b => Sys2Proof.Machine.execFres a b s
  | .fpois a b => Sys2Proof.Machine.execFpois a b s
  | .fwait d a b => Sys2Proof.Machine.execFwait d a b s
  | .flink a b => Sys2Proof.Machine.execFlink a b s
  | .ftest d a => Sys2Proof.Machine.execFtest d a s
  | .spawn a => Sys2Proof.Machine.execSpawn a s
  | .spawnr d a b => Sys2Proof.Machine.execSpawnr d a b s
  | .exit => Sys2Proof.Machine.execExit s
  | .yield => Sys2Proof.Machine.execYield s
  | .tkey d a b => Sys2Proof.Machine.execTkey d a b s
  | .rsset d a b => Sys2Proof.Machine.execRsset d a b s
  | .rsclr a b => Sys2Proof.Machine.execRsclr a b s
  | .rsqry d a => Sys2Proof.Machine.execRsqry d a s
  | .waitwp d w b => Sys2Proof.Machine.execWaitwp d w b s
  | .msnd a b => Sys2Proof.Machine.execMsnd a b s
  | .mrcv d b => Sys2Proof.Machine.execMrcv d b s
  | .clid d => Sys2Proof.Machine.execClid d s
  | .serve d a n r src => Sys2Proof.Machine.execServe d a n r src s
  | .strm a b => Sys2Proof.Machine.execStrm a b s
  | .strmr a => Sys2Proof.Machine.execStrmr a s
  | .copy a => Sys2Proof.Machine.execCopy a s
  | .copyp a => Sys2Proof.Machine.execCopyp a s
  | .gather a => Sys2Proof.Machine.execGather a s
  | .umbra d a b => Sys2Proof.Machine.execUmbra d a b s
  | .publish a b => Sys2Proof.Machine.execPublish a b s
  | .rcopy a => Sys2Proof.Machine.execRcopy a s
  | .talloc d a => Sys2Proof.Machine.execTalloc d a s
  | .tfree a => Sys2Proof.Machine.execTfree a s
  | .tshape d a => Sys2Proof.Machine.execTshape d a s
  | .tshget d a => Sys2Proof.Machine.execTshget d a s
  | .tld d a b => Sys2Proof.Machine.execTld d a b s
  | .tst d a b => Sys2Proof.Machine.execTst d a b s
  | .tzero d => Sys2Proof.Machine.execTzero d s
  | .tmma d a b => Sys2Proof.Machine.execTmma d a b s
  | .tadd d a b => Sys2Proof.Machine.execTadd d a b s
  | .tmul d a b => Sys2Proof.Machine.execTmul d a b s
  | .tmax d a b => Sys2Proof.Machine.execTmax d a b s
  | .trsum d a => Sys2Proof.Machine.execTrsum d a s
  | .trmax d a => Sys2Proof.Machine.execTrmax d a s
  | .texp2 d a => Sys2Proof.Machine.execTexp2 d a s
  | .tscan d a b => Sys2Proof.Machine.execTscan d a b s
  | .tcvt d a b => Sys2Proof.Machine.execTcvt d a b s
  | .tgete d a b => Sys2Proof.Machine.execTgete d a b s
  | .tsete d a b => Sys2Proof.Machine.execTsete d a b s
  | .tchain d a => Sys2Proof.Machine.execTchain d a s
  | .tsync => Sys2Proof.Machine.execTsync s
  | .cfmt d a => Sys2Proof.Machine.execCfmt d a s
  | .cstep d a b => Sys2Proof.Machine.execCstep d a b s
  | .cmerge d => Sys2Proof.Machine.execCmerge d s
  | .cdrain d a b => Sys2Proof.Machine.execCdrain d a b s
  | .cclr d => Sys2Proof.Machine.execCclr d s
  | .cdepth d a => Sys2Proof.Machine.execCdepth d a s
  | .calloc d a => Sys2Proof.Machine.execCalloc d a s
  | .cfree a => Sys2Proof.Machine.execCfree a s
  | .trap c => Sys2Proof.Machine.execTrap c s
  | .sysc d a b => Sys2Proof.Machine.execSysc d a b s
  | .eret => Sys2Proof.Machine.execEret s
  | .mfs d n => Sys2Proof.Machine.execMfs d n s
  | .mts src n => Sys2Proof.Machine.execMts src n s
  | .cyc d => Sys2Proof.Machine.execCyc d s
  | .perf d a => Sys2Proof.Machine.execPerf d a s
  | .cinv a b => Sys2Proof.Machine.execCinv a b s
  | .tlbinv a b => Sys2Proof.Machine.execTlbinv a b s
  | .brk => Sys2Proof.Machine.execBrk s
  | .nop => Sys2Proof.Machine.execNop s
  | .wake d a b => Sys2Proof.Machine.execWake d a b s
  | .halt => Sys2Proof.Machine.execHalt s
  | .udf x => Sys2Proof.Machine.execUdf x s
  | .mov16 d src => Sys2Proof.Machine.execMov16 d src s
  | .add16 d src => Sys2Proof.Machine.execAdd16 d src s
  | .sub16 d src => Sys2Proof.Machine.execSub16 d src s
  | .and16 d src => Sys2Proof.Machine.execAnd16 d src s
  | .or16 d src => Sys2Proof.Machine.execOr16 d src s
  | .xor16 d src => Sys2Proof.Machine.execXor16 d src s
  | .shl16 d src => Sys2Proof.Machine.execShl16 d src s
  | .shr16 d src => Sys2Proof.Machine.execShr16 d src s
  | .sra16 d src => Sys2Proof.Machine.execSra16 d src s
  | .ldd16 d src => Sys2Proof.Machine.execLdd16 d src s
  | .std16 d src => Sys2Proof.Machine.execStd16 d src s
  | .ldw16 d src => Sys2Proof.Machine.execLdw16 d src s
  | .stw16 d src => Sys2Proof.Machine.execStw16 d src s
  | .jr16 src => Sys2Proof.Machine.execJr16 src s
  | .jlr16 src => Sys2Proof.Machine.execJlr16 src s
  | .nop16 => Sys2Proof.Machine.execNop16 s
  | .ret16 => Sys2Proof.Machine.execRet16 s
  | .exit16 => Sys2Proof.Machine.execExit16 s
  | .yield16 => Sys2Proof.Machine.execYield16 s
  | .addi16 d imm => Sys2Proof.Machine.execAddi16 d imm s
  | .li16 d imm => Sys2Proof.Machine.execLi16 d imm s
  | .shli16 d imm => Sys2Proof.Machine.execShli16 d imm s
  | .shri16 d imm => Sys2Proof.Machine.execShri16 d imm s
  | .ldsp d imm => Sys2Proof.Machine.execLdsp d imm s
  | .stsp d imm => Sys2Proof.Machine.execStsp d imm s
  | .beqz d imm => Sys2Proof.Machine.execBeqz d imm s
  | .bnez d imm => Sys2Proof.Machine.execBnez d imm s
  | .j16 imm => Sys2Proof.Machine.execJ16 imm s
  | .jl16 imm => Sys2Proof.Machine.execJl16 imm s
  | .trap16 imm => Sys2Proof.Machine.execTrap16 imm s
  | .illegalEncoding cause w => Sys2Proof.Machine.execIllegalEncoding cause w s
  | .instructionFetchFault => Sys2Proof.Machine.execInstructionFetchFault s
  | .taskForwardArrive die => Sys2Proof.Machine.execTaskForwardArrive die s
  | .taskDispatch cl => Sys2Proof.Machine.execTaskDispatch cl s
  | .rangeInstancePlace p die => Sys2Proof.Machine.execRangeInstancePlace p die s
  | .rangeSteal p die => Sys2Proof.Machine.execRangeSteal p die s
  | .taskAging cl => Sys2Proof.Machine.execTaskAging cl s
  | .checkpointTake t => Sys2Proof.Machine.execCheckpointTake t s
  | .summitHolderDispatch p c => Sys2Proof.Machine.execSummitHolderDispatch p c s
  | .summitReport die p c => Sys2Proof.Machine.execSummitReport die p c s
  | .commit p c => Sys2Proof.Machine.execCommit p c s
  | .irrevocableCommit p c => Sys2Proof.Machine.execIrrevocableCommit p c s
  | .tileRequestGrant cl => Sys2Proof.Machine.execTileRequestGrant cl s
  | .tileQueueExecute u => Sys2Proof.Machine.execTileQueueExecute u s
  | .tchainMessageArrive cl => Sys2Proof.Machine.execTchainMessageArrive cl s
  | .directoryUpdate die => Sys2Proof.Machine.execDirectoryUpdate die s
  | .memoryAccessRetire t => Sys2Proof.Machine.execMemoryAccessRetire t s
  | .rdcInvalidate die => Sys2Proof.Machine.execRdcInvalidate die s
  | .walkComplete n => Sys2Proof.Machine.execWalkComplete n s
  | .engineLineDeliver r => Sys2Proof.Machine.execEngineLineDeliver r s
  | .engineComplete r => Sys2Proof.Machine.execEngineComplete r s
  | .publishFlip p u => Sys2Proof.Machine.execPublishFlip p u s
  | .imageFetchDone cl f => Sys2Proof.Machine.execImageFetchDone cl f s
  | .imageLoadDone cl f => Sys2Proof.Machine.execImageLoadDone cl f s
  | .packetEntry cl f => Sys2Proof.Machine.execPacketEntry cl f s
  | .elementFire cl f e => Sys2Proof.Machine.execElementFire cl f e s
  | .ageAccessComplete cl f e => Sys2Proof.Machine.execAgeAccessComplete cl f e s
  | .delayEmit cl f e => Sys2Proof.Machine.execDelayEmit cl f e s
  | .streamEngineEmit cl f e => Sys2Proof.Machine.execStreamEngineEmit cl f e s
  | .serveResultsReturn cl f => Sys2Proof.Machine.execServeResultsReturn cl f s
  | .streamComplete cl f => Sys2Proof.Machine.execStreamComplete cl f s
  | .streamFatalStop cl f => Sys2Proof.Machine.execStreamFatalStop cl f s
  | .fabricRelease cl f => Sys2Proof.Machine.execFabricRelease cl f s
  | .rateWindow => Sys2Proof.Machine.execRateWindow s
  | .belayGrant die => Sys2Proof.Machine.execBelayGrant die s
  | .belayStretchLimit die => Sys2Proof.Machine.execBelayStretchLimit die s
  | .tailDoorbell p q v => Sys2Proof.Machine.execTailDoorbell p q v s
  | .svcheadWrite p v => Sys2Proof.Machine.execSvcheadWrite p v s
  | .eventHandoff core => Sys2Proof.Machine.execEventHandoff core s
  | .pad p q => Sys2Proof.Machine.execPad p q s
  | .nopPacket p q => Sys2Proof.Machine.execNopPacket p q s
  | .launch p q => Sys2Proof.Machine.execLaunch p q s
  | .signalResolve p q => Sys2Proof.Machine.execSignalResolve p q s
  | .signalRopeBytes p q => Sys2Proof.Machine.execSignalRopeBytes p q s
  | .signalBadKind p q => Sys2Proof.Machine.execSignalBadKind p q s
  | .waitf p q => Sys2Proof.Machine.execWaitf p q s
  | .waitfResolved p q => Sys2Proof.Machine.execWaitfResolved p q s
  | .reply p q => Sys2Proof.Machine.execReply p q s
  | .queueSwitchOut p q => Sys2Proof.Machine.execQueueSwitchOut p q s
  | .queueSwitchIn p q => Sys2Proof.Machine.execQueueSwitchIn p q s
  | .watchdogExpire core => Sys2Proof.Machine.execWatchdogExpire core s
  | .watchdogRecovery core => Sys2Proof.Machine.execWatchdogRecovery core s
  | .hostCxlMemAccess write pa size v => Sys2Proof.Machine.execHostCxlMemAccess write pa size v s
  | .atsPageResponse t kind => Sys2Proof.Machine.execAtsPageResponse t kind s
  | .rcopyRemoteArrival p rdst data last rtgt pub len => Sys2Proof.Machine.execRcopyRemoteArrival p rdst data last rtgt pub len s
  | .pdescWrite p v => Sys2Proof.Machine.execPdescWrite p v s
  | .pshareWrite p v => Sys2Proof.Machine.execPshareWrite p v s
  | .umbpoolWrite p v => Sys2Proof.Machine.execUmbpoolWrite p v s
  | .sdctlShootdown p v => Sys2Proof.Machine.execSdctlShootdown p v s
  | .shootdownReceive p cl => Sys2Proof.Machine.execShootdownReceive p cl s
  | .s2Install p v => Sys2Proof.Machine.execS2Install p v s
  | .s2Free p v => Sys2Proof.Machine.execS2Free p v s
  | .s2Protect p v => Sys2Proof.Machine.execS2Protect p v s
  | .s2cmdUnassigned p v => Sys2Proof.Machine.execS2cmdUnassigned p v s
  | .frameScrubDone p => Sys2Proof.Machine.execFrameScrubDone p s
  | .protectWritebackDone p => Sys2Proof.Machine.execProtectWritebackDone p s
  | .s2wakeWrite p v => Sys2Proof.Machine.execS2wakeWrite p v s
  | .ctxcmdSliceEnd p v => Sys2Proof.Machine.execCtxcmdSliceEnd p v s
  | .terminatorTokenArrive p l => Sys2Proof.Machine.execTerminatorTokenArrive p l s
  | .ctxcmdStop p v => Sys2Proof.Machine.execCtxcmdStop p v s
  | .ctxcmdFabricDrain p v => Sys2Proof.Machine.execCtxcmdFabricDrain p v s
  | .ctxcmdDirtyReport p v => Sys2Proof.Machine.execCtxcmdDirtyReport p v s
  | .ctxcmdIgnored p v => Sys2Proof.Machine.execCtxcmdIgnored p v s
  | .fabricHangReport cl f => Sys2Proof.Machine.execFabricHangReport cl f s
  | .functionLevelReset p => Sys2Proof.Machine.execFunctionLevelReset p s
  | .pcapWrite v => Sys2Proof.Machine.execPcapWrite v s
  | .watchSample => Sys2Proof.Machine.execWatchSample s
  | .patrolScrub w found => Sys2Proof.Machine.execPatrolScrub w found s
  | .datapathErrorLate cl => Sys2Proof.Machine.execDatapathErrorLate cl s
  | .deviceResetBoot image => Sys2Proof.Machine.execDeviceResetBoot image s
  | .registerWrite sp off v => Sys2Proof.Machine.execRegisterWrite sp off v s
  | .queueRearm p q => Sys2Proof.Machine.execQueueRearm p q s
  | .cxlLinkTraining width rate => Sys2Proof.Machine.execCxlLinkTraining width rate s
  | .flitCrcReplay link => Sys2Proof.Machine.execFlitCrcReplay link s
  | .spdmRequest nonce => Sys2Proof.Machine.execSpdmRequest nonce s
  | .recoveryImageWrite image => Sys2Proof.Machine.execRecoveryImageWrite image s
  | .vfResetComplete p => Sys2Proof.Machine.execVfResetComplete p s

end Sys2Proof.Machine
end

