-- ==== Sys2Proof/Machine/Units.lean ====
section
/-! DEFINITION. The steps that the device's units take by themselves, each the meaning of a row of the table; what time makes due;
whose turn is next; and how an instruction is placed for a fetch (log 1, log 13). -/

namespace Sys2Proof.Machine

/-- A thread context named on the agenda. -/
def unitTid (a b c : Nat) : Tid := { kind := coreKindOf a, unit := b, slot := c }

/-- The packet at the head of a queue, by its type; a header that halts the queue, or none, is `PAD`'s to meet (21 R380, R381). -/
def State.runPacket (s : State) (p q : Nat) : Out :=
  match s.queueHead p q (s.readState p q 0) with
  | .pkt k =>
    (match k.type with
      | 1 => execPad p q s
      | 2 => execNopPacket p q s
      | 3 => execLaunch p q s
      | 4 => (match s.signalKind k with
        | 0 => execSignalResolve p q s
        | 1 => execSignalRopeBytes p q s
        | _ => execSignalBadKind p q s)
      | 5 => execWaitf p q s
      | _ => execReply p q s)
  | _ => execPad p q s

/-- The work that an event asks for on a queue, which a core does within the event; an update of the control block goes on by itself
(21 R386, R393, R394). -/
def State.runQueue (s : State) (p q work : Nat) : Out :=
  if work = 7 then .next (s.writeQcb p q)
  else if (s.coreOfQueue p q).isNone then .next s
  else match work with
  | 2 => execWaitfResolved p q s
  | 3 => execQueueSwitchOut p q s
  | 4 => execQueueSwitchIn p q s
  | 6 => (match s.coreOfQueue p q with
    | some c => execWatchdogRecovery c s
    | none => .next s)
  | _ => s.runPacket p q

/-- A step of a unit. -/
def State.runUnit (s : State) (k : UnitKind) (a b c : Nat) : Out :=
  match k with
  | .dispatch => execTaskDispatch a s
  | .checkpoint => execCheckpointTake (unitTid a b c) s
  | .holderDispatch => execSummitHolderDispatch a b s
  | .forwardArrive => execTaskForwardArrive a s
  | .rangePlace => execRangeInstancePlace a b s
  | .rangeSteal => execRangeSteal a b s
  | .report => execSummitReport a b c s
  | .commit => execCommit a b s
  | .irrevocable => execIrrevocableCommit a b s
  | .grant => execTileRequestGrant a s
  | .tileExec => execTileQueueExecute a s
  | .chainArrive => execTchainMessageArrive a s
  | .dirUpdate => execDirectoryUpdate a s
  | .retire => execMemoryAccessRetire (unitTid a b c) s
  | .rdcInv => execRdcInvalidate a s
  | .walkDone => execWalkComplete a s
  | .lineDeliver => execEngineLineDeliver a s
  | .engineDone => execEngineComplete a s
  | .flip => execPublishFlip a b s
  | .imageFetch => execImageFetchDone a b s
  | .imageLoad => execImageLoadDone a b s
  | .packetEntry => execPacketEntry a b s
  | .fire => execElementFire a b c s
  | .ageDone => execAgeAccessComplete a b c s
  | .delayEmit => execDelayEmit a b c s
  | .streamEmit => execStreamEngineEmit a b c s
  | .results => execServeResultsReturn a b s
  | .streamDone => execStreamComplete a b s
  | .streamFatal => execStreamFatalStop a b s
  | .fabRelease => execFabricRelease a b s
  | .belay => execBelayGrant a s
  | .handoff => execEventHandoff a s
  | .packet => s.runQueue a b c
  | .shootdown => execShootdownReceive a b s
  | .scrubDone => execFrameScrubDone a s
  | .writebackDone => execProtectWritebackDone a s
  | .token => execTerminatorTokenArrive a b s
  | .watchdog => execWatchdogExpire a s
  | .waitf => .next (s.futureEvent a b)
  | .aging => execTaskAging a s
  | .rateWindow => execRateWindow s
  | .watchSample => execWatchSample s
  | .stretch => execBelayStretchLimit a s
  | .hang => execFabricHangReport a b s
  | .engineAhead => .next (s.runAhead a)
  | .unpause => .next (s.unpause a)
  | .inbound => .next s.serveInbound
  | .assignQueue => .next (s.reassignQueue a b)
  | .setDecoder => .next (s.setDecoder a)
  | .decrement => .next (s.commitDecrement a b ((s.part a).globalCl 0) (word c))

/-! ### What time makes due (log 3) -/

/-- A period of n ticks has ended between two times. -/
def crossed (n before now : Nat) : Bool := before / n != now / n

/-- The steps that are due at a time after another: windows of the rate limits (11 R288), reports (13 R311), samples (23 R427),
the watchdog (21 R395), the belay's stretch (23 R425), hung fabrics (22 R419) and aging (01 R29). -/
def State.dueMoves (s : State) (before now : Nat) : List Move :=
  let rate := crossed 1024 before now && s.clusters.any fun e => !e.2.fabrics.isEmpty
  let reports : List Move := if crossed 512 before now then
      s.parts.flatMap fun e => e.2.ctxs.flatMap fun c => e.2.dies.map fun d => .unit .report d e.1 c.1
    else []
  let dogs : List Move := s.cmds.filterMap fun e =>
    if e.2.event.isSome ∧ e.2.since + watchdogTicks ≤ now then some (.unit .watchdog e.1 0 0) else none
  let stretches : List Move := s.dies.filterMap fun e => match e.2.aboveSince with
    | some t => if t + stretchTicks ≤ now ∧ !e.2.stretch then some (.unit .stretch e.1 0 0) else none
    | none => none
  let hangs : List Move := s.clusters.flatMap fun e => e.2.fabrics.filterMap fun f =>
    if f.2.occupancy ≠ 0 ∧ f.2.firedAt + hangTicks ≤ now then some (.unit .hang e.1 f.1 0) else none
  let ages : List Move := s.clusters.filterMap fun e =>
    if e.2.readyQ.any fun q => decide (q.agedAt ≤ now ∧ q.prio < 7) then some (.unit .aging e.1 0 0) else none
  (if rate then [.unit .rateWindow 0 0 0] else []) ++ reports ++
    (if crossed 4096 before now && s.boot == .running then [.unit .watchSample 0 0 0] else []) ++
    dogs ++ stretches ++ hangs ++ ages

/-- A step takes its time, and what that makes due is on the agenda, once. -/
def State.passTime (s : State) : State :=
  let t := s.spend
  { t with agenda := t.agenda ++ (t.dueMoves s.tick t.tick).filter fun m => !s.agenda.contains m }

/-! ### Whose turn is next (01 R16; log 1) -/

/-- The ready thread that issues next: any of them, the running one included, but in the end the one that has waited longest, which
stands first in `others` (19 R347). -/
def State.turn (s : State) : State :=
  let ready := s.others.filter fun th => decide (th.wait = .ready)
  if ready.isEmpty then s
  else
    let r := s.freeW
    let k := if s.rotation = 0 then 0 else r.1.toNat % (ready.length + if s.ready then 1 else 0)
    let t := { r.2 with rotation := if s.rotation = 0 then r.1.toNat % 2 ^ 16 else s.rotation - 1 }
    match ready[k]? with
    | none => t
    | some th => t.focus th.id

/-- The end of a step in which a thread has had its turn: the next thread's turn, and the time that has passed. -/
def State.endStep (s : State) : State := s.turn.passTime

/-- The end of a step in which the running thread has not had its turn, which it keeps while it is ready. -/
def State.endMove (s : State) : State := if s.ready then s.passTime else s.endStep

/-- A thread takes part in the rotation somewhere. -/
def State.anyReady (s : State) : Bool := s.threads.any fun th => decide (th.wait = .ready)

/-- The line at whose home a move ends a wait. -/
def State.retiring (s : State) (m : Move) : Option (Nat × Nat) :=
  match m with
  | .unit .retire a b c =>
    (s.thread? (unitTid a b c)).bind fun th => match th.wait with
      | .access _ (.dram p g) => some (p, g / 64)
      | .home (.dram p g) => some (p, g / 64)
      | _ => none
  | _ => none

/-- The place on the agenda of the move that is made when the k-th is chosen: accesses to one line retire in the order of their arrival
at its home (07 R151). -/
def State.arrivalOrder (s : State) (k : Nat) : Nat :=
  match s.agenda[k]?.bind s.retiring with
  | none => k
  | some line => (findIdx? (fun m => s.retiring m == some line) s.agenda).getD k

/-- What moves next where the agenda is not empty: one of its moves, which leaves it, or the thread whose turn it is. The choice is
free, but in the end the thread has its turn, and then the oldest move (19 R347). -/
def State.choose (s : State) : Option Move × State :=
  let r := s.freeW
  let free := r.1.toNat % (s.agenda.length + if s.anyReady then 1 else 0)
  let k := if s.patience = 0 then 0 else if s.patience = 1 ∧ s.anyReady then s.agenda.length else free
  let k := s.arrivalOrder k
  let t := { r.2 with patience := if s.patience = 0 then 1 + r.1.toNat % 2 ^ 16 else s.patience - 1 }
  match s.agenda[k]? with
  | none => (none, t)
  | some m => (some m, { t with agenda := s.agenda.eraseIdx k })

/-! ### Placing an instruction for the next fetch (log 13) -/

/-- The guest-physical address of the page that a placed instruction takes: guest frame 1 of logical column 0. -/
def codeGpa : Nat := 2 ^ 25

/-- The task under which a placed instruction runs where no task holds the context: partition 0, context 0. -/
def Task.placed (now : Nat) : Task :=
  { uid := 0, part := 0, ctx := 0, hdr := 0, reg := 0, idx := 0, cls := .free, key := 0, prio := 0, dispatched := now,
    ranBefore := 0, retired := 0, exitAt := none, sig := 0, irrevocable := false, accessed := false, finished := none, pubs := [], host := none,
    loader := none }

/-- A guest frame mapped at stage 2, if it is not. -/
def State.backFrame (s : State) (p gpa : Nat) : State :=
  if (s.s2 p gpa).isSome then s
  else
    let key := frameKey (s.columnOfGpa p gpa) (frameOf gpa)
    { s with
      s2map := s.s2map.put key { w := true, frame := frameOf gpa }
      frames := s.frames.put key (.owned (s.part p).vmid) }

/-- One page of code: its translation is in the thread's TLB, its frame is mapped, and bytes from an address stand in it; no cache
holds an older copy of their lines. -/
def State.placePage (s : State) (va : Word) (gpa : Nat) (bs : List Byte) : State :=
  let p := s.curPart
  let e : TlbEntry := { host := s.hostPasid.isSome, hdm := true, vmid := (s.part p).vmid, asid := s.hostPasid.getD (s.asid p s.curCtx), glob := true,
                        va := va.toNat / 2 ^ 16 * 2 ^ 16, bits := 16, gpa := gpa, r := true, w := true, x := true, u := true,
                        d := true, leaf := 0 }
  let s := s.tlbFill (s.tlbOf s.cur) (coreOfThread s.cur.id) e
  let g := s.selected p (e.gpaOf va)
  let s := s.backFrame p g
  let s := (s.pokeBytes (.dram p g) bs).clearPoison (.dram p (g - g % 8)) 16
  let stale (c : Line) : Bool := c.vmid == (s.part p).vmid && (c.line == g / 64 || c.line == (g + 3) / 64)
  let hides (x : SsbLine) : Bool := decide (x.loc = .dram p (g - g % 64)) || decide (x.loc = .dram p (g + 3 - (g + 3) % 64))
  let s := s.mapCluster s.curCluster fun c => { c with l1 := c.l1.filter fun x => !stale x, ssb := c.ssb.filter fun x => !hides x }
  s.mapDie (dieOfCluster s.curCluster) fun d => { d with rdc := d.rdc.filter fun x => !stale x }

/-- The bytes of an instruction placed where the running context fetches next. -/
def State.placeCode (s : State) (bs : List Byte) : State :=
  let s := { s with agenda := [], cur := { s.cur with wait := .ready, ckpt := false, mid := false } }
  match s.cur.id.kind with
  | .command =>
    let a := if populated s.pc.toNat ∧ populated (s.pc.toNat + 3) then s.pc.toNat else 0
    { s with mem := s.mem.writeBytes a bs, cur := { s.cur with regs := { s.cur.regs with pc := word a } } }
  | _ =>
    let s := { s with cur := { s.cur with task := some (s.cur.task.getD (Task.placed s.tick)), fenced := s.tick, synced := s.tick } }
    let p := s.curPart
    let col := columnOf s.curCluster
    let s := if (s.part p).enabled then s
      else s.mapPart p fun t => { t with pdesc := word (2 ^ 63 + col * 2 ^ 8 + col) }
    let paged (va : Word) : Bool := decide (s.place p s.curCluster va = .paged)
    let s := if paged s.pc ∧ paged (s.pc + 2) ∧ !bit s.pc 0 then s else s.setPc 0
    let room := 2 ^ 16 - s.pc.toNat % 2 ^ 16
    if bs.length ≤ room then s.placePage s.pc codeGpa bs
    else (s.placePage s.pc codeGpa (bs.take room)).placePage (s.pc + word room) (codeGpa + 2 ^ 16) (bs.drop room)

end Sys2Proof.Machine
end

