-- ==== Sys2Proof/Machine/Step.lean ====
section
/-! DEFINITION. One step of the device: a move of the agenda, or the instruction of the thread whose turn it is (log 1). -/

namespace Sys2Proof.Machine

/-- The running thread fetches and executes one instruction; one that is chosen for a checkpoint is parked instead (01 R33). -/
def State.threadStep (s : State) : Out :=
  let s := s.checkpointDue
  if s.ready then s.fetch.andThen exec else .next s

/-- A move of the agenda: a step of the host or the outside world, of a unit, or of a thread named. -/
def State.runMove (s : State) (m : Move) : Out :=
  match m with
  | .event i => if s.answers i then exec i s else .next s
  | .unit k a b c => s.runUnit k a b c
  | .issue t => (s.focus t).threadStep

/-- A move in which the running thread has its turn. -/
def Move.turns : Move → Bool
  | .issue _ => true
  | _ => false

/-- The end of a step that has a next state; `turn` says that the running thread has had its turn in it. -/
def finishStep (turn : Bool) (o : Out) : Out :=
  match o with
  | .next s => .next (if turn then s.endStep else s.endMove)
  | .fault f => .fault f
  | .refused r => .refused r

/-- One step of the device. -/
def step (s : State) : Host.Outcome State Fault Refusal :=
  match s.agenda with
  | [] => finishStep true s.threadStep
  | _ :: _ =>
    match s.choose with
    | (none, s) => finishStep true s.threadStep
    | (some m, s) => finishStep m.turns (s.runMove m)

/-- The state with an instruction of the opcode table stored where `step` fetches its next one; the bits above it are zero. -/
def State.withFetchWord (s : State) (nbits w : Nat) : State :=
  s.placeCode ((tableBytes nbits w ++ [0, 0]).take 4)

end Sys2Proof.Machine
end

