-- ==== Sys2Proof/Certificates/Slice0/Obligations.lean ====
section
/-! DEFINITION. The statements for the provers: the words they use, then one `Obligations.<Name>` each. -/

namespace Sys2Proof.Claims

open Sys2Proof Sys2Proof.Machine

/-! ### The words of the frames -/

/-- Outside the running thread's context the device is the same: no memory, no other thread, no unit has changed. -/
def OnlyThread (s t : State) : Prop := t = { s with cur := t.cur }

/-- The running context goes on: it has the same name, queue and state, its instruction has retired, and its task counts one more
retired instruction. -/
def GoesOn (s t : State) : Prop :=
  t.cur = { s.cur with regs := t.cur.regs, mid := false, task := s.cur.task.map fun k => { k with retired := k.retired + 1 } }

/-- The running context goes on, as in `GoesOn`; where the instruction acts as an acquire, that is noted with it (12 R302). -/
def GoesOnAcq (s t : State) (acq : Bool) : Prop :=
  t.cur = { s.cur with
    regs := t.cur.regs, mid := false, acquired := if acq then s.tick else s.cur.acquired
    task := s.cur.task.map fun k => { k with retired := k.retired + 1 } }

/-- The running task is free, or it has made its first access already, which acts as an acquire in an ordered task (13 R315). -/
def Warm (s : State) : Prop := ∀ k, s.cur.task = some k → k.cls = .ordered → k.accessed = true

/-- The trap registers and `EVENT` are the same. -/
def SameTrapRegs (a b : Regs) : Prop :=
  b.tvec = a.tvec ∧ b.tpc = a.tpc ∧ b.tkind = a.tkind ∧ b.taddr = a.taddr ∧ b.tinfo = a.tinfo ∧ b.tnest = a.tnest ∧
  b.tsave = a.tsave ∧ b.event = a.event

/-- Every byte of every memory reads as before. -/
def SameBytes (s t : State) : Prop := ∀ l : Loc, t.byteAt l = s.byteAt l

/-- Of the `g` registers only g[d] is written, with v; a write of g0 is discarded (03 R80). -/
def GivesG (s t : State) (d : Reg) (v : Word) : Prop := ∀ r : Reg, t.g r = if r = d ∧ d ≠ 0 then v else s.g r

/-- The frame of an instruction that may write `g` and `x` registers and flags: nothing else of the thread but the PC, which
is `pc` afterwards, and nothing of the device differs. -/
structure RegFrame (s t : State) (pc : Word) : Prop where
  pcIs   : t.pc = pc
  trap   : SameTrapRegs s.cur.regs t.cur.regs
  thread : GoesOn s t
  device : OnlyThread s t
  memory : SameBytes s t

/-- The instruction answers a next state in which only g[d] is written, with v, and the PC has advanced by `len`. -/
def Writes (o : Out) (s : State) (d : Reg) (v : Word) (len : Nat) : Prop :=
  ∃ t, o = .next t ∧ GivesG s t d v ∧ (∀ k, t.x k = s.x k) ∧ t.cur.regs.status = s.cur.regs.status ∧
    RegFrame s t (s.pc + word len)

/-- The instruction answers a next state in which only x[d] is written, with v, and the PC has advanced by `len`. -/
def WritesX (o : Out) (s : State) (d : XReg) (v : Word) (len : Nat) : Prop :=
  ∃ t, o = .next t ∧ (∀ r, t.g r = s.g r) ∧ (∀ k, t.x k = if k = d then v else s.x k) ∧
    t.cur.regs.status = s.cur.regs.status ∧ RegFrame s t (s.pc + word len)

/-- The instruction answers a next state in which no register but the PC is written. -/
def OnlyPc (o : Out) (s : State) (pc : Word) : Prop :=
  ∃ t, o = .next t ∧ (∀ r, t.g r = s.g r) ∧ (∀ k, t.x k = s.x k) ∧ t.cur.regs.status = s.cur.regs.status ∧
    RegFrame s t pc

/-- The smallest signed 64-bit number. -/
def minWord : Word := BitVec.ofNat 64 (2 ^ 63)

/-! ### The integer instructions: destination, and what the value written has to satisfy -/

/-- One row of R116: A and B are the sources, D the old value of g[d]. -/
def intRow (A B D v : Word) : Instr → Prop
  | .add _ _ _ => v.toNat = (A.toNat + B.toNat) % 2 ^ 64
  | .sub _ _ _ => (v.toNat + B.toNat) % 2 ^ 64 = A.toNat
  | .mul _ _ _ => v.toNat = A.toNat * B.toNat % 2 ^ 64
  | .mulh _ _ _ => v.toInt = A.toInt * B.toInt / 2 ^ 64
  | .mulhn _ _ _ => v.toNat = A.toNat * B.toNat / 2 ^ 64
  | .div _ _ _ =>
    if B = 0 then v = BitVec.allOnes 64 else if A = minWord ∧ B = BitVec.allOnes 64 then v = minWord
    else v.toInt = A.toInt.tdiv B.toInt
  | .divn _ _ _ => if B = 0 then v = BitVec.allOnes 64 else v.toNat = A.toNat / B.toNat
  | .rem _ _ _ =>
    if B = 0 then v = A else if A = minWord ∧ B = BitVec.allOnes 64 then v = 0 else v.toInt = A.toInt.tmod B.toInt
  | .remn _ _ _ => if B = 0 then v = A else v.toNat = A.toNat % B.toNat
  | .and _ _ _ => ∀ i < 64, v.getLsbD i = (A.getLsbD i && B.getLsbD i)
  | .or _ _ _ => ∀ i < 64, v.getLsbD i = (A.getLsbD i || B.getLsbD i)
  | .xor _ _ _ => ∀ i < 64, v.getLsbD i = (A.getLsbD i != B.getLsbD i)
  | .andn _ _ _ => ∀ i < 64, v.getLsbD i = (A.getLsbD i && !B.getLsbD i)
  | .orn _ _ _ => ∀ i < 64, v.getLsbD i = (A.getLsbD i || !B.getLsbD i)
  | .shl _ _ _ => v.toNat = A.toNat * 2 ^ (B.toNat % 64) % 2 ^ 64
  | .shr _ _ _ => v.toNat = A.toNat / 2 ^ (B.toNat % 64)
  | .sra _ _ _ => v.toInt = A.toInt / 2 ^ (B.toNat % 64)
  | .rol _ _ _ => ∀ i < 64, v.getLsbD ((i + B.toNat % 64) % 64) = A.getLsbD i
  | .ror _ _ _ => ∀ i < 64, v.getLsbD i = A.getLsbD ((i + B.toNat % 64) % 64)
  | .min _ _ _ => v.toInt = min A.toInt B.toInt
  | .max _ _ _ => v.toInt = max A.toInt B.toInt
  | .minn _ _ _ => v.toNat = min A.toNat B.toNat
  | .maxn _ _ _ => v.toNat = max A.toNat B.toNat
  | .slt _ _ _ => v = if A.toInt < B.toInt then 1 else 0
  | .sltn _ _ _ => v = if A.toNat < B.toNat then 1 else 0
  | .seq _ _ _ => v = if A = B then 1 else 0
  | .sne _ _ _ => v = if A = B then 0 else 1
  | .clz _ _ => v.toNat ≤ 64 ∧ (∀ i < 64, 64 ≤ i + v.toNat → A.getLsbD i = false) ∧
      (v.toNat < 64 → A.getLsbD (63 - v.toNat) = true)
  | .ctz _ _ => v.toNat ≤ 64 ∧ (∀ i < v.toNat, A.getLsbD i = false) ∧ (v.toNat < 64 → A.getLsbD v.toNat = true)
  | .popc _ _ => v.toNat = ((List.range 64).filter fun i => A.getLsbD i).length
  | .brev _ _ => ∀ i < 64, v.getLsbD i = A.getLsbD (63 - i)
  | .bswap _ _ => ∀ i < 8, ∀ j < 8, v.getLsbD (8 * i + j) = A.getLsbD (8 * (7 - i) + j)
  | .sext _ _ _ => ∀ i < 64, v.getLsbD i = A.getLsbD (min i (B.toNat % 64))
  | .zext _ _ _ => ∀ i < 64, v.getLsbD i = (decide (i ≤ B.toNat % 64) && A.getLsbD i)
  | .bfx _ _ _ => ∀ i < 64, v.getLsbD i = (decide (i < fieldLen B) && A.getLsbD (i + B.toNat % 64))
  | .bfi _ _ _ => ∀ i < 64, v.getLsbD i =
      if B.toNat % 64 ≤ i ∧ i < B.toNat % 64 + fieldLen B then A.getLsbD (i - B.toNat % 64) else D.getLsbD i
  | .cmovz _ _ _ => v = if B = 0 then A else D
  | .cmovnz _ _ _ => v = if B = 0 then D else A
  | .addw _ _ _ => v.toInt = (A.toInt + B.toInt).bmod (2 ^ 32)
  | .subw _ _ _ => v.toInt = (A.toInt - B.toInt).bmod (2 ^ 32)
  | .mulw _ _ _ => v.toInt = (A.toInt * B.toInt).bmod (2 ^ 32)
  | .shlw _ _ _ => v.toInt = Int.bmod (A.toNat * 2 ^ (B.toNat % 32)) (2 ^ 32)
  | .shrw _ _ _ => v.toInt = Int.bmod (A.toNat % 2 ^ 32 / 2 ^ (B.toNat % 32)) (2 ^ 32)
  | .sraw _ _ _ => v.toInt = A.toInt.bmod (2 ^ 32) / 2 ^ (B.toNat % 32)
  | _ => False

/-- The registers that an instruction of the `INT` major names: d, a and b; the unary ones have b = 0. -/
def intFields : Instr → Option (Reg × Reg × Reg)
  | .add d a b => some (d, a, b)
  | .sub d a b => some (d, a, b)
  | .mul d a b => some (d, a, b)
  | .mulh d a b => some (d, a, b)
  | .mulhn d a b => some (d, a, b)
  | .div d a b => some (d, a, b)
  | .divn d a b => some (d, a, b)
  | .rem d a b => some (d, a, b)
  | .remn d a b => some (d, a, b)
  | .and d a b => some (d, a, b)
  | .or d a b => some (d, a, b)
  | .xor d a b => some (d, a, b)
  | .andn d a b => some (d, a, b)
  | .orn d a b => some (d, a, b)
  | .shl d a b => some (d, a, b)
  | .shr d a b => some (d, a, b)
  | .sra d a b => some (d, a, b)
  | .rol d a b => some (d, a, b)
  | .ror d a b => some (d, a, b)
  | .min d a b => some (d, a, b)
  | .max d a b => some (d, a, b)
  | .minn d a b => some (d, a, b)
  | .maxn d a b => some (d, a, b)
  | .slt d a b => some (d, a, b)
  | .sltn d a b => some (d, a, b)
  | .seq d a b => some (d, a, b)
  | .sne d a b => some (d, a, b)
  | .sext d a b => some (d, a, b)
  | .zext d a b => some (d, a, b)
  | .bfx d a b => some (d, a, b)
  | .bfi d a b => some (d, a, b)
  | .cmovz d a b => some (d, a, b)
  | .cmovnz d a b => some (d, a, b)
  | .addw d a b => some (d, a, b)
  | .subw d a b => some (d, a, b)
  | .mulw d a b => some (d, a, b)
  | .shlw d a b => some (d, a, b)
  | .shrw d a b => some (d, a, b)
  | .sraw d a b => some (d, a, b)
  | .clz d a => some (d, a, 0)
  | .ctz d a => some (d, a, 0)
  | .popc d a => some (d, a, 0)
  | .brev d a => some (d, a, 0)
  | .bswap d a => some (d, a, 0)
  | _ => none

end Sys2Proof.Claims

open Sys2Proof Sys2Proof.Machine Sys2Proof.Claims

/-! ### The integer and immediate majors -/

/-- R116, R117 and R44: every instruction of the `INT` major completes in every state, writes g[d] with the value of its row,
and leaves every other register, every flag, every special register, all memory and every other unit alone. -/
def Obligations.IntegerMajorGivesItsRow : Prop :=
  ∀ (i : Instr) (d a b : Reg) (s : State), intFields i = some (d, a, b) →
    ∃ v, intRow (s.g a) (s.g b) (s.g d) v i ∧ Writes (exec i s) s d v 4

/-- R118 and R119: the immediate majors and `LI` complete in every state, write g[d] with the value of their row, and leave
everything else alone. -/
def Sys2Proof.Claims.ImmediatesGiveTheirRow : Prop :=
  ∀ (d a : Reg) (imm : BitVec 14) (sh : BitVec 6) (imm19 : BitVec 19) (s : State),
    let A := s.g a
    let gives (i : Instr) (p : Word → Prop) : Prop := ∃ v, p v ∧ Writes (exec i s) s d v 4
    gives (.addi d a imm) (fun v => v.toInt = (A.toInt + imm.toInt).bmod (2 ^ 64)) ∧
    gives (.addwi d a imm) (fun v => v.toInt = (A.toInt + imm.toInt).bmod (2 ^ 32)) ∧
    gives (.andi d a imm) (fun v => ∀ i < 64, v.getLsbD i = (A.getLsbD i && imm.getLsbD (min i 13))) ∧
    gives (.ori d a imm) (fun v => ∀ i < 64, v.getLsbD i = (A.getLsbD i || imm.getLsbD i)) ∧
    gives (.xori d a imm) (fun v => ∀ i < 64, v.getLsbD i = (A.getLsbD i != imm.getLsbD i)) ∧
    gives (.shli d a sh) (fun v => v.toNat = A.toNat * 2 ^ sh.toNat % 2 ^ 64) ∧
    gives (.shri d a sh) (fun v => v.toNat = A.toNat / 2 ^ sh.toNat) ∧
    gives (.srai d a sh) (fun v => v.toInt = A.toInt / 2 ^ sh.toNat) ∧
    gives (.slti d a imm) (fun v => v = if A.toInt < imm.toInt then 1 else 0) ∧
    gives (.sltni d a imm) (fun v => v = if (A.toNat : Int) < imm.toInt % 2 ^ 64 then 1 else 0) ∧
    gives (.li d imm19) (fun v => v.toInt = imm19.toInt)

/-- R119 and R120: `LIX` shifts x[k] left by 21 and takes imm21 below; `XMOV`, `MOVGX` and `XCLR` move between the register
files. Each completes in every state and leaves everything else alone. -/
def Sys2Proof.Claims.ExtensionRegisterMoves : Prop :=
  ∀ (k : XReg) (d a : Reg) (imm : BitVec 21) (s : State),
    (∃ v : Word, v.toNat = ((s.x k).toNat * 2 ^ 21 + imm.toNat) % 2 ^ 64 ∧ WritesX (exec (.lix k imm) s) s k v 4) ∧
    WritesX (exec (.xmov k a) s) s k (s.g a) 4 ∧
    Writes (exec (.movgx d k) s) s d (s.x k) 4 ∧
    WritesX (exec (.xclr k) s) s k 0 4

namespace Sys2Proof.Claims

open Sys2Proof Sys2Proof.Machine

/-! ### Floating point: exact values and correct rounding -/

/-- ± m × 2^e as a rational number. -/
def rat (neg : Bool) (m : Nat) (e : Int) : ℚ := (if neg then -1 else 1) * (m : ℚ) * (2 : ℚ) ^ e

/-- A bit pattern of a format holds the finite number q. -/
def Holds (f : FloatSpec) (w : Nat) (q : ℚ) : Prop := ∃ n m e, f.decode w = .num n m e ∧ q = rat n m e

/-- A number that some bit pattern of a format holds. -/
def Representable (f : FloatSpec) (q : ℚ) : Prop := ∃ w, w < 2 ^ f.width ∧ Holds f w q

/-- An exact real result, by the rationals that are not above it and those that are not below it. -/
structure Cut where
  below : ℚ → Prop
  above : ℚ → Prop

/-- An exact rational result. -/
def exactly (x : ℚ) : Cut := ⟨fun q => q ≤ x, fun q => x ≤ q⟩

/-- The square root of a positive rational. -/
def rootOf (x : ℚ) : Cut := ⟨fun q => q ≤ 0 ∨ q * q ≤ x, fun q => 0 ≤ q ∧ x ≤ q * q⟩

/-- The largest finite number of a format: 2^emax × (2 − 2^(1 − prec)). -/
def largest (f : FloatSpec) : ℚ := (2 : ℚ) ^ f.emax * (2 - (2 : ℚ) ^ (1 - (f.prec : Int)))

/-- From here on a result overflows under RNE: half a unit above the largest finite number. -/
def rneLimit (f : FloatSpec) : ℚ := (2 : ℚ) ^ f.emax * (2 - (2 : ℚ) ^ (-(f.prec : Int)))

/-- The largest representable number that is not above the exact result. -/
def IsDown (f : FloatSpec) (c : Cut) (r : ℚ) : Prop := c.below r ∧ ∀ q, Representable f q → c.below q → q ≤ r

/-- The smallest representable number that is not below the exact result. -/
def IsUp (f : FloatSpec) (c : Cut) (r : ℚ) : Prop := c.above r ∧ ∀ q, Representable f q → c.above q → r ≤ q

/-- No representable number is nearer to the exact result, and of two that are equally near it is the one with an even
significand m (02 R46). -/
def IsNearest (f : FloatSpec) (c : Cut) (r : ℚ) (m : Nat) : Prop :=
  ∀ q, Representable f q →
    (q < r → c.below ((q + r) / 2) ∧ (c.above ((q + r) / 2) → m % 2 = 0)) ∧
    (r < q → c.above ((q + r) / 2) ∧ (c.below ((q + r) / 2) → m % 2 = 0))

/-- A nonzero exact result rounded once in a mode into the bits of a format (02 R46). -/
def RoundsTo (f : FloatSpec) (mode : RoundMode) (c : Cut) (w : Nat) : Prop :=
  w < 2 ^ f.width ∧
  match f.decode w with
  | .nan _ => False
  | .inf neg =>
    (match mode, neg with
      | .rne, false => c.below (rneLimit f)
      | .rne, true => c.above (-rneLimit f)
      | .ru, false => ¬ c.above (largest f)
      | .rd, true => ¬ c.below (-largest f)
      | _, _ => False)
  | .num n m e =>
    (n = true ↔ ¬ c.below 0) ∧
    (match mode with
      | .rne => IsNearest f c (rat n m e) m ∧ ¬ c.below (rneLimit f) ∧ ¬ c.above (-rneLimit f)
      | .rd => IsDown f c (rat n m e)
      | .ru => IsUp f c (rat n m e)
      | .rz => (c.below 0 ∧ IsDown f c (rat n m e)) ∨ (c.above 0 ∧ IsUp f c (rat n m e)))

/-- Tiny after rounding (02 R47): rounded to the precision of the format with no bound on the exponent, the exact result stays
below 2^emin in magnitude. The largest number of that precision below 2^emin is `last`, and the tie above it goes up. -/
def Tiny (f : FloatSpec) (mode : RoundMode) (c : Cut) : Prop :=
  let top : ℚ := (2 : ℚ) ^ f.emin
  let last : ℚ := top * (1 - (2 : ℚ) ^ (-(f.prec : Int)))
  let tie : ℚ := top * (1 - (2 : ℚ) ^ (-(f.prec : Int) - 1))
  match mode with
  | .rne => ¬ c.below tie ∧ ¬ c.above (-tie)
  | .rz => ¬ c.below top ∧ ¬ c.above (-top)
  | .rd => ¬ c.below top ∧ c.below (-last)
  | .ru => c.above last ∧ ¬ c.above (-top)

/-- The flags of a rounding (02 R47, R49): `NX` when the result differs from the exact one, `OF` when it lies beyond the
format, `UF` when it is tiny after rounding and inexact. -/
def RoundingFlags (f : FloatSpec) (mode : RoundMode) (c : Cut) (w : Nat) (fl : FFlags) : Prop :=
  fl.nv = false ∧ fl.dz = false ∧
  (fl.nx = true ↔ ∀ r, Holds f w r → ¬ (c.below r ∧ c.above r)) ∧
  (fl.of = true ↔ (∃ n, f.decode w = .inf n) ∨ c.below ((2 : ℚ) ^ (f.emax + 1)) ∨ c.above (-(2 : ℚ) ^ (f.emax + 1))) ∧
  (fl.uf = true ↔ fl.nx = true ∧ Tiny f mode c)

/-- A set of flags at its bits of `STATUS`: 4 `NV`, 3 `DZ`, 2 `OF`, 1 `UF`, 0 `NX` (10 R253). -/
def flagAt (fl : FFlags) : Nat → Bool
  | 4 => fl.nv
  | 3 => fl.dz
  | 2 => fl.of
  | 1 => fl.uf
  | 0 => fl.nx
  | _ => false

/-- The instruction answers a next state in which only g[d] is written, with v, the flags `fl` are set in `STATUS` and no
other bit of it differs, and the PC has advanced by 4. -/
def WritesF (o : Out) (s : State) (d : Reg) (v : Word) (fl : FFlags) : Prop :=
  ∃ t, o = .next t ∧ GivesG s t d v ∧ (∀ k, t.x k = s.x k) ∧
    (∀ i < 64, t.cur.regs.status.getLsbD i = (s.cur.regs.status.getLsbD i || flagAt fl i)) ∧
    RegFrame s t (s.pc + 4)

/-- The result of an operation that rounds a nonzero exact value. -/
def WritesRounded (o : Out) (s : State) (d : Reg) (f : FpFmt) (m : RoundMode) (c : Cut) : Prop :=
  ∃ v fl, RoundsTo (specOf f) m c v.toNat ∧ RoundingFlags (specOf f) m c v.toNat fl ∧ WritesF o s d v fl

/-- The result of an operation that is known by its bits and flags. -/
def WritesBits (o : Out) (s : State) (d : Reg) (w : Nat) (fl : FFlags) : Prop := WritesF o s d (BitVec.ofNat 64 w) fl

/-- The canonical NaN of each format (02 R48). -/
def canonicalNan : FpFmt → Nat
  | .f64 => 0x7FF8000000000000
  | .f32 => 0x7FC00000
  | .f16 => 0x7E00
  | .bf16 => 0x7FC0

/-- The sign bit of a format and the bits of its positive infinity. -/
def signBit : FpFmt → Nat
  | .f64 => 2 ^ 63
  | .f32 => 2 ^ 31
  | .f16 => 2 ^ 15
  | .bf16 => 2 ^ 15

/-- The bits of the positive infinity of a format. -/
def infBits : FpFmt → Nat
  | .f64 => 0x7FF0000000000000
  | .f32 => 0x7F800000
  | .f16 => 0x7C00
  | .bf16 => 0x7F80

/-- Bits with a sign. -/
def withSign (f : FpFmt) (neg : Bool) (w : Nat) : Nat := (if neg then signBit f else 0) + w

/-- The flag `NV` alone. -/
def onlyNv : FFlags := { nv := true }

/-- No flag. -/
def noFlag : FFlags := {}

/-- An operand is a NaN. -/
def IsNan (f : FpFmt) (w : Word) : Prop := ∃ q, fval f w = .nan q

/-- An operand is a signalling NaN: its quiet bit is 0. -/
def IsSnan (f : FpFmt) (w : Word) : Prop := fval f w = .nan true

/-- An operand is the finite number q; `neg` is its sign, which a zero has too. -/
def IsNum (f : FpFmt) (w : Word) (neg : Bool) (q : ℚ) : Prop := ∃ m e, fval f w = .num neg m e ∧ q = rat neg m e

/-- An operand is an infinity. -/
def IsInf (f : FpFmt) (w : Word) (neg : Bool) : Prop := fval f w = .inf neg

/-- An instruction of the `FP` or `FCVT` major: its destination and the number of bits that its result may have. -/
def fpResult : Instr → Option (Reg × Nat)
  | .fadd d _ _ f _ => some (d, (specOf f).width)
  | .fsub d _ _ f _ => some (d, (specOf f).width)
  | .fmul d _ _ f _ => some (d, (specOf f).width)
  | .fdiv d _ _ f _ => some (d, (specOf f).width)
  | .fsqrt d _ f _ => some (d, (specOf f).width)
  | .fmad d _ _ f _ => some (d, (specOf f).width)
  | .fnmad d _ _ f _ => some (d, (specOf f).width)
  | .fmin d _ _ f => some (d, (specOf f).width)
  | .fmax d _ _ f => some (d, (specOf f).width)
  | .fneg d _ f => some (d, (specOf f).width)
  | .fabs d _ f => some (d, (specOf f).width)
  | .fcpys d _ _ f => some (d, (specOf f).width)
  | .feq d _ _ _ => some (d, 1)
  | .flt d _ _ _ => some (d, 1)
  | .fle d _ _ _ => some (d, 1)
  | .fclass d _ _ => some (d, 10)
  | .frnd d _ f _ => some (d, (specOf f).width)
  | .fcvt d _ t _ _ => some (d, (specOf t).width)
  | .ftoi d _ _ _ => some (d, 64)
  | .fton d _ _ _ => some (d, 64)
  | .itof d _ t _ => some (d, (specOf t).width)
  | .ntof d _ t _ => some (d, (specOf t).width)
  | .b8tof d _ t => some (d, (specOf t).width)
  | .ftob8 d _ _ => some (d, 8)
  | _ => none

end Sys2Proof.Claims

/-! ### The `FP` and `FCVT` majors -/

/-- R137, R138 and R45: every instruction of the `FP` and `FCVT` majors completes in every state; it writes g[d] with the bits
above its format clear, sets flags and clears none, and leaves every other register, every other bit of `STATUS`, all memory
and every other unit alone. -/
def Obligations.FloatingPointFrame : Prop :=
  ∀ (i : Instr) (d : Reg) (n : Nat) (s : State), fpResult i = some (d, n) →
    ∃ v fl, v.toNat < 2 ^ n ∧ WritesF (exec i s) s d v fl

/-- R139 and R140 with R46, R47 and R49: of finite operands the sum, difference, product, quotient, square root and fused
sum whose exact value is not zero are that value rounded once in the encoded mode, with the flags of that rounding. -/
def Obligations.ArithmeticIsCorrectlyRounded : Prop :=
  ∀ (d a b : Reg) (f : FpFmt) (m : RoundMode) (s : State) (na nb nd : Bool) (A B D : ℚ),
    let first : Prop := IsNum f (s.g a) na A
    let second : Prop := IsNum f (s.g b) nb B
    let third : Prop := IsNum f (s.g d) nd D
    (first → second → A + B ≠ 0 → WritesRounded (exec (.fadd d a b f m) s) s d f m (exactly (A + B))) ∧
    (first → second → A - B ≠ 0 → WritesRounded (exec (.fsub d a b f m) s) s d f m (exactly (A - B))) ∧
    (first → second → A * B ≠ 0 → WritesRounded (exec (.fmul d a b f m) s) s d f m (exactly (A * B))) ∧
    (first → second → A ≠ 0 → B ≠ 0 → WritesRounded (exec (.fdiv d a b f m) s) s d f m (exactly (A / B))) ∧
    (first → 0 < A → WritesRounded (exec (.fsqrt d a f m) s) s d f m (rootOf A)) ∧
    (first → second → third → A * B + D ≠ 0 → WritesRounded (exec (.fmad d a b f m) s) s d f m (exactly (A * B + D))) ∧
    (first → second → third → D - A * B ≠ 0 → WritesRounded (exec (.fnmad d a b f m) s) s d f m (exactly (D - A * B)))

/-- R139 and R140: exact zeros, infinities and the invalid operations. A zero sum is −0 when both addends are −0, or under RD
when addends of opposite sign cancel; a zero product or quotient takes the exclusive OR of the signs; x/±0 gives ±∞ and `DZ`;
0/0, ∞/∞, ∞ × 0, ∞ − ∞ and the root of a negative number give the canonical NaN and `NV`. -/
def Sys2Proof.Claims.ZeroAndInfiniteResults : Prop :=
  ∀ (d a b : Reg) (f : FpFmt) (m : RoundMode) (s : State) (na nb : Bool) (A B : ℚ),
    let zero (neg : Bool) (i : Instr) : Prop := WritesBits (exec i s) s d (withSign f neg 0) noFlag
    let inf (neg : Bool) (i : Instr) : Prop := WritesBits (exec i s) s d (withSign f neg (infBits f)) noFlag
    let invalid (i : Instr) : Prop := WritesBits (exec i s) s d (canonicalNan f) onlyNv
    let sumSign (x y : Bool) : Bool := if x = y then x else decide (m = .rd)
    (IsNum f (s.g a) na A → IsNum f (s.g b) nb B →
      (A = 0 → B = 0 → zero (sumSign na nb) (.fadd d a b f m) ∧ zero (sumSign na !nb) (.fsub d a b f m)) ∧
      (A ≠ 0 → A + B = 0 → zero (decide (m = .rd)) (.fadd d a b f m)) ∧
      (A ≠ 0 → A - B = 0 → zero (decide (m = .rd)) (.fsub d a b f m)) ∧
      (A * B = 0 → zero (na != nb) (.fmul d a b f m)) ∧
      (A = 0 → B ≠ 0 → zero (na != nb) (.fdiv d a b f m)) ∧
      (A ≠ 0 → B = 0 → WritesBits (exec (.fdiv d a b f m) s) s d (withSign f (na != nb) (infBits f)) { dz := true }) ∧
      (A = 0 → B = 0 → invalid (.fdiv d a b f m)) ∧
      (A = 0 → zero na (.fsqrt d a f m)) ∧
      (A < 0 → invalid (.fsqrt d a f m))) ∧
    (IsInf f (s.g a) na → IsNum f (s.g b) nb B →
      inf na (.fadd d a b f m) ∧ inf na (.fsub d a b f m) ∧ inf (na != nb) (.fdiv d a b f m) ∧
      (B ≠ 0 → inf (na != nb) (.fmul d a b f m)) ∧
      (B = 0 → invalid (.fmul d a b f m) ∧ invalid (.fmad d a b f m) ∧ invalid (.fnmad d a b f m))) ∧
    (IsNum f (s.g a) na A → IsInf f (s.g b) nb →
      inf nb (.fadd d a b f m) ∧ inf (!nb) (.fsub d a b f m) ∧ zero (na != nb) (.fdiv d a b f m) ∧
      (A ≠ 0 → inf (na != nb) (.fmul d a b f m)) ∧
      (A = 0 → invalid (.fmul d a b f m) ∧ invalid (.fmad d a b f m) ∧ invalid (.fnmad d a b f m))) ∧
    (IsInf f (s.g a) na → IsInf f (s.g b) nb →
      inf (na != nb) (.fmul d a b f m) ∧ invalid (.fdiv d a b f m) ∧
      (na = nb → inf na (.fadd d a b f m) ∧ invalid (.fsub d a b f m)) ∧
      (na ≠ nb → invalid (.fadd d a b f m) ∧ inf na (.fsub d a b f m))) ∧
    (IsInf f (s.g a) na → (na = true → invalid (.fsqrt d a f m)) ∧ (na = false → inf false (.fsqrt d a f m)))

/-- R139, R140, R48 and R49 for `FMAD` and `FNMAD`, whose product the latter negates: an exact zero sum of finite values takes the
sign that the sum rule of R139 gives the exact product and D; a finite product and an infinite D give D; an infinite product
gives itself with a finite D or one of its sign, and is invalid with the opposite infinity; a NaN in D alone gives the canonical
NaN, with `NV` only for a signalling one, unless the product is invalid. -/
def Sys2Proof.Claims.FusedZerosInfinitiesAndNans : Prop :=
  ∀ (d a b : Reg) (f : FpFmt) (m : RoundMode) (s : State) (na nb nd : Bool) (A B D : ℚ),
    let zero (neg : Bool) (i : Instr) : Prop := WritesBits (exec i s) s d (withSign f neg 0) noFlag
    let inf (neg : Bool) (i : Instr) : Prop := WritesBits (exec i s) s d (withSign f neg (infBits f)) noFlag
    let invalid (i : Instr) : Prop := WritesBits (exec i s) s d (canonicalNan f) onlyNv
    let nan (sig : Bool) (i : Instr) : Prop :=
      WritesBits (exec i s) s d (canonicalNan f) (if sig then onlyNv else noFlag)
    let sumSign (x y : Bool) : Bool := if x = y then x else decide (m = .rd)
    let plus : Instr := .fmad d a b f m
    let minus : Instr := .fnmad d a b f m
    -- the sign of the exact product A × B, and that a product is finite or infinite
    let sign : Bool := na != nb
    let finite : Prop := IsNum f (s.g a) na A ∧ IsNum f (s.g b) nb B
    let infinite : Prop :=
      (IsInf f (s.g a) na ∧ IsInf f (s.g b) nb) ∨ (IsInf f (s.g a) na ∧ IsNum f (s.g b) nb B ∧ B ≠ 0) ∨
      (IsNum f (s.g a) na A ∧ A ≠ 0 ∧ IsInf f (s.g b) nb)
    (finite → IsNum f (s.g d) nd D →
      (A * B = 0 → D = 0 → zero (sumSign sign nd) plus ∧ zero (sumSign (!sign) nd) minus) ∧
      (A * B ≠ 0 → A * B + D = 0 → zero (decide (m = .rd)) plus) ∧
      (A * B ≠ 0 → D - A * B = 0 → zero (decide (m = .rd)) minus)) ∧
    (finite → IsInf f (s.g d) nd → inf nd plus ∧ inf nd minus) ∧
    (infinite → IsNum f (s.g d) nd D → inf sign plus ∧ inf (!sign) minus) ∧
    (infinite → IsInf f (s.g d) nd →
      (sign = nd → inf nd plus ∧ invalid minus) ∧ (sign ≠ nd → invalid plus ∧ inf nd minus)) ∧
    (finite ∨ infinite → ∀ sig, fval f (s.g d) = .nan sig → nan sig plus ∧ nan sig minus)

/-- R48 and R49: an arithmetic instruction with a NaN operand writes the canonical NaN of its format and sets `NV` exactly when
an operand is a signalling NaN; of a fused one with a NaN factor the same holds. -/
def Sys2Proof.Claims.NanOperandsGiveTheCanonicalNan : Prop :=
  ∀ (d a b : Reg) (f t : FpFmt) (m : RoundMode) (s : State),
    let gives (w : Nat) (sig : Prop) (i : Instr) : Prop :=
      (sig → WritesBits (exec i s) s d w onlyNv) ∧ (¬ sig → WritesBits (exec i s) s d w noFlag)
    let sig2 : Prop := IsSnan f (s.g a) ∨ IsSnan f (s.g b)
    (IsNan f (s.g a) ∨ IsNan f (s.g b) →
      gives (canonicalNan f) sig2 (.fadd d a b f m) ∧ gives (canonicalNan f) sig2 (.fsub d a b f m) ∧
      gives (canonicalNan f) sig2 (.fmul d a b f m) ∧ gives (canonicalNan f) sig2 (.fdiv d a b f m) ∧
      gives (canonicalNan f) (sig2 ∨ IsSnan f (s.g d)) (.fmad d a b f m) ∧
      gives (canonicalNan f) (sig2 ∨ IsSnan f (s.g d)) (.fnmad d a b f m)) ∧
    (IsNan f (s.g a) →
      gives (canonicalNan f) (IsSnan f (s.g a)) (.fsqrt d a f m) ∧ gives (canonicalNan f) (IsSnan f (s.g a)) (.frnd d a f m) ∧
      gives (canonicalNan t) (IsSnan f (s.g a)) (.fcvt d a t f m))

namespace Sys2Proof.Claims

/-- x is below y: −∞ below everything else, +∞ above it, finite numbers by value; no NaN is below or above anything. -/
def Less (f : FpFmt) (x y : Word) : Prop :=
  (IsInf f x true ∧ ¬ IsNan f y ∧ ¬ IsInf f y true) ∨ (IsInf f y false ∧ ¬ IsNan f x ∧ ¬ IsInf f x false) ∨
  ∃ n k A B, IsNum f x n A ∧ IsNum f y k B ∧ A < B

/-- x equals y: the same infinity, or finite numbers of one value; −0 equals +0. -/
def Same (f : FpFmt) (x y : Word) : Prop :=
  (∃ n, IsInf f x n ∧ IsInf f y n) ∨ ∃ n k A, IsNum f x n A ∧ IsNum f y k A

end Sys2Proof.Claims

/-- R50, R51: `FMIN` and `FMAX` are minimumNumber and maximumNumber, with −0 below +0; the comparisons write 1 or 0, and 0 with a
NaN, `FEQ` setting `NV` for a signalling one and `FLT` and `FLE` for any. -/
def Sys2Proof.Claims.MinimumMaximumAndComparison : Prop :=
  ∀ (d a b : Reg) (f : FpFmt) (s : State),
    let A := s.g a
    let B := s.g b
    let low (w : Word) : Nat := w.toNat % 2 ^ (specOf f).width
    let neg (w : Word) : Prop := w.getLsbD ((specOf f).width - 1) = true
    let gives (w : Nat) (fl : FFlags) (i : Instr) : Prop := WritesBits (exec i s) s d w fl
    let either (w : Nat) (sig : Prop) (i : Instr) : Prop := (sig → gives w onlyNv i) ∧ (¬ sig → gives w noFlag i)
    (Less f A B ∨ (Same f A B ∧ neg A ∧ ¬ neg B) →
      gives (low A) noFlag (.fmin d a b f) ∧ gives (low B) noFlag (.fmax d a b f)) ∧
    (Less f B A ∨ (Same f A B ∧ ¬ neg A ∧ neg B) →
      gives (low B) noFlag (.fmin d a b f) ∧ gives (low A) noFlag (.fmax d a b f)) ∧
    (Same f A B → (neg A ↔ neg B) → gives (low A) noFlag (.fmin d a b f) ∧ gives (low A) noFlag (.fmax d a b f)) ∧
    (IsNan f A → ¬ IsNan f B → either (low B) (IsSnan f A) (.fmin d a b f) ∧ either (low B) (IsSnan f A) (.fmax d a b f)) ∧
    (¬ IsNan f A → IsNan f B → either (low A) (IsSnan f B) (.fmin d a b f) ∧ either (low A) (IsSnan f B) (.fmax d a b f)) ∧
    (IsNan f A → IsNan f B →
      either (canonicalNan f) (IsSnan f A ∨ IsSnan f B) (.fmin d a b f) ∧
      either (canonicalNan f) (IsSnan f A ∨ IsSnan f B) (.fmax d a b f)) ∧
    (IsNan f A ∨ IsNan f B →
      either 0 (IsSnan f A ∨ IsSnan f B) (.feq d a b f) ∧ gives 0 onlyNv (.flt d a b f) ∧ gives 0 onlyNv (.fle d a b f)) ∧
    (¬ IsNan f A → ¬ IsNan f B →
      (Same f A B → gives 1 noFlag (.feq d a b f)) ∧ (¬ Same f A B → gives 0 noFlag (.feq d a b f)) ∧
      (Less f A B → gives 1 noFlag (.flt d a b f)) ∧ (¬ Less f A B → gives 0 noFlag (.flt d a b f)) ∧
      (Less f A B ∨ Same f A B → gives 1 noFlag (.fle d a b f)) ∧
      (¬ (Less f A B ∨ Same f A B) → gives 0 noFlag (.fle d a b f)))

/-- R141 and R142: `FNEG`, `FABS` and `FCPYS` keep every bit but the sign, round nothing and set no flag, a NaN in A gives the
canonical NaN, and only the sign bit of B counts; `FCLASS` sets exactly the bit of A's class and no flag. -/
def Sys2Proof.Claims.SignOperationsAndClass : Prop :=
  ∀ (d a b : Reg) (f : FpFmt) (s : State),
    let A := s.g a
    let low : Nat := A.toNat % signBit f
    let top (w : Word) : Bool := w.getLsbD ((specOf f).width - 1)
    let gives (w : Nat) (i : Instr) : Prop := WritesBits (exec i s) s d w noFlag
    let cls (k : Nat) : Prop := gives (2 ^ k) (.fclass d a f)
    let tiny : ℚ := (2 : ℚ) ^ (specOf f).emin
    (¬ IsNan f A →
      gives (withSign f (!top A) low) (.fneg d a f) ∧ gives low (.fabs d a f) ∧
      gives (withSign f (top (s.g b)) low) (.fcpys d a b f)) ∧
    (IsNan f A →
      gives (canonicalNan f) (.fneg d a f) ∧ gives (canonicalNan f) (.fabs d a f) ∧
      gives (canonicalNan f) (.fcpys d a b f)) ∧
    (IsNan f A → ¬ IsSnan f A → cls 9) ∧ (IsSnan f A → cls 8) ∧
    (IsInf f A false → cls 7) ∧ (IsInf f A true → cls 0) ∧
    (∀ neg q, IsNum f A neg q →
      (neg = false → tiny ≤ q → cls 6) ∧ (neg = false → 0 < q → q < tiny → cls 5) ∧
      (neg = false → q = 0 → cls 4) ∧ (neg = true → q = 0 → cls 3) ∧
      (neg = true → q < 0 → -tiny < q → cls 2) ∧ (neg = true → q ≤ -tiny → cls 1))

namespace Sys2Proof.Claims

/-- n is x rounded to an integer in a mode (02 R46). -/
def RoundsToInt (mode : RoundMode) (x : ℚ) (n : Int) : Prop :=
  match mode with
  | .rd => (n : ℚ) ≤ x ∧ x < n + 1
  | .ru => (n : ℚ) - 1 < x ∧ x ≤ n
  | .rz => |(n : ℚ)| ≤ |x| ∧ |x| < |(n : ℚ)| + 1 ∧ 0 ≤ (n : ℚ) * x
  | .rne => |x - n| ≤ 1 / 2 ∧ (|x - n| = 1 / 2 → n % 2 = 0)

end Sys2Proof.Claims

/-- R52, R143 and R144: `FTOI` and `FTON` round to an integer, saturate outside their range with `NV`, and give 0 with `NV` for a
NaN; `ITOF` and `NTOF` round a nonzero integer into the format; `FCVT` rounds, and an exact widening keeps the value; `FRND`
gives the integer nearest in the mode, without `NX`. -/
def Sys2Proof.Claims.Conversions : Prop :=
  ∀ (d a : Reg) (f t : FpFmt) (m : RoundMode) (s : State) (na : Bool) (A : ℚ),
    let nx (on : Bool) : FFlags := { nx := on }
    (IsNum f (s.g a) na A → ∀ n : Int, RoundsToInt m A n →
      (-2 ^ 63 ≤ n → n ≤ 2 ^ 63 - 1 →
        WritesF (exec (.ftoi d a f m) s) s d (BitVec.ofInt 64 n) (nx (decide ((n : ℚ) ≠ A)))) ∧
      (n < -2 ^ 63 → WritesF (exec (.ftoi d a f m) s) s d (BitVec.ofInt 64 (-2 ^ 63)) onlyNv) ∧
      (2 ^ 63 - 1 < n → WritesF (exec (.ftoi d a f m) s) s d (BitVec.ofInt 64 (2 ^ 63 - 1)) onlyNv) ∧
      (0 ≤ n → n ≤ 2 ^ 64 - 1 →
        WritesF (exec (.fton d a f m) s) s d (BitVec.ofInt 64 n) (nx (decide ((n : ℚ) ≠ A)))) ∧
      (n < 0 → WritesF (exec (.fton d a f m) s) s d 0 onlyNv) ∧
      (2 ^ 64 - 1 < n → WritesF (exec (.fton d a f m) s) s d (BitVec.allOnes 64) onlyNv) ∧
      (∃ v : Word, (∃ neg, IsNum f v neg n ∧ (n = 0 → neg = na)) ∧ WritesF (exec (.frnd d a f m) s) s d v noFlag)) ∧
    (IsNan f (s.g a) →
      WritesF (exec (.ftoi d a f m) s) s d 0 onlyNv ∧ WritesF (exec (.fton d a f m) s) s d 0 onlyNv) ∧
    (IsInf f (s.g a) na →
      WritesF (exec (.ftoi d a f m) s) s d (BitVec.ofInt 64 (if na then -2 ^ 63 else 2 ^ 63 - 1)) onlyNv ∧
      WritesF (exec (.fton d a f m) s) s d (if na then 0 else BitVec.allOnes 64) onlyNv ∧
      WritesBits (exec (.frnd d a f m) s) s d (withSign f na (infBits f)) noFlag ∧
      WritesBits (exec (.fcvt d a t f m) s) s d (withSign t na (infBits t)) noFlag) ∧
    ((s.g a).toInt ≠ 0 → WritesRounded (exec (.itof d a t m) s) s d t m (exactly (s.g a).toInt)) ∧
    ((s.g a).toNat ≠ 0 → WritesRounded (exec (.ntof d a t m) s) s d t m (exactly (s.g a).toNat)) ∧
    (s.g a = 0 → WritesBits (exec (.itof d a t m) s) s d 0 noFlag ∧ WritesBits (exec (.ntof d a t m) s) s d 0 noFlag) ∧
    (IsNum f (s.g a) na A → A ≠ 0 → WritesRounded (exec (.fcvt d a t f m) s) s d t m (exactly A)) ∧
    (IsNum f (s.g a) na 0 → WritesBits (exec (.fcvt d a t f m) s) s d (withSign t na 0) noFlag) ∧
    (IsNum f (s.g a) na A → exactWidening t f = true →
      ∃ v : Word, IsNum t v na A ∧ WritesF (exec (.fcvt d a t f m) s) s d v noFlag)

namespace Sys2Proof.Claims

/-- The magnitude of code c of a binary8 format; past the format's own codes the exponent goes on (02 R53, R54, R57). -/
def b8Number (p : Nat) (uns : Bool) (c : Nat) : ℚ :=
  let bias : Int := 2 ^ ((if uns then 9 else 8) - p - 1)
  let expo := c / 2 ^ (p - 1)
  let frac := c % 2 ^ (p - 1)
  if expo = 0 then (frac : ℚ) * (2 : ℚ) ^ (1 - bias - (p - 1)) else (2 ^ (p - 1) + frac : ℚ) * (2 : ℚ) ^ (expo - bias - (p - 1))

/-- A positive magnitude x of a sign is rounded in a mode to code c of a binary8 format, with no bound on the exponent above (02 R46, R57). Of two
codes that are equally near, one with an even significand is taken; with P = 1 every significand is 1, and the larger is taken, or 0 (log 67). -/
def B8RoundsTo (p : Nat) (uns : Bool) (mode : RoundMode) (neg : Bool) (x : ℚ) (c : Nat) : Prop :=
  let num := b8Number p uns
  let down : Prop := num c ≤ x ∧ x < num (c + 1)
  let up : Prop := c ≠ 0 ∧ num (c - 1) < x ∧ x ≤ num c
  match mode with
  | .rz => down
  | .rd => if neg then up else down
  | .ru => if neg then down else up
  | .rne =>
    2 * x ≤ num c + num (c + 1) ∧ (2 * x = num c + num (c + 1) → if p = 1 then c = 0 else c % 2 = 0) ∧
    (c ≠ 0 → num (c - 1) + num c ≤ 2 * x ∧ (num (c - 1) + num c = 2 * x → if p = 1 then c ≠ 1 else c % 2 = 0))

/-- The rounding mode of a code (02 R46). -/
def modeOfCode (n : Nat) : RoundMode := if n = 0 then .rne else if n = 1 then .rz else if n = 2 then .rd else .ru

/-- What `FTOB8` makes of a value, with its flags (02 R57): `ovf` is `OVF`. -/
def B8Gives (p : Nat) (uns ext ovf : Bool) (mode : RoundMode) (v : FVal) (code : Nat) (fl : FFlags) : Prop :=
  let top := if uns then 0xFE else 0x7F
  let nan := if uns then 0xFF else 0x80
  let most := if ext then top - 1 else top
  let signed (n : Bool) (c : Nat) : Nat := if n then 128 + c else c
  let negative : Prop := code = (if ovf then 0xFF else 0) ∧ fl = onlyNv
  match v with
  | .nan signalling => code = nan ∧ fl = if signalling then onlyNv else noFlag
  | .inf n =>
    if uns && n then negative
    else if ext then code = signed n top ∧ fl = noFlag
    else if ovf then code = nan ∧ fl = onlyNv
    else code = signed n most ∧ fl = { nx := true }
  | .num n m e =>
    let x := |rat n m e|
    if m = 0 then code = 0 ∧ fl = noFlag
    else if uns && n then negative
    else ∃ c, B8RoundsTo p uns mode n x c ∧
      let toward : Prop := mode = .rz ∨ (mode = .rd ∧ n = false) ∨ (mode = .ru ∧ n = true)
      (c ≤ most → code = (if c = 0 then 0 else signed n c) ∧ fl.nv = false ∧ fl.dz = false ∧ fl.of = false ∧
        (fl.nx = true ↔ b8Number p uns c ≠ x) ∧ (fl.uf = true ↔ b8Number p uns c ≠ x ∧ x < b8Number p uns (2 ^ (p - 1)))) ∧
      (most < c → ovf = false ∨ toward → code = signed n most ∧ fl = { of := true, nx := true }) ∧
      (most < c → ovf = true → ¬ toward →
        if ext then code = signed n top ∧ fl = { of := true, nx := true } else code = nan ∧ fl = { of := true, nx := true, nv := true })

/-- A value as the exact operations of the array take it: NaN, an infinity, or a finite number, which has a sign as a zero too. -/
inductive Ext where
  | nan
  | inf (neg : Bool)
  | fin (neg : Bool) (q : ℚ)

/-- The value that an operand holds. -/
def extOf : FVal → Ext
  | .nan _ => .nan
  | .inf n => .inf n
  | .num n m e => .fin n (rat n m e)

/-- The exact sum under RNE; a zero sum is −0 only of two negative zeros (IEEE 754-2019). -/
def Ext.add : Ext → Ext → Ext
  | .fin m x, .fin n y => .fin (if x + y = 0 then m && n else decide (x + y < 0)) (x + y)
  | .inf m, .inf n => if m = n then .inf m else .nan
  | .inf m, .fin _ _ => .inf m
  | .fin _ _, .inf n => .inf n
  | _, _ => .nan

/-- The exact product; ∞ × 0 is NaN. -/
def Ext.mul : Ext → Ext → Ext
  | .fin m x, .fin n y => .fin (m != n) (x * y)
  | .inf m, .inf n => .inf (m != n)
  | .inf m, .fin n y => if y = 0 then .nan else .inf (m != n)
  | .fin m x, .inf n => if x = 0 then .nan else .inf (m != n)
  | _, _ => .nan

/-- One number lies below another, −0 below +0 (02 R50). -/
def Ext.below : Ext → Ext → Bool
  | .fin m x, .fin n y => decide (x < y) || (decide (x = y) && m && !n)
  | .inf m, .inf n => m && !n
  | .inf m, .fin _ _ => m
  | .fin _ _, .inf n => !n
  | _, _ => false

/-- maximumNumber (02 R50). -/
def Ext.max : Ext → Ext → Ext
  | .nan, y => y
  | x, .nan => x
  | x, y => if x.below y then y else x

/-- An exact value rounded once into the bits of a format; NaN is the canonical one. -/
def ExtRounds (f : FpFmt) (mode : RoundMode) (x : Ext) (z : Nat) : Prop :=
  match x with
  | .nan => z = canonicalNan f
  | .inf n => z = withSign f n (infBits f)
  | .fin n q => (q = 0 → z = withSign f n 0) ∧ (q ≠ 0 → RoundsTo (specOf f) mode (exactly q) z)

end Sys2Proof.Claims

/-- R55, R56 and R145: with `P` from 1 to 7, `B8TOF` into f32 or f64 writes exactly the number of the binary8 byte and no flag, into
f16 or bf16 that number rounded once in RNE with its flags, an infinity for an infinity and the canonical NaN for the NaN code; with
`P` = 0 it writes the canonical NaN, `FTOB8` writes the NaN code, and both set `NV`. R57, R146: `FTOB8` writes the code of its operand
rounded in the mode of `x7` to P significant bits, with `NX` and `UF`; one beyond the largest number gives that with `OF` and `NX`, or by
`OVF` the infinity or the NaN code; NaN, zero, infinities and negative numbers into an unsigned format as R57 lists them. How RNE resolves a
tie with P = 1 is read from R46 by inference (log 67, DEDUCED). -/
def Sys2Proof.Claims.BinaryEightConversions : Prop :=
  ∀ (d a : Reg) (f t : FpFmt) (s : State),
    let p := (s.x 7).toNat % 8
    let uns := (s.x 7).getLsbD 3
    let ext := (s.x 7).getLsbD 4
    let ovf := (s.x 7).getLsbD 5
    let mode := modeOfCode ((s.x 7).toNat / 2 ^ 6 % 4)
    let byte := (s.g a).toNat % 256
    let neg := !uns && decide (128 ≤ byte)
    let code := if uns then byte else byte % 128
    let top := if uns then 0xFE else 0x7F
    let nan := if uns then 0xFF else 0x80
    let number : ℚ := (if neg then -1 else 1) * b8Number p uns code
    let into := exec (.b8tof d a t) s
    (p = 0 → WritesBits into s d (canonicalNan t) onlyNv ∧ WritesBits (exec (.ftob8 d a f) s) s d nan onlyNv) ∧
    (1 ≤ p →
      (byte = nan → WritesBits into s d (canonicalNan t) noFlag) ∧
      (byte ≠ nan → ext = true → code = top → WritesBits into s d (withSign t neg (infBits t)) noFlag) ∧
      (byte ≠ nan → ¬ (ext = true ∧ code = top) →
        (t = .f32 ∨ t = .f64 → ∃ v : Word, IsNum t v neg number ∧ WritesF into s d v noFlag) ∧
        (t = .f16 ∨ t = .bf16 → code ≠ 0 → WritesRounded into s d t .rne (exactly number)) ∧
        (code = 0 → WritesBits into s d 0 noFlag)) ∧
      ∃ c fl, B8Gives p uns ext ovf mode (fval f (s.g a)) c fl ∧ WritesBits (exec (.ftob8 d a f) s) s d c fl)

namespace Sys2Proof.Claims

/-! ### Packed lanes -/

/-- Lane i of a word as a number: bits [(i + 1) × w − 1 : i × w] (06 R147). -/
def laneAt (h : PkShape) (w : Word) (i : Nat) : Nat := w.toNat / 2 ^ (i * laneWidth h) % 2 ^ laneWidth h

/-- Lane i of a word as a signed number. -/
def laneInt (h : PkShape) (w : Word) (i : Nat) : Int := (laneAt h w i : Int).bmod (2 ^ laneWidth h)

/-- One row of R147 or R148 for a lane: a and b are the lanes of A and B, r is the lane of the result. -/
def laneRow (h : PkShape) (A B v : Word) (i : Nat) : Instr → Prop
  | .padd _ _ _ _ => laneAt h v i = (laneAt h A i + laneAt h B i) % 2 ^ laneWidth h
  | .psub _ _ _ _ => (laneAt h v i + laneAt h B i) % 2 ^ laneWidth h = laneAt h A i
  | .pmul _ _ _ _ => laneAt h v i = laneAt h A i * laneAt h B i % 2 ^ laneWidth h
  | .padds _ _ _ _ => laneInt h v i =
      max (-2 ^ (laneWidth h - 1)) (min (2 ^ (laneWidth h - 1) - 1) (laneInt h A i + laneInt h B i))
  | .psubs _ _ _ _ => laneInt h v i =
      max (-2 ^ (laneWidth h - 1)) (min (2 ^ (laneWidth h - 1) - 1) (laneInt h A i - laneInt h B i))
  | .pmin _ _ _ _ => laneInt h v i = min (laneInt h A i) (laneInt h B i)
  | .pmax _ _ _ _ => laneInt h v i = max (laneInt h A i) (laneInt h B i)
  | .pminn _ _ _ _ => laneAt h v i = min (laneAt h A i) (laneAt h B i)
  | .pmaxn _ _ _ _ => laneAt h v i = max (laneAt h A i) (laneAt h B i)
  | .pceq _ _ _ _ => laneAt h v i = if laneAt h A i = laneAt h B i then 2 ^ laneWidth h - 1 else 0
  | .pcgt _ _ _ _ => laneAt h v i = if laneInt h B i < laneInt h A i then 2 ^ laneWidth h - 1 else 0
  | .pshuf _ _ _ _ => laneAt h v i =
      if 2 ^ (laneWidth h - 1) ≤ laneAt h B i then 0 else laneAt h A (laneAt h B i % laneCount h)
  | _ => False

/-- The fields of a lane-by-lane instruction of the `PK` major. -/
def laneFields : Instr → Option (Reg × Reg × Reg × PkShape)
  | .padd d a b h => some (d, a, b, h)
  | .psub d a b h => some (d, a, b, h)
  | .pmul d a b h => some (d, a, b, h)
  | .padds d a b h => some (d, a, b, h)
  | .psubs d a b h => some (d, a, b, h)
  | .pmin d a b h => some (d, a, b, h)
  | .pmax d a b h => some (d, a, b, h)
  | .pminn d a b h => some (d, a, b, h)
  | .pmaxn d a b h => some (d, a, b, h)
  | .pceq d a b h => some (d, a, b, h)
  | .pcgt d a b h => some (d, a, b, h)
  | .pshuf d a b h => some (d, a, b, h)
  | _ => none

end Sys2Proof.Claims

/-! ### The `PK` and `RNG` majors -/

/-- R147 and R148: every lane-by-lane instruction of the `PK` major completes in every state, writes each lane of g[d] with the
value of its row, and touches no flag and nothing else. -/
def Sys2Proof.Claims.PackedLanesGiveTheirRow : Prop :=
  ∀ (i : Instr) (d a b : Reg) (h : PkShape) (s : State), laneFields i = some (d, a, b, h) →
    ∃ v, (∀ k < laneCount h, laneRow h (s.g a) (s.g b) v k i) ∧ Writes (exec i s) s d v 4

/-- R149: `PDOT` adds the exact sum of the signed lane products to the old g[d] and keeps the low 64 bits. -/
def Sys2Proof.Claims.DotProductIsExact : Prop :=
  ∀ (d a b : Reg) (h : PkShape) (s : State),
    ∃ v : Word,
      v.toInt = ((s.g d).toInt +
        ((List.range (laneCount h)).map fun i => laneInt h (s.g a) i * laneInt h (s.g b) i).sum).bmod (2 ^ 64) ∧
      Writes (exec (.pdot d a b h) s) s d v 4

namespace Sys2Proof.Claims

/-- The two halves of the 64-bit product of a constant and a counter word. -/
def mulHi (m : Nat) (x : BitVec 32) : BitVec 32 := BitVec.ofNat 32 (m * x.toNat / 2 ^ 32)
def mulLo (m : Nat) (x : BitVec 32) : BitVec 32 := BitVec.ofNat 32 (m * x.toNat)

/-- The words of a counter through the ten rounds of Philox4x32-10, `c r` after r of them (02 R69). -/
def PhiloxRounds (c : Nat → BitVec 32 × BitVec 32 × BitVec 32 × BitVec 32) (k0 k1 : BitVec 32) : Prop :=
  ∀ r, r < 10 →
    let (c0, c1, c2, c3) := c r
    let n : BitVec 32 := BitVec.ofNat 32 r
    c (r + 1) = (mulHi 0xCD9E8D57 c2 ^^^ c1 ^^^ (k0 + n * 0x9E3779B9), mulLo 0xCD9E8D57 c2,
      mulHi 0xD2511F53 c0 ^^^ c3 ^^^ (k1 + n * 0xBB67AE85), mulLo 0xD2511F53 c0)

end Sys2Proof.Claims

/-- R150, R69, R70 and R71: `RNGP` writes the output words of Philox4x32-10 on the counter in g[a] and g[b] and the key in x6, two to g[d] and two to x5,
and nothing else, and gives the known answer for a zero counter and key; `RNGF64` and `RNGF32` write the number of R71, rounded toward zero, and
touch no flag. -/
def Obligations.RandomStreams : Prop :=
  ∀ (d a b : Reg) (s : State),
    (∃ (v w : Word) (t : State), exec (.rngp d a b) s = .next t ∧ GivesG s t d v ∧
      (∀ k, t.x k = if k = 5 then w else s.x k) ∧ t.cur.regs.status = s.cur.regs.status ∧ RegFrame s t (s.pc + 4) ∧
      (∃ c : Nat → BitVec 32 × BitVec 32 × BitVec 32 × BitVec 32,
        c 0 = ((s.g a).extractLsb' 0 32, (s.g a).extractLsb' 32 32, (s.g b).extractLsb' 0 32, (s.g b).extractLsb' 32 32) ∧
        PhiloxRounds c ((s.x 6).extractLsb' 0 32) ((s.x 6).extractLsb' 32 32) ∧
        v = (c 10).2.1 ++ (c 10).1 ∧ w = (c 10).2.2.2 ++ (c 10).2.2.1) ∧
      (s.g a = 0 → s.g b = 0 → s.x 6 = 0 → v = 0xE169C58D6627E8D5 ∧ w = 0x9B00DBD8BC57AC4C)) ∧
    (∃ v : Word, RoundsTo (specOf .f64) .rz (exactly ((((s.g a).toNat / 2 ^ 11 : Nat) + 1 / 2 : ℚ) * (2 : ℚ) ^ (-53 : Int))) v.toNat ∧
      Writes (exec (.rngf64 d a) s) s d v 4) ∧
    (∃ v : Word,
      RoundsTo (specOf .f32) .rz (exactly ((((s.g a).toNat / 2 ^ 8 % 2 ^ 24 : Nat) + 1 / 2 : ℚ) * (2 : ℚ) ^ (-24 : Int))) v.toNat ∧
      Writes (exec (.rngf32 d a) s) s d v 4)

/-! ### Branches, jumps and the 16-bit forms -/

/-- R132 and R79: a conditional branch completes in every state; it goes to PC + sext(off14) × 2 when its condition holds and to
PC + 4 otherwise, and writes no register and nothing else. -/
def Sys2Proof.Claims.BranchesCompareAndGo : Prop :=
  ∀ (a b : Reg) (o : BitVec 14) (s : State),
    let A := s.g a
    let B := s.g b
    let goes (i : Instr) (c : Prop) : Prop :=
      (c → ∀ pc : Word, pc.toInt = (s.pc.toInt + o.toInt * 2).bmod (2 ^ 64) → OnlyPc (exec i s) s pc) ∧
      (¬ c → OnlyPc (exec i s) s (s.pc + 4))
    goes (.beq a b o) (A = B) ∧ goes (.bne a b o) (A ≠ B) ∧
    goes (.blt a b o) (A.toInt < B.toInt) ∧ goes (.bge a b o) (B.toInt ≤ A.toInt) ∧
    goes (.bltn a b o) (A.toNat < B.toNat) ∧ goes (.bgen a b o) (B.toNat ≤ A.toNat)

/-- R133, R134 and R79: `J` and `JL` go to PC + sext(off24) × 2, `JR` and `JLR` to an even g[a]; the linking ones write g31 with
PC + 4, from the old g[a] when a is 31. They complete and change nothing else. -/
def Sys2Proof.Claims.JumpsAndLinks : Prop :=
  ∀ (a : Reg) (o : BitVec 24) (s : State) (pc : Word), pc.toInt = (s.pc.toInt + o.toInt * 2).bmod (2 ^ 64) →
    let linked (i : Instr) (dest : Word) : Prop :=
      ∃ t, exec i s = .next t ∧ GivesG s t 31 (s.pc + 4) ∧ (∀ k, t.x k = s.x k) ∧
        t.cur.regs.status = s.cur.regs.status ∧ RegFrame s t dest
    OnlyPc (exec (.j o) s) s pc ∧ linked (.jl o) pc ∧
    ((s.g a).getLsbD 0 = false → OnlyPc (exec (.jr a) s) s (s.g a) ∧ linked (.jlr a) (s.g a))

namespace Sys2Proof.Claims

/-- The 32-bit partner of a 16-bit form that reads and writes registers only (03 R89, 05 R136). -/
def partner : Instr → Option Instr
  | .mov16 d src => some (.or (d.setWidth 5) (src.setWidth 5) 0)
  | .add16 d src => some (.add (d.setWidth 5) (d.setWidth 5) (src.setWidth 5))
  | .sub16 d src => some (.sub (d.setWidth 5) (d.setWidth 5) (src.setWidth 5))
  | .and16 d src => some (.and (d.setWidth 5) (d.setWidth 5) (src.setWidth 5))
  | .or16 d src => some (.or (d.setWidth 5) (d.setWidth 5) (src.setWidth 5))
  | .xor16 d src => some (.xor (d.setWidth 5) (d.setWidth 5) (src.setWidth 5))
  | .shl16 d src => some (.shl (d.setWidth 5) (d.setWidth 5) (src.setWidth 5))
  | .shr16 d src => some (.shr (d.setWidth 5) (d.setWidth 5) (src.setWidth 5))
  | .sra16 d src => some (.sra (d.setWidth 5) (d.setWidth 5) (src.setWidth 5))
  | .addi16 d imm => some (.addi (d.setWidth 5) (d.setWidth 5) (imm.signExtend 14))
  | .li16 d imm => some (.li (d.setWidth 5) (imm.signExtend 19))
  | .shli16 d imm => some (.shli (d.setWidth 5) (d.setWidth 5) imm)
  | .shri16 d imm => some (.shri (d.setWidth 5) (d.setWidth 5) imm)
  | .nop16 => some .nop
  | _ => none

end Sys2Proof.Claims

/-- R89 and R136: a 16-bit register form does what its 32-bit partner does, with a PC that has advanced by 2; the short branches
and jumps compare g[d] with 0 and reach by their own offsets, and the short links are PC + 2. -/
def Obligations.ShortFormsActAsTheirPartners : Prop :=
  (∀ (i j : Instr) (s : State), partner i = some j →
    ∃ t, exec j s = .next t ∧ t.pc = s.pc + 4 ∧ exec i s = .next (t.setPc (s.pc + 2))) ∧
  (∀ (d : Reg4) (imm : BitVec 7) (s : State),
    let D := s.g (d.setWidth 5)
    let goes (i : Instr) (c : Prop) : Prop :=
      (c → ∀ pc : Word, pc.toInt = (s.pc.toInt + imm.toInt * 2).bmod (2 ^ 64) → OnlyPc (exec i s) s pc) ∧
      (¬ c → OnlyPc (exec i s) s (s.pc + 2))
    goes (.beqz d imm) (D = 0) ∧ goes (.bnez d imm) (D ≠ 0)) ∧
  (∀ (src : Reg4) (imm : BitVec 12) (s : State) (pc : Word), pc.toInt = (s.pc.toInt + imm.toInt * 2).bmod (2 ^ 64) →
    let S := s.g (src.setWidth 5)
    let linked (i : Instr) (dest : Word) : Prop :=
      ∃ t, exec i s = .next t ∧ GivesG s t 31 (s.pc + 2) ∧ (∀ k, t.x k = s.x k) ∧
        t.cur.regs.status = s.cur.regs.status ∧ RegFrame s t dest
    OnlyPc (exec (.j16 imm) s) s pc ∧ linked (.jl16 imm) pc ∧
    (S.getLsbD 0 = false → OnlyPc (exec (.jr16 src) s) s S ∧ linked (.jlr16 src) S) ∧
    ((s.g 31).getLsbD 0 = false → OnlyPc (exec .ret16 s) s (s.g 31)))

namespace Sys2Proof.Claims

/-! ### Taking an exception -/

/-- The running thread takes a trap into its handler: it runs on a barrel or a command core, with `TA` = 0 (10 R255, R259). -/
def Enters (s : State) : Prop := s.cur.id.kind ≠ .memory ∧ s.cur.regs.status.getLsbD 15 = false

/-- What trap entry leaves (10 R255, R256): the five trap registers hold the record and the old PC, `PMODE` the old `MODE`,
user mode has become supervisor mode, `TA` is 1, the PC is `TVEC`; no other bit of `STATUS`, no other register, no memory and
no other unit differs, and the context and its task are the same. -/
structure TrapEntry (s t : State) (kind : Nat) (taddr tinfo : Word) : Prop where
  tpc    : t.cur.regs.tpc = s.pc
  tkind  : t.cur.regs.tkind = word kind
  taddrIs : t.cur.regs.taddr = taddr
  tinfoIs : t.cur.regs.tinfo = tinfo
  tnest  : t.cur.regs.tnest = 0
  pcIs   : t.pc = s.cur.regs.tvec
  pmode  : t.cur.regs.status.getLsbD 13 = s.cur.regs.status.getLsbD 11 ∧
           t.cur.regs.status.getLsbD 14 = s.cur.regs.status.getLsbD 12
  mode   : t.mode = if s.mode = 0 then 1 else s.mode
  ta     : t.cur.regs.status.getLsbD 15 = true
  status : ∀ i < 64, i < 11 ∨ 15 < i → t.cur.regs.status.getLsbD i = s.cur.regs.status.getLsbD i
  g      : ∀ r, t.g r = s.g r
  x      : ∀ k, t.x k = s.x k
  others : t.cur.regs.tvec = s.cur.regs.tvec ∧ t.cur.regs.tsave = s.cur.regs.tsave ∧ t.cur.regs.event = s.cur.regs.event
  thread : t.cur = { s.cur with regs := t.cur.regs, wait := .ready, mid := false }
  device : OnlyThread s t
  memory : SameBytes s t

/-- The instruction takes a trap into the handler with a record. -/
def Traps (o : Out) (s : State) (kind : Nat) (taddr tinfo : Word) : Prop :=
  ∃ t, o = .next t ∧ TrapEntry s t kind taddr tinfo

/-- `TINFO` of 07 R153: a cause in bits 39:32 and a detail below. -/
def causeWord (cause detail : Nat) : Word := BitVec.ofNat 64 (cause * 2 ^ 32 + detail)

/-- The caller's cluster has lost L1 lines and nothing else outside the running thread differs. -/
def OnlyL1 (s t : State) (keeps : Line → Prop) : Prop :=
  t = { s with cur := t.cur, clusters := t.clusters } ∧
  (∀ c, c ≠ s.curCluster → t.cluster c = s.cluster c) ∧
  t.cluster s.curCluster = { s.cluster s.curCluster with l1 := (t.cluster s.curCluster).l1 } ∧
  (∀ l, l ∈ (t.cluster s.curCluster).l1 ↔ l ∈ (s.cluster s.curCluster).l1 ∧ keeps l)

/-- No register but the PC differs, and the context goes on. -/
def SameRegs (s t : State) (pc : Word) : Prop :=
  (∀ r, t.g r = s.g r) ∧ (∀ k, t.x k = s.x k) ∧ t.cur.regs.status = s.cur.regs.status ∧ t.pc = pc ∧
  SameTrapRegs s.cur.regs t.cur.regs

end Sys2Proof.Claims

/-! ### Exceptions, the system registers and maintenance -/

/-- R255 and R256: a trap taken with `TA` = 0 writes the record and the old PC into the trap registers, moves `MODE` to `PMODE`,
makes user mode supervisor mode, sets `TA`, goes to `TVEC`, and changes nothing else. -/
def Obligations.TrapEntryFollowsR255 : Prop :=
  ∀ (s : State) (r : TrapRec), Enters s → TrapEntry s (s.takeTrap r) r.kind r.taddr r.tinfo

/-- R262: `ERET` at or above supervisor mode puts `PMODE` into `MODE`, clears `TA` and goes to an even `TPC`; with an odd `TPC` it
takes a misaligned trap in the new mode, with `TADDR` the old `TPC`. -/
def Obligations.ReturnFromTrap : Prop :=
  ∀ s : State, 1 ≤ s.mode →
    (s.cur.regs.tpc.getLsbD 0 = false → ∃ t, exec .eret s = .next t ∧ (∀ r, t.g r = s.g r) ∧ (∀ k, t.x k = s.x k) ∧
      RegFrame s t s.cur.regs.tpc ∧
      (∀ i < 64, t.cur.regs.status.getLsbD i =
        if i = 15 then false else if i = 11 then s.cur.regs.status.getLsbD 13
        else if i = 12 then s.cur.regs.status.getLsbD 14 else s.cur.regs.status.getLsbD i)) ∧
    (s.cur.regs.tpc.getLsbD 0 = true → s.cur.id.kind ≠ .memory → ∃ u t : State, exec .eret s = .next t ∧
      OnlyThread s u ∧ u.cur = { s.cur with regs := { s.cur.regs with status := u.cur.regs.status } } ∧
      u.mode = bits s.cur.regs.status 13 2 ∧ u.cur.regs.status.getLsbD 15 = false ∧
      TrapEntry u t 0x02 s.cur.regs.tpc 0)

namespace Sys2Proof.Claims

/-- An address lies in the local scratchpad window or in the global one, each counted whole (01 R17). -/
def InScratchWindows (va : Nat) : Prop :=
  (0x00FF000000000000 ≤ va ∧ va < 0x00FF000000100000) ∨ (0x00FE000000000000 ≤ va ∧ va < 0x00FE000020000000)

/-- The trap that the address of a halfword alone decides for its fetch: access inside the windows, also in their holes (log 19), and
unmapped for any other address that no page can serve. -/
def FetchFails (s : State) (va : Word) (kind : Nat) : Prop :=
  (kind = 0x03 ∧ ((∃ l, s.place s.curPart s.curCluster va = .at l) ∨
    (s.place s.curPart s.curCluster va = .unmapped ∧ InScratchWindows va.toNat))) ∨
  (kind = 0x04 ∧ s.place s.curPart s.curCluster va = .unmapped ∧ ¬ InScratchWindows va.toNat)

/-- The system registers below `EVENT` that user mode does not reach (10 R254). -/
def supervisorRegs : List (BitVec 10) := [1, 2, 3, 4, 5, 6, 7, 0x10, 0x11, 0x12, 0x20, 0x30]

end Sys2Proof.Claims

/-- R262, R110, R111, R257: the instructions whose effect is a trap take it in every state: `TRAP` in both lengths, `BRK`, `UDF` and an
illegal encoding with their records, and a fetch that cannot be served with kind unmapped or access, the address of its
halfword and the fetch layout. -/
def Sys2Proof.Claims.TrapFormsTakeTheirTrap : Prop :=
  ∀ s : State,
    let takes (i : Instr) (kind : Nat) (taddr tinfo : Word) : Prop :=
      exec i s = .next (s.takeTrap { kind := kind, taddr := taddr, tinfo := tinfo })
    (∀ c : BitVec 12, takes (.trap c) 0x0F 0 (causeWord 2 c.toNat)) ∧
    (∀ c : BitVec 12, takes (.trap16 c) 0x0F 0 (causeWord 1 c.toNat)) ∧
    takes .brk 0x11 s.pc (causeWord 2 0) ∧
    (∀ x : BitVec 10, takes (.udf x) 0x01 s.pc (causeWord 4 x.toNat)) ∧
    (∀ (c : BitVec 8) (w : BitVec 32), takes (.illegalEncoding c w) 0x01 s.pc (causeWord c.toNat w.toNat)) ∧
    (∃ kind at_, (kind = 0x03 ∨ kind = 0x04) ∧ (at_ = s.pc ∨ at_ = s.pc + 2) ∧ takes .instructionFetchFault kind at_ 0x12)

/-- R262, R111, R112, R134, R257: the instructions whose effect is a trap, with their records, in a thread that takes it into its
handler: `TRAP` in both lengths, `BRK`, `UDF`, an illegal encoding, `HALT` on a core that is not a command core, a register jump to an
odd address, and a fetch that no page can serve: access for a PC in a scratchpad window, holes and all (log 19), unmapped for any
other one; of a second halfword with its own address. -/
def Sys2Proof.Claims.InstructionsThatTrap : Prop :=
  ∀ s : State, Enters s →
    (∀ c : BitVec 12, Traps (exec (.trap c) s) s 0x0F 0 (causeWord 2 c.toNat)) ∧
    (∀ c : BitVec 12, Traps (exec (.trap16 c) s) s 0x0F 0 (causeWord 1 c.toNat)) ∧
    Traps (exec .brk s) s 0x11 s.pc (causeWord 2 0) ∧
    (∀ x : BitVec 10, Traps (exec (.udf x) s) s 0x01 s.pc (causeWord 4 x.toNat)) ∧
    (∀ (c : BitVec 8) (w : BitVec 32), Traps (exec (.illegalEncoding c w) s) s 0x01 s.pc (causeWord c.toNat w.toNat)) ∧
    (s.cur.id.kind ≠ .command → Traps (exec .halt s) s 0x01 s.pc (causeWord 6 0xF800000C)) ∧
    (∀ a : Reg, (s.g a).getLsbD 0 = true →
      Traps (exec (.jr a) s) s 0x02 (s.g a) 0 ∧ Traps (exec (.jlr a) s) s 0x02 (s.g a) 0) ∧
    (∀ r : Reg4, (s.g (r.setWidth 5)).getLsbD 0 = true →
      Traps (exec (.jr16 r) s) s 0x02 (s.g (r.setWidth 5)) 0 ∧ Traps (exec (.jlr16 r) s) s 0x02 (s.g (r.setWidth 5)) 0) ∧
    ((s.g 31).getLsbD 0 = true → Traps (exec .ret16 s) s 0x02 (s.g 31) 0) ∧
    (∀ kind, s.cur.id.kind = .barrel → FetchFails s s.pc kind → Traps (exec .instructionFetchFault s) s kind s.pc 0x12) ∧
    (∀ kind, s.cur.id.kind = .barrel → s.place s.curPart s.curCluster s.pc = .paged → FetchFails s (s.pc + 2) kind →
      Traps (exec .instructionFetchFault s) s kind (s.pc + 2) 0x12)

/-- R252, R254, R260: a privileged instruction below its mode, a system register below its mode and a write of a read-only register
trap privilege with the causes 1, 2 and 3 and the func or the register's number, and have no other effect. A write of a read-only
register below its mode has cause 2 (log 31). -/
def Sys2Proof.Claims.PrivilegeTraps : Prop :=
  ∀ s : State, Enters s →
    (s.mode = 0 → Traps (exec .eret s) s 0x0E 0 (causeWord 1 2)) ∧
    (∀ a b : Reg, s.mode = 0 → Traps (exec (.tlbinv a b) s) s 0x0E 0 (causeWord 1 8)) ∧
    (∀ d a b : Reg, s.mode = 0 → Traps (exec (.wake d a b) s) s 0x0E 0 (causeWord 1 11)) ∧
    (s.cur.id.kind = .command → s.mode < 2 → Traps (exec .halt s) s 0x0E 0 (causeWord 1 12)) ∧
    (∀ (d : Reg) (n : BitVec 10), s.mode = 0 → n ∈ supervisorRegs ∨ n = 0x40 →
      Traps (exec (.mfs d n) s) s 0x0E 0 (causeWord 2 n.toNat) ∧
      Traps (exec (.mts d n) s) s 0x0E 0 (causeWord 2 n.toNat)) ∧
    (∀ d : Reg, s.mode < 2 → Traps (exec (.mfs d 0x40) s) s 0x0E 0 (causeWord 2 0x40)) ∧
    (∀ (d : Reg) (n : BitVec 10), s.mode = 1 → n ∈ [0x10, 0x11, 0x12, 0x20, 0x30] →
      Traps (exec (.mts d n) s) s 0x0E 0 (causeWord 3 n.toNat)) ∧
    (∀ d : Reg, s.mode = 2 → Traps (exec (.mts d 0x40) s) s 0x0E 0 (causeWord 3 0x40))

/-- R254: `MFS` of a register that the mode reaches writes g[d] with its value and nothing else; `CLUSTER`, `PART` and `THREAD` of a
barrel core are its numbers, `KEY` is 0 in a free task, and `ELAPSED` counts the task's time in units of 1024 ticks. On another
core than a barrel core those three
are free values (log 2), and without a task `KEY` and `ELAPSED` read 0 (log 71). -/
def Sys2Proof.Claims.SystemRegistersRead : Prop :=
  ∀ (d : Reg) (s : State),
    let r := s.cur.regs
    Writes (exec (.mfs d 0) s) s d r.status 4 ∧
    (1 ≤ s.mode →
      Writes (exec (.mfs d 1) s) s d r.tvec 4 ∧ Writes (exec (.mfs d 2) s) s d r.tpc 4 ∧
      Writes (exec (.mfs d 3) s) s d r.tkind 4 ∧ Writes (exec (.mfs d 4) s) s d r.taddr 4 ∧
      Writes (exec (.mfs d 5) s) s d r.tinfo 4 ∧ Writes (exec (.mfs d 6) s) s d r.tnest 4 ∧
      Writes (exec (.mfs d 7) s) s d r.tsave 4 ∧
      (s.cur.id.kind = .barrel →
        Writes (exec (.mfs d 0x10) s) s d (word s.cur.id.unit) 4 ∧
        Writes (exec (.mfs d 0x11) s) s d (word s.curPart) 4 ∧
        Writes (exec (.mfs d 0x12) s) s d (word s.cur.id.slot) 4) ∧
      (s.cur.id.kind ≠ .barrel → ∀ n : BitVec 10, n ∈ [0x10, 0x11, 0x12] →
        ∃ v, Writes (exec (.mfs d n) s) { s with fresh := s.fresh + 1 } d v 4) ∧
      (∀ k, s.cur.task = some k →
        Writes (exec (.mfs d 0x20) s) s d (if k.cls = .ordered then k.key else 0) 4 ∧
        Writes (exec (.mfs d 0x30) s) s d (word ((k.ranBefore + (s.tick - k.dispatched)) / 1024)) 4) ∧
      (s.cur.task = none →
        Writes (exec (.mfs d 0x20) s) s d 0 4 ∧ Writes (exec (.mfs d 0x30) s) s d 0 4)) ∧
    (2 ≤ s.mode → Writes (exec (.mfs d 0x40) s) s d r.event 4)

namespace Sys2Proof.Claims

/-- The bits of `STATUS` that `MTS` writes with v in a mode (10 R253): the sticky flags always; from supervisor mode on `TA` and a
legal `PMODE`; in firmware mode a legal `MODE` too. -/
def statusWritten (mode : Nat) (v : Word) (i : Nat) : Prop :=
  i < 5 ∨ i = 9 ∨ (1 ≤ mode ∧ i = 15) ∨
  (mode = 1 ∧ (i = 13 ∨ i = 14) ∧ v.getLsbD 14 = false) ∨
  (mode = 2 ∧ (i = 13 ∨ i = 14) ∧ ¬ (v.getLsbD 13 = true ∧ v.getLsbD 14 = true)) ∨
  (mode = 2 ∧ (i = 11 ∨ i = 12) ∧ ¬ (v.getLsbD 11 = true ∧ v.getLsbD 12 = true))

/-- An `MTS` answers a next state in which the register set is `f` of the old one, with the PC advanced. -/
def SetsRegs (o : Out) (s : State) (f : Regs → Regs) : Prop :=
  ∃ t, o = .next t ∧ t.cur.regs = { f s.cur.regs with pc := s.pc + 4 } ∧ GoesOn s t ∧ OnlyThread s t ∧ SameBytes s t

end Sys2Proof.Claims

/-- R253 and R254: `MTS` of a register that the mode reaches writes that register and nothing else: of `STATUS` the bits that the
mode allows, bit 0 of `TVEC` as 0, of `TKIND` bits 7:0. -/
def Sys2Proof.Claims.SystemRegistersWritten : Prop :=
  ∀ (a : Reg) (s : State), s.mode ≤ 2 →
    let v := s.g a
    (∃ st : Word, (∀ i < 64, (statusWritten s.mode v i → st.getLsbD i = v.getLsbD i) ∧
        (¬ statusWritten s.mode v i → st.getLsbD i = s.cur.regs.status.getLsbD i)) ∧
      SetsRegs (exec (.mts a 0) s) s fun r => { r with status := st }) ∧
    (1 ≤ s.mode →
      (∃ w : Word, (∀ i < 64, w.getLsbD i = (decide (i ≠ 0) && v.getLsbD i)) ∧
        SetsRegs (exec (.mts a 1) s) s fun r => { r with tvec := w }) ∧
      SetsRegs (exec (.mts a 2) s) s (fun r => { r with tpc := v }) ∧
      SetsRegs (exec (.mts a 3) s) s (fun r => { r with tkind := word (v.toNat % 256) }) ∧
      SetsRegs (exec (.mts a 4) s) s (fun r => { r with taddr := v }) ∧
      SetsRegs (exec (.mts a 5) s) s (fun r => { r with tinfo := v }) ∧
      SetsRegs (exec (.mts a 6) s) s (fun r => { r with tnest := v }) ∧
      SetsRegs (exec (.mts a 7) s) s (fun r => { r with tsave := v }))

/-- R261, R264: `NOP` only advances the PC; `CYC` writes the device tick counter; `PERF` writes the counter of its id, 0 for an id of
no counter, and for a stall counter a value that is free (log 3). -/
def Sys2Proof.Claims.TimeAndCounters : Prop :=
  ∀ (d a : Reg) (s : State),
    OnlyPc (exec .nop s) s (s.pc + 4) ∧
    Writes (exec (.cyc d) s) s d (word s.tick) 4 ∧
    (let id := (s.g a).toNat % 2 ^ 16
     (id = 0 → Writes (exec (.perf d a) s) s d (word (s.cluster s.curCluster).imgLoad) 4) ∧
     (id = 1 → Writes (exec (.perf d a) s) s d (word (s.cluster s.curCluster).imgFetch) 4) ∧
     (id = 2 → ∀ k, s.cur.task = some k → Writes (exec (.perf d a) s) s d (word k.retired) 4) ∧
     (2 < id → ¬ (0x100 ≤ id ∧ id ≤ 0x10D) → Writes (exec (.perf d a) s) s d 0 4) ∧
     (0x100 ≤ id → id ≤ 0x10D → ∃ v, Writes (exec (.perf d a) s) { s with fresh := s.fresh + 1 } d v 4))

/-- R156, R159, R160, R265, R266: `FENCE` with an acquire from `.die` on empties the caller's L1 and no other, with a release from `.prt` on leaves no
copy of a line of its stores whose invalidation was pending in an RDC (what its acquire then waits for is log 68); `FENCEI` and a `CINV` of length 0
empty the L1, a `CINV` of a range drops only lines that overlap it; `TLBINV` removes what its selector names from the caller's cluster TLB. No memory
and no register but the PC changes. -/
def Sys2Proof.Claims.FencesAndInvalidations : Prop :=
  ∀ (a b : Reg) (o : AtomOrder) (c : Scope) (s : State), s.cur.id.kind = .barrel →
    (∃ t, exec (.fence o c) s = .next t ∧ SameRegs s t (s.pc + 4) ∧ GoesOnAcq s t (decide (o = .acq ∨ o = .ar)) ∧ SameBytes s t ∧
      (o = .acq ∨ o = .ar → c ≠ .cl → (t.cluster s.curCluster).l1 = []) ∧
      (∀ k, k ≠ s.curCluster → (t.cluster k).l1 = (s.cluster k).l1) ∧
      (o = .rel ∨ o = .ar → c = .prt ∨ c = .sys → ∀ d < 4,
        (∀ i ∈ (s.die d).rdcInv, i.who = s.curUid → ∀ x ∈ (t.die d).rdc, ¬ (x.vmid = i.vmid ∧ x.line = i.line)) ∧
        (∀ j ∈ (t.die d).rdcInv, j.who = s.curUid → o = .ar ∧
          ∃ i ∈ (s.die d).rdcInv, i.who ≠ s.curUid ∧ i.vmid = j.vmid ∧ i.line = j.line)) ∧
      (c = .cl → t = { s with cur := t.cur, dies := t.dies } ∧ (o = .rel → OnlyThread s t))) ∧
    (∃ t, exec .fencei s = .next t ∧ SameRegs s t (s.pc + 4) ∧ OnlyL1 s t (fun _ => False) ∧ SameBytes s t) ∧
    (∃ t, exec (.cinv a b) s = .next t ∧ SameRegs s t (s.pc + 4) ∧ GoesOn s t ∧ SameBytes s t ∧
      OnlyL1 s t (fun l => s.g b ≠ 0 ∧
        s.rangeHoldsLine (s.g a).toNat (s.g b).toNat l = false)) ∧
    (1 ≤ s.mode → s.curCluster < 512 → ∃ t, exec (.tlbinv a b) s = .next t ∧ SameRegs s t (s.pc + 4) ∧ GoesOn s t ∧ SameBytes s t ∧
      (∀ k, k ≠ s.curCluster → t.cluster k = s.cluster k) ∧
      (∀ e, e ∈ (t.cluster s.curCluster).tlb ↔ e ∈ (s.cluster s.curCluster).tlb ∧
        ¬ (e.vmid = (s.part s.curPart).vmid ∧ ((s.g b).getLsbD 17 = true ∨
          (e.host = false ∧ (s.g a).toNat / 2 ^ e.bits = e.va / 2 ^ e.bits ∧
            ((s.g b).getLsbD 16 = true ∨ e.glob = true ∨ e.asid = (s.g b).toNat % 2 ^ 16))))))

/-- R267 and R268: `WAKE` with kind 3 traps access with cause 23; with a token that names no waiter it writes 0 and does nothing
else; with a token of the caller's partition it ends that wait and writes 1. `HALT` on a command core in firmware mode leaves the core idle,
and ends its event once the work that the rules give the event is over. -/
def Sys2Proof.Claims.WakeAndHalt : Prop :=
  ∀ (d a b : Reg) (s : State),
    (1 ≤ s.mode → Enters s → (s.g b).toNat % 4 = 3 → Traps (exec (.wake d a b) s) s 0x03 0 (causeWord 23 0)) ∧
    (1 ≤ s.mode → (s.g b).toNat % 4 ≠ 3 → (∀ f ∈ s.faults, f.token ≠ s.g a) → Writes (exec (.wake d a b) s) s d 0 4) ∧
    (1 ≤ s.mode → (s.g b).toNat % 4 ≠ 3 → ∀ f ∈ s.faults, f.token = s.g a → f.stage2 = false → f.waiters ≠ [] →
      f.part = s.curPart → ∃ u t, s.wakeToken (s.g a) ((s.g b).toNat % 4) = some u ∧
        exec (.wake d a b) s = .next t ∧ GivesG u t d 1 ∧ t.pc = u.pc + 4 ∧ OnlyThread u t) ∧
    (∀ n, s.cur.id = { kind := .command, unit := n, slot := 0 } → s.mode = 2 → ∃ t, exec .halt s = .next t ∧ SameRegs s t (s.pc + 4) ∧
      t.cur.wait = .idle ∧ t.mem = s.mem ∧ ((s.cmd n).done = true → (t.cmd n).event = none) ∧
      ((s.cmd n).done = false → t.cmd n = s.cmd n) ∧ ∀ c, c ≠ n → t.cmd c = s.cmd c)

/-- R267, R32, R202: `WAKE` ends the wait of what its token names and writes 1. A thread goes on at its instruction for kind 0; for 1 and
2 it has taken the trap unmapped or access of its access, with its address and layout, into its handler. An engine request goes on for
kind 0, and else ends with that kind. The token is served. -/
def Sys2Proof.Claims.WakesEndTheWait : Prop :=
  ∀ (d a b : Reg) (s : State) (f : FaultTok), 1 ≤ s.mode → f ∈ s.faults → f.token = s.g a → f.stage2 = false →
    f.part = s.curPart → (∀ x ∈ s.faults, x.token = f.token → x = f) →
    let kind := (s.g b).toNat % 4
    let gives : Nat := if kind = 1 then 0x04 else 0x03
    let wakes (p : State → Prop) : Prop :=
      ∃ t, exec (.wake d a b) s = .next t ∧ GivesG s t d 1 ∧ t.pc = s.pc + 4 ∧ f ∉ t.faults ∧ p t
    (∀ w th trap, f.waiters = [.thread w] → s.thread? w = some th → w ≠ s.cur.id → th.wait = .fault f.token trap →
      (kind = 0 → wakes fun t => t.thread? w = some { th with wait := .ready, mid := true }) ∧
      (kind = 1 ∨ kind = 2 → w.kind = .barrel → th.regs.status.getLsbD 15 = false → trap.kind ≠ 0x05 → trap.kind ≠ 0x06 →
        wakes fun t => ∃ x, t.thread? w = some x ∧ x.wait = .ready ∧ x.regs.tpc = th.regs.pc ∧ x.regs.tkind = word gives ∧
          x.regs.taddr = trap.taddr ∧ x.regs.tinfo = trap.tinfo ∧ x.regs.pc = th.regs.tvec)) ∧
    (∀ r q, f.waiters = [.engine r] → s.req? r = some q → q.kind ≠ .strm →
      (kind = 0 → wakes fun t => t.req? r = some { q with token := none } ∧
        .unit (if q.stage = 0 then .lineDeliver else .engineDone) r 0 0 ∈ t.agenda) ∧
      (kind = 1 ∨ kind = 2 → q.stage = 0 →
        wakes fun t => t.req? r = some { q with token := none, endKind := some gives, stage := 1 } ∧
          .unit .engineDone r 0 0 ∈ t.agenda))

namespace Sys2Proof.Claims

/-! ### Loads, stores and atomics -/

/-- The kind, order, destination, address and length of a load, in each of its forms (03 R86, 05 R121, R136). -/
def loadRow (s : State) : Instr → Option (LdKind × MemOrder × Reg × Word × Nat)
  | .ldb v b o imm => some (.b, o, v, s.g b + BitVec.ofInt 64 imm.toInt, 4)
  | .ldbz v b o imm => some (.bz, o, v, s.g b + BitVec.ofInt 64 imm.toInt, 4)
  | .ldh v b o imm => some (.h, o, v, s.g b + BitVec.ofInt 64 (imm.toInt * 2), 4)
  | .ldhz v b o imm => some (.hz, o, v, s.g b + BitVec.ofInt 64 (imm.toInt * 2), 4)
  | .ldw v b o imm => some (.w, o, v, s.g b + BitVec.ofInt 64 (imm.toInt * 4), 4)
  | .ldwz v b o imm => some (.wz, o, v, s.g b + BitVec.ofInt 64 (imm.toInt * 4), 4)
  | .ldd v b o imm => some (.d, o, v, s.g b + BitVec.ofInt 64 (imm.toInt * 8), 4)
  | .ldx d a b k o => some (k, o, d, s.g a + s.g b * BitVec.ofNat 64 (ldSize k), 4)
  | .ldd16 d b => some (.d, .plain, d.setWidth 5, s.g (b.setWidth 5), 2)
  | .ldw16 d b => some (.w, .plain, d.setWidth 5, s.g (b.setWidth 5), 2)
  | .ldsp d imm => some (.d, .plain, d.setWidth 5, s.g 30 + BitVec.ofNat 64 (imm.toNat * 8), 2)
  | _ => none

/-- The kind, order, value, address and length of a store, in each of its forms (03 R86, 05 R121, R136). -/
def storeRow (s : State) : Instr → Option (StKind × MemOrder × Word × Word × Nat)
  | .stb v b o imm => some (.b, o, s.g v, s.g b + BitVec.ofInt 64 imm.toInt, 4)
  | .sth v b o imm => some (.h, o, s.g v, s.g b + BitVec.ofInt 64 (imm.toInt * 2), 4)
  | .stw v b o imm => some (.w, o, s.g v, s.g b + BitVec.ofInt 64 (imm.toInt * 4), 4)
  | .std v b o imm => some (.d, o, s.g v, s.g b + BitVec.ofInt 64 (imm.toInt * 8), 4)
  | .stx d a b k o => some (k, o, s.g d, s.g a + s.g b * BitVec.ofNat 64 (stSize k), 4)
  | .std16 d b => some (.d, .plain, s.g (d.setWidth 5), s.g (b.setWidth 5), 2)
  | .stw16 d b => some (.w, .plain, s.g (d.setWidth 5), s.g (b.setWidth 5), 2)
  | .stsp d imm => some (.d, .plain, s.g (d.setWidth 5), s.g 30 + BitVec.ofNat 64 (imm.toNat * 8), 2)
  | _ => none

/-- The size, order, scope and registers d, a and b of an atomic. -/
def atomFields : Instr → Option (AtomSize × AtomOrder × Scope × Reg × Reg × Reg)
  | .aadd d a b z o c => some (z, o, c, d, a, b)
  | .aand d a b z o c => some (z, o, c, d, a, b)
  | .aor d a b z o c => some (z, o, c, d, a, b)
  | .axor d a b z o c => some (z, o, c, d, a, b)
  | .amin d a b z o c => some (z, o, c, d, a, b)
  | .amax d a b z o c => some (z, o, c, d, a, b)
  | .aminn d a b z o c => some (z, o, c, d, a, b)
  | .amaxn d a b z o c => some (z, o, c, d, a, b)
  | .aswap d a b z o c => some (z, o, c, d, a, b)
  | .cas d a b z o c => some (z, o, c, d, a, b)
  | _ => none

/-- One row of R157: the new value of w bits from the old one, B and C. -/
def atomRow (w old B C new : Nat) : Instr → Prop
  | .aadd _ _ _ _ _ _ => new = (old + B) % 2 ^ w
  | .aand _ _ _ _ _ _ => new = old &&& B
  | .aor _ _ _ _ _ _ => new = old ||| B
  | .axor _ _ _ _ _ _ => new = old ^^^ B
  | .amin _ _ _ _ _ _ => new < 2 ^ w ∧ (new : Int).bmod (2 ^ w) = min ((old : Int).bmod (2 ^ w)) ((B : Int).bmod (2 ^ w))
  | .amax _ _ _ _ _ _ => new < 2 ^ w ∧ (new : Int).bmod (2 ^ w) = max ((old : Int).bmod (2 ^ w)) ((B : Int).bmod (2 ^ w))
  | .aminn _ _ _ _ _ _ => new = min old B
  | .amaxn _ _ _ _ _ _ => new = max old B
  | .aswap _ _ _ _ _ _ => new = B
  | .cas _ _ _ _ _ _ => new = if old = C then B else old
  | _ => False

/-- An access of n bytes at an address is aligned there and at its location, passes the checks of 05 R129 up to stage 1 without
changing anything, and lies where the caller reaches it at once. -/
structure At (s : State) (va : Word) (n acc : Nat) (l : Loc) : Prop where
  aligned : va.toNat % n = 0
  offset  : l.offset % n = 0
  located : ∀ r, s.locate va acc r = .ok l s
  here    : s.elsewhere l = none

/-- The number that a load writes for its bytes (05 R121). -/
def LoadValue (k : LdKind) (bs : List Byte) (v : Word) : Prop :=
  match k with
  | .b => v.toInt = (leNat bs : Int).bmod (2 ^ 8)
  | .h => v.toInt = (leNat bs : Int).bmod (2 ^ 16)
  | .w => v.toInt = (leNat bs : Int).bmod (2 ^ 32)
  | _ => v.toNat = leNat bs

/-- A load answers a next state in which g[d] holds the value of its bytes and the PC has advanced; no other register, no byte
of any memory and nothing but the caches (L1, RDC, L2) differs. -/
def Loads (out : Out) (s : State) (k : LdKind) (o : MemOrder) (d : Reg) (bs : List Byte) (len : Nat) (post : State → Prop) : Prop :=
  ∃ v t, out = .next t ∧ LoadValue k bs v ∧ GivesG s t d v ∧ (∀ r, t.x r = s.x r) ∧
    t.cur.regs.status = s.cur.regs.status ∧ t.pc = s.pc + word len ∧ SameTrapRegs s.cur.regs t.cur.regs ∧
    GoesOnAcq s t (decide (o = .acqRel)) ∧ SameBytes s t ∧
    t = { s with cur := t.cur, clusters := t.clusters, dies := t.dies, l2 := t.l2 } ∧ post t

/-- The RDC copy of a host line that the caller's die holds (13 R320). -/
def hostCopy (s : State) (l : Loc) : Option HostLine :=
  match l with
  | .host a => (s.die (dieOfCluster s.curCluster)).hostLine? a
  | _ => none

/-- The memories of the device are in canonical form. -/
def Canonical (s : State) : Prop := s.mem.wf = true ∧ s.hostMem.wf = true ∧ ∀ c, (s.cluster c).scratch.wf = true

/-- The n bytes from the address a of a memory hold the low bytes of v, and every other byte is the old one. -/
def BytesAre (old new : Memory) (a n v : Nat) : Prop :=
  ∀ x, new.read x = if a ≤ x ∧ x < a + n then BitVec.ofNat 8 (v / 256 ^ (x - a)) else old.read x

/-- Of all memories only the n bytes at a location have changed: they hold the low bytes of v. -/
def Stored (s t : State) (l : Loc) (n v : Nat) : Prop :=
  match l with
  | .dram p g => (∃ a, s.physOf p g = some a ∧ BytesAre s.mem t.mem a n v) ∧ t.hostMem = s.hostMem ∧
      ∀ c, (t.cluster c).scratch = (s.cluster c).scratch
  | .phys a => BytesAre s.mem t.mem a n v ∧ t.hostMem = s.hostMem ∧ ∀ c, (t.cluster c).scratch = (s.cluster c).scratch
  | .host a => BytesAre s.hostMem t.hostMem a n v ∧ t.mem = s.mem ∧ ∀ c, (t.cluster c).scratch = (s.cluster c).scratch
  | .scratch k a => t.mem = s.mem ∧ t.hostMem = s.hostMem ∧ BytesAre (s.cluster k).scratch (t.cluster k).scratch a n v ∧
      ∀ c, c ≠ k → (t.cluster c).scratch = (s.cluster c).scratch

/-- The running thread belongs to no ordered task. -/
def NotOrdered (s : State) : Prop := ∀ k, s.cur.task = some k → k.cls = .free

/-- No record of the fault ring waits for the line of a guest-physical address (22 R407). -/
def NoRecordWaits (s : State) (p g : Nat) : Prop := s.faults = [] ∨ g / 64 ≠ (s.part p).fscb.toNat / 64

/-- The location is backed and in no view range, and no record of the fault ring waits for the line there. -/
def Backed (s : State) (l : Loc) : Prop :=
  match l with
  | .dram p g => (∃ a, s.physOf p g = some a) ∧ (∀ k < 8, (s.part p).windowAt (g + k) = none) ∧ NoRecordWaits s p g
  | .phys a => ∀ p g, s.guestOf a = some (p, g) → NoRecordWaits s p g
  | _ => True

/-- The running context goes on, as in `GoesOn`, after an access: the first one of an ordered task acts as an acquire (13 R315). -/
def GoesOnAfterAccess (s t : State) : Prop :=
  let first := s.cur.task.any fun k => decide (k.cls = .ordered) && !k.accessed
  t.cur = { s.cur with
    regs := t.cur.regs, mid := false, acquired := if first then s.tick else s.cur.acquired
    task := s.cur.task.map fun k =>
      { k with retired := k.retired + 1, accessed := k.accessed || decide (k.cls = .ordered) } }

/-- No other ordered task of the running task's context has a line in its signature: a one-line commit of it aborts
none (13 R312, R316). -/
def AbortsNone (s : State) (line : Nat) : Prop :=
  ∀ k, s.cur.task = some k → k.cls = .ordered →
    ∀ x ∈ s.allTasks, x.uid ≠ k.uid → x.cls = .ordered → x.part = k.part → x.ctx = k.ctx → sigHits x.sig line = false

/-- A die differs at most in the invalidations that are on their way to it, for which a task's acquire waits (log 68). -/
def SameButInvalidations (s t : State) : Prop := ∀ d, t.die d = { s.die d with rdcInv := (t.die d).rdcInv }

/-- What a task has read at a home is noted with the invalidations of its die (see `SameButInvalidations`). -/
def AtHome (s : State) (p : State → Prop) : Prop :=
  ∃ dies, SameButInvalidations s { s with dies := dies } ∧ p { s with dies := dies }

/-- The instruction takes a trap into the handler with a record, after it has read at a home. -/
def TrapsAtHome (o : Out) (s : State) (kind : Nat) (taddr tinfo : Word) : Prop := AtHome s fun u => Traps o u kind taddr tinfo

/-- Of the registers only g[d] and the PC differ, and the context goes on; `acq` says that the instruction acts as an acquire. -/
def GivesOnly (s t : State) (d : Reg) (v pc : Word) (acq : Bool) : Prop :=
  GivesG s t d v ∧ (∀ k, t.x k = s.x k) ∧ t.cur.regs.status = s.cur.regs.status ∧ t.pc = pc ∧
  SameTrapRegs s.cur.regs t.cur.regs ∧ GoesOnAcq s t acq

/-- `TINFO` of 05 R130. -/
def accessWord (ord lsz acc : Nat) : Word := BitVec.ofNat 64 (ord * 64 + lsz * 16 + acc)

/-- log2 of an access size. -/
def sizeLog (n : Nat) : Nat := if n = 1 then 0 else if n = 2 then 1 else if n = 4 then 2 else 3

/-- The code of an order: 0 plain, 1 acquire or release, 2 direct, 3 stream (05 R130). -/
def ordCode (o : MemOrder) : Nat :=
  match o with
  | .plain => 0
  | .acqRel => 1
  | .direct => 2
  | .stream => 3

end Sys2Proof.Claims

/-- R121, R123, R124, R125, R320: a load that reaches its location completes: direct and acquire loads read the home, an acquire then
empties the caller's L1; plain and stream loads read the copy that the L1 or the RDC holds (of a host line, the copy in the RDC of
the caller's die), and the home when none does, a plain one leaving a copy in the L1 and a stream one leaving the L1 as it was; a
host line read from host memory stands in the die's RDC afterwards. g[v] receives the bytes, extended as the kind says.
Where the spec leaves a point open, what it says is the model's own choice: log 10. -/
def Obligations.LoadsReadTheirBytes : Prop :=
  ∀ (i : Instr) (k : LdKind) (o : MemOrder) (d : Reg) (va : Word) (len : Nat) (s u : State) (l : Loc),
    loadRow s i = some (k, o, d, va, len) → s.speculative = false → Warm s → At s va (ldSize k) 0 l →
    let n := ldSize k
    (o = .direct ∨ o = .acqRel → s.askHome l false = .granted u → s.poisonedAt l n = false →
      Loads (exec i s) s k o d (s.bytesAt l n) len fun t =>
        (o = .direct → t.clusters = s.clusters ∧ SameButInvalidations s t) ∧ (o = .acqRel → (t.cluster s.curCluster).l1 = [])) ∧
    (o = .plain ∨ o = .stream → ∀ c, s.cachedLine s.curCluster l = some c →
      ((c.poison.drop (l.offset % 64 / 8)).take ((l.offset % 64 % 8 + n + 7) / 8)).any id = false →
      Loads (exec i s) s k o d ((c.data.drop (l.offset % 64)).take n) len fun t => t.l2 = s.l2) ∧
    (o = .plain ∨ o = .stream → ∀ c, hostCopy s l = some c →
      ((c.poison.drop (l.offset % 64 / 8)).take ((l.offset % 64 % 8 + n + 7) / 8)).any id = false →
      Loads (exec i s) s k o d ((c.data.drop (l.offset % 64)).take n) len fun t => t.dies = s.dies) ∧
    (o = .plain ∨ o = .stream → s.cachedLine s.curCluster l = none → hostCopy s l = none → s.askHome l false = .granted u →
      s.poisonedAt l n = false →
      Loads (exec i s) s k o d (s.bytesAt l n) len fun t =>
        (∀ p g, l = .dram p g →
          (o = .plain → ∃ c ∈ (t.cluster s.curCluster).l1, c.vmid = (s.part p).vmid ∧ c.line = g / 64) ∧
          (o = .stream → (t.cluster s.curCluster).l1 = (s.cluster s.curCluster).l1)) ∧
        (∀ a, l = .host a → s.curCluster < 512 → ∃ c, (t.die (dieOfCluster s.curCluster)).hostLine? a = some c ∧ c.data = s.bytesAt (.host (a - a % 64)) 64))

/-- R121, R124, R128, R131, R315, R316: a store of a task that is not speculative, free or irrevocable, completes when it reaches its
location and its home grants it: the low bytes of g[v] stand at its address, every other byte of every memory is as before, a direct
store leaves no copy of the line in the caller's L1, and a whole doubleword loses its poison. An irrevocable task's store is broadcast
as a one-line commit: no cluster's L1 holds the line afterwards; here no other task has it in its signature (log 32). -/
def Obligations.StoresWriteTheirBytes : Prop :=
  ∀ (i : Instr) (k : StKind) (o : MemOrder) (v va : Word) (len : Nat) (s u : State) (l : Loc),
    storeRow s i = some (k, o, v, va, len) → s.speculative = false → Canonical s → At s va (stSize k) 1 l → Backed s l →
    s.askHome l true = .granted u → AbortsNone s (s.sigLine l) →
    ∃ t, exec i s = .next t ∧ SameRegs s t (s.pc + word len) ∧ GoesOnAfterAccess s t ∧ t.others = s.others ∧
      Stored s t l (stSize k) v.toNat ∧
      (o = .direct → ∀ p g, l = .dram p g →
        ∀ c ∈ (t.cluster s.curCluster).l1, ¬ (c.vmid = (s.part p).vmid ∧ c.line = g / 64)) ∧
      (∀ q, s.cur.task = some q → q.cls = .ordered →
        ∀ cl, ∀ c ∈ (t.cluster cl).l1, ¬ (c.vmid = (s.part q.part).vmid ∧ c.line = s.sigLine l)) ∧
      (stSize k = 8 → t.dwordPoisoned l = false)

/-- R157: an atomic of a free task that reaches its location completes: the location takes the new value of its row, g[d] the old
one (of four bytes sign-extended), and no other register and no other byte changes; with an acquire from `.die` on the caller's L1 is
empty afterwards. -/
def Obligations.AtomicsReadModifyWrite : Prop :=
  ∀ (i : Instr) (z : AtomSize) (o : AtomOrder) (c : Scope) (d a b : Reg) (s u : State) (l : Loc),
    atomFields i = some (z, o, c, d, a, b) → NotOrdered s → Canonical s →
    let n := atomBytes z
    At s (s.g a) n 1 l → Backed s l → s.askHome l true = .granted u → s.poisonedAt l n = false →
    let old := leNat (s.bytesAt l n)
    ∃ new v t, atomRow (8 * n) old ((s.g b).toNat % 2 ^ (8 * n)) ((s.g d).toNat % 2 ^ (8 * n)) new i ∧
      exec i s = .next t ∧ Stored s t l n new ∧
      (n = 8 → v.toNat = old) ∧ (n = 4 → v.toInt = (old : Int).bmod (2 ^ 32)) ∧
      GivesOnly s t d v (s.pc + 4) (decide (o = .acq ∨ o = .ar)) ∧
      (o = .acq ∨ o = .ar → c ≠ .cl → (t.cluster s.curCluster).l1 = [])

/-- R122, R129, R130, R153: a load, store or atomic whose address is no multiple of its size traps misaligned with that address, and an
aligned one whose address is not canonical, or lies in the reserved range outside every scratchpad, traps unmapped, both with
`TINFO` naming order, size and access, and with no other effect. On a command core, which addresses memory physically, an address
that no memory answers traps unmapped (log 12). -/
def Sys2Proof.Claims.BadAddressesTrap : Prop :=
  ∀ (i : Instr) (s : State), Enters s →
    let traps (n : Nat) (va info : Word) : Prop :=
      (va.toNat % n ≠ 0 → Traps (exec i s) s 0x02 va info) ∧
      (va.toNat % n = 0 → s.cur.id.kind = .barrel → s.place s.curPart s.curCluster va = .unmapped →
        Traps (exec i s) s 0x04 va info) ∧
      (va.toNat % n = 0 → s.cur.id.kind = .command → populated va.toNat = false → Traps (exec i s) s 0x04 va info)
    (∀ k o d va len, loadRow s i = some (k, o, d, va, len) →
      traps (ldSize k) va (accessWord (ordCode o) (sizeLog (ldSize k)) 0)) ∧
    (∀ k o v va len, storeRow s i = some (k, o, v, va, len) →
      traps (stSize k) va (accessWord (ordCode o) (sizeLog (stSize k)) 1)) ∧
    (∀ z o c d a b, atomFields i = some (z, o, c, d, a, b) →
      traps (atomBytes z) (s.g a) (accessWord 1 (sizeLog (atomBytes z)) 1))

/-- R129, R32, R75, R127, R131: an aligned access to a translated address for which the caller's TLB holds nothing drops the thread for
a walk, with no register and no memory changed and the PC at the access, or, with the cluster's 16 walks in flight, leaves it to ask
again; a store into a view range traps access; a direct or acquire load of a poisoned doubleword traps poisoned data and writes no
register. -/
def Sys2Proof.Claims.AccessesThatDoNotComplete : Prop :=
  ∀ (i : Instr) (s : State), s.cur.id.kind = .barrel → s.hostPasid = none →
    let walks (n : Nat) (va : Word) : Prop :=
      va.toNat % n = 0 → s.place s.curPart s.curCluster va = .paged →
      s.tlbHit (s.tlbOf s.cur) (coreOfThread s.cur.id) false s.curPart (s.asid s.curPart s.curCtx) va.toNat = none →
      (s.walkerFull (s.tlbOf s.cur) = false →
        ∃ t w, exec i s = .next t ∧ t.cur = { s.cur with wait := .walk w } ∧ SameBytes s t ∧ ∃ k ∈ t.walks, k.id = w ∧ k.va = va) ∧
      (s.walkerFull (s.tlbOf s.cur) = true → exec i s = .next s)
    let viewed (n : Nat) (va info : Word) : Prop :=
      ∀ e, Enters s → va.toNat % n = 0 → s.place s.curPart s.curCluster va = .paged →
        s.tlbHit (s.tlbOf s.cur) (coreOfThread s.cur.id) false s.curPart (s.asid s.curPart s.curCtx) va.toNat = some e →
        ((s.part s.curPart).windowAt (s.selected s.curPart (e.gpaOf va))).isSome = true → Traps (exec i s) s 0x03 va info
    (∀ k o d va len, loadRow s i = some (k, o, d, va, len) → walks (ldSize k) va ∧
      (∀ l u, Enters s → s.speculative = false → Warm s → o = .direct ∨ o = .acqRel → At s va (ldSize k) 0 l →
        s.askHome l false = .granted u → s.poisonedAt l (ldSize k) = true →
        TrapsAtHome (exec i s) { s with l2 := u.l2 } 0x10 va (accessWord (ordCode o) (sizeLog (ldSize k)) 0))) ∧
    (∀ k o v va len, storeRow s i = some (k, o, v, va, len) → walks (stSize k) va ∧
      viewed (stSize k) va (accessWord (ordCode o) (sizeLog (stSize k)) 1)) ∧
    (∀ z o c d a b, atomFields i = some (z, o, c, d, a, b) → walks (atomBytes z) (s.g a) ∧
      viewed (atomBytes z) (s.g a) (accessWord 1 (sizeLog (atomBytes z)) 1))

/-- R126, R155, R315: inside an ordered task that is not irrevocable a store is held in the SSB, where a later load of the task finds its
bytes, and no memory changes; a load enters its line in the read signature and returns the task's own buffered bytes; the first of
either is an acquire; a direct access and an atomic stall until the task holds the summit. -/
def Sys2Proof.Claims.SpeculativeAccesses : Prop :=
  ∀ (i : Instr) (s u : State) (l : Loc) (q : Task), s.cur.task = some q → s.speculative = true →
    (∀ k o v va len, storeRow s i = some (k, o, v, va, len) → o ≠ .direct → At s va (stSize k) 1 l →
      (s.cluster s.curCluster).ssbRoom q.uid l = true → s.askHome l true = .granted u →
      ∃ t, exec i s = .next t ∧ SameRegs s t (s.pc + word len) ∧ SameBytes s t ∧
        t.cur = { s.cur with
          regs := t.cur.regs, mid := false, acquired := if q.accessed then s.cur.acquired else s.tick
          task := some { q with retired := q.retired + 1, accessed := true } } ∧
        (q.accessed = false → (t.cluster s.curCluster).l1 = []) ∧
        ∀ bs : List Byte, bs.length = stSize k → (t.cluster s.curCluster).overlay q.uid l bs = leBytes (stSize k) v.toNat) ∧
    (∀ k o d va len, loadRow s i = some (k, o, d, va, len) → o ≠ .direct → At s va (ldSize k) 0 l →
      s.noSigRoom l = false → s.askHome l false = .granted u → s.poisonedAt l (ldSize k) = false →
      s.cachedLine s.curCluster l = none → hostCopy s l = none →
      ∃ v t r, exec i s = .next t ∧ t.cur.task = some r ∧ r.uid = q.uid ∧ r.accessed = true ∧ sigHits r.sig (s.sigLine l) = true ∧
        GivesG s t d v ∧ SameBytes s t ∧
        LoadValue k ((s.cluster s.curCluster).overlay q.uid l (s.bytesAt l (ldSize k))) v ∧ t.pc = s.pc + word len) ∧
    (∀ va n acc, At s va n acc l →
      (∀ k d len, loadRow s i = some (k, .direct, d, va, len) → n = ldSize k → acc = 0 →
        ∃ t, exec i s = .next t ∧ t.cur = { s.cur with wait := .summit } ∧ SameBytes s t) ∧
      (∀ k v len, storeRow s i = some (k, .direct, v, va, len) → n = stSize k → acc = 1 →
        ∃ t, exec i s = .next t ∧ t.cur = { s.cur with wait := .summit } ∧ SameBytes s t) ∧
      (∀ z o c d a b, atomFields i = some (z, o, c, d, a, b) → va = s.g a → n = atomBytes z → acc = 1 →
        ∃ t, exec i s = .next t ∧ t.cur = { s.cur with wait := .summit } ∧ SameBytes s t))

namespace Sys2Proof.Claims

/-! ### Ropes, counters and futures -/

/-- A structure at an address, aligned to `align`, passes the checks of 05 R129 and 07 R152 in the state r and lies in device
memory at (p, g), backed and without poison in the words that the instruction reads; u is r with the L2 line marked by the access. -/
structure OnWord (r u : State) (va : Word) (align acc p g : Nat) : Prop where
  aligned : va.toNat % align = 0
  offset  : g % align = 0
  located : ∀ x, r.locate va acc x = .ok (.dram p g) r
  device  : ∀ k < align, (r.part p).windowAt (g + k) = none
  granted : r.askHome (.dram p g) (acc == 1) = .granted u
  whole   : r.poisonedAt (.dram p (g + if align = 64 then 0x18 else 0)) (if align = 16 then 16 else 8) = false
  backed  : ∀ k < align, ∃ a, r.physOf p g = some a ∧ r.physOf p (g + k) = some (a + k)

/-- A structure instruction completes with the PC past it: no register but g[d] is written, the task goes on, and the n bytes at
(p, g) have become v. -/
def OnlyStores (o : Out) (u : State) (d : Reg) (old : Word) (p g n v : Nat) (post : State → Prop) : Prop :=
  ∃ t, o = .next t ∧ GivesOnly u t d old (u.pc + 4) false ∧ t.others = u.others ∧ Stored u t (.dram p g) n v ∧ post t

/-- A structure instruction completes with the PC past it and changes no byte of memory. -/
def OnlyReads (o : Out) (u : State) (d : Reg) (v : Word) (acq : Bool) (post : State → Prop) : Prop :=
  ∃ t, o = .next t ∧ GivesOnly u t d v (u.pc + 4) acq ∧ SameBytes u t ∧ post t

/-- The caller's L1 is empty. -/
def Acquired (t : State) : Prop := (t.cluster t.curCluster).l1 = []

/-- No record waits at a word, and no queue of the partition is held at a `WAITF`. -/
def NoneWaits (s : State) (p g : Nat) : Prop :=
  (∀ b ∈ s.biv, ¬ (b.part = p ∧ b.gpa = g)) ∧ ∀ e ∈ (s.part p).queues, e.2.state ≠ 1

/-- `PHASE`, `BROKEN`, `PEND` and `PER` of a rope's word 0 (07 R161). -/
def phaseOf (w : Word) : Nat := w.toNat / 2 ^ 63
def pendOf (w : Word) : Nat := w.toNat / 2 ^ 32 % 2 ^ 30
def perOf (w : Word) : Nat := w.toNat % 2 ^ 32
def brokenOf (w : Word) : Prop := w.getLsbD 62 = true

/-- The running task's context has moved to its cluster's context store, where it waits with its PC at the instruction, and the
thread context is free (01 R30). -/
def Parks (s t : State) (m : Resume) : Prop :=
  t.cur.wait = .free ∧ t.cur.task = none ∧ t.cur.tq = [] ∧
  ∃ e ∈ (t.cluster s.curCluster).store, e.resume = m ∧ e.len = 4 ∧ e.inArea = false ∧ e.thread.regs = s.cur.regs ∧
    e.thread.task.map (fun k => k.uid) = s.cur.task.map (fun k => k.uid)

/-- The bivouac table of a die has room (07 R168). -/
def TableRoom (s : State) (d : Nat) : Prop := (s.biv.filter fun x => x.die == d && !x.spill).length < 4096

end Sys2Proof.Claims

/-! ### The `SYNC` major -/

/-- R161, R162, R163: on a rope at which nothing waits and that is unbound, `RPINIT` writes both words, `RPARR` gives word 0 as found
and lowers `PEND` and `BYTES`, or completes the phase, `RPEXP` raises `BYTES`, both leave a broken rope alone, `RPTEST` gives word 0 and `RPWAIT`
returns at once from a broken rope or a passed phase. Nothing else of the thread or of memory changes. -/
def Sys2Proof.Claims.RopeInstructions : Prop :=
  ∀ (d a b : Reg) (s u : State) (p g : Nat), s.speculative = false → Warm s → Canonical s →
    (OnWord (s.release .prt) u (s.g a) 16 1 p g → NoneWaits u p g → (u.part p).bindings.find? (fun x => x.gpa == g) = none →
      let w := u.readD p g
      let bytes := (u.readD p (g + 8)).toNat
      let n := (s.g b).toNat
      (n % 2 ^ 32 ≠ 0 → n % 2 ^ 32 < 2 ^ 30 →
        OnlyStores (exec (.rpinit a b) s) u 0 0 p g 16 (n % 2 ^ 32 * 2 ^ 32 + n % 2 ^ 32) fun t =>
          ∀ x ∈ (t.part p).bindings, x.gpa ≠ g) ∧
      (brokenOf w → OnlyReads (exec (.rparr d a b) s) u d w false fun _ => True) ∧
      (¬ brokenOf w → pendOf w ≠ 0 → n ≤ bytes → ¬ (pendOf w = 1 ∧ n = bytes) →
        OnlyStores (exec (.rparr d a b) s) u d w p g 16 (w.toNat - 2 ^ 32 + (bytes - n) * 2 ^ 64) fun _ => True) ∧
      (¬ brokenOf w → pendOf w = 1 → n = bytes →
        OnlyStores (exec (.rparr d a b) s) u d w p g 16
          ((1 - phaseOf w) * 2 ^ 63 + perOf w % 2 ^ 30 * 2 ^ 32 + perOf w) fun _ => True)) ∧
    (OnWord s u (s.g a) 16 1 p g →
      let w := u.readD p g
      let bytes := (u.readD p (g + 8)).toNat
      (brokenOf w → OnlyReads (exec (.rpexp a b) s) u 0 0 false fun _ => True) ∧
      (¬ brokenOf w → bytes + (s.g b).toNat < 2 ^ 64 →
        OnlyStores (exec (.rpexp a b) s) u 0 0 p (g + 8) 8 (bytes + (s.g b).toNat) fun _ => True) ∧
      (brokenOf w → OnlyReads (exec (.rpwait d a b) s) u d 1 true Acquired) ∧
      (¬ brokenOf w → phaseOf w ≠ (s.g b).toNat / 2 ^ 63 → OnlyReads (exec (.rpwait d a b) s) u d 0 true Acquired)) ∧
    (OnWord s u (s.g a) 16 0 p g →
      OnlyReads (exec (.rptest d a) s) u d (BitVec.ofNat 64 (leNat (u.bytesAt (.dram p g) 8))) true Acquired)

/-- R165, R166, R174, R23: on a future at which nothing waits, `FRES` and `FPOIS` write the final word, `FWAIT` of a final one returns
`PAYLOAD` and `STATE` at once, `FTEST` gives the word; `DCDEC`, and `FLINK` of a final future, lower the counter of a header by one;
`FLINK` of an empty future records a link and marks the word. -/
def Sys2Proof.Claims.FuturesAndCounters : Prop :=
  ∀ (d a b : Reg) (s u : State) (p g : Nat), s.speculative = false → Warm s → Canonical s →
    (OnWord (s.release .prt) u (s.g a) 8 1 p g → NoneWaits u p g → (u.readD p g).toNat / 2 ^ 62 < 2 →
      OnlyStores (exec (.fres a b) s) u 0 0 p g 8 (2 * 2 ^ 62 + (s.g b).toNat % 2 ^ 62) (fun _ => True) ∧
      OnlyStores (exec (.fpois a b) s) u 0 0 p g 8 (3 * 2 ^ 62 + (s.g b).toNat % 2 ^ 62) (fun _ => True)) ∧
    (OnWord s u (s.g a) 8 1 p g → 2 ≤ (u.readD p g).toNat / 2 ^ 62 →
      ∃ t, exec (.fwait d a b) s = .next t ∧ t.pc = s.pc + 4 ∧ SameBytes u t ∧ Acquired t ∧ GoesOnAcq s t true ∧
        ∀ r, t.g r = if r = 0 then 0 else if r = b then word ((u.readD p g).toNat / 2 ^ 62)
          else if r = d then word ((u.readD p g).toNat % 2 ^ 62) else s.g r) ∧
    (OnWord s u (s.g a) 8 0 p g →
      OnlyReads (exec (.ftest d a) s) u d (BitVec.ofNat 64 (leNat (u.bytesAt (.dram p g) 8))) true Acquired) ∧
    (OnWord (s.release .prt) u (s.g a) 64 1 p g → (u.readD p (g + 0x18)).toNat / 2 ^ 16 % 2 ^ 16 ≠ 0 →
      OnlyStores (exec (.dcdec a) s) u 0 0 p (g + 0x18) 8 ((u.readD p (g + 0x18)).toNat - 2 ^ 16) fun _ => True) ∧
    (∀ (v : State) (h : Nat), OnWord s u (s.g a) 8 1 p g → OnWord u v (s.g b) 64 1 p h →
      (2 ≤ (v.readD p g).toNat / 2 ^ 62 → (v.readD p (h + 0x18)).toNat / 2 ^ 16 % 2 ^ 16 ≠ 0 →
        OnlyStores (exec (.flink a b) s) v 0 0 p (h + 0x18) 8 ((v.readD p (h + 0x18)).toNat - 2 ^ 16) fun _ => True) ∧
      ((v.readD p g).toNat / 2 ^ 62 < 2 → TableRoom v (v.homeDie p g) →
        OnlyStores (exec (.flink a b) s) v 0 0 p g 8 (2 ^ 62 + (v.readD p g).toNat % 2 ^ 62) fun t =>
          ∃ x ∈ t.biv, x.part = p ∧ x.gpa = g ∧ x.die = v.homeDie p g ∧ x.kind = .link (s.g b) h ∧ x.spill = false))

/-- R30, R163, R166, R168: `RPWAIT` of the current phase and `FWAIT` of an empty future park a barrel thread's task, with a record in
the table of the word's home die; `FWAIT` sets `STATE` to 1 and no other bit of any memory changes. -/
def Sys2Proof.Claims.WaitsPark : Prop :=
  ∀ (d a b : Reg) (s u : State) (p g : Nat) (k : Task), s.speculative = false → Warm s → Canonical s → s.cur.id.kind = .barrel →
    s.cur.task = some k → (s.cluster s.curCluster).stored < 170 → TableRoom s (s.homeDie p g) →
    (OnWord s u (s.g a) 16 1 p g → ¬ brokenOf (u.readD p g) → phaseOf (u.readD p g) = (s.g b).toNat / 2 ^ 63 →
      ∃ t, exec (.rpwait d a b) s = .next t ∧ Parks s t (.rpwait d) ∧ SameBytes u t ∧
        ∃ x ∈ t.biv, x.part = p ∧ x.gpa = g ∧ x.die = s.homeDie p g ∧
          x.kind = .rope k.uid ((s.g b).getLsbD 63)) ∧
    (OnWord s u (s.g a) 8 1 p g → (u.readD p g).toNat / 2 ^ 62 < 2 →
      ∃ t, exec (.fwait d a b) s = .next t ∧ Parks s t (.fwait d b) ∧
        Stored u t (.dram p g) 8 (2 ^ 62 + (u.readD p g).toNat % 2 ^ 62) ∧
        ∃ x ∈ t.biv, x.part = p ∧ x.gpa = g ∧ x.die = s.homeDie p g ∧ x.kind = .future k.uid)

/-- R31, R162, R167: the wake of a parked task ends its wait on the cluster where it parked: its registers hold the result, its PC
has passed the instruction, it stands in that cluster's ready queue with its priority, the cluster's L1 is empty, and it is parked no
more. -/
def Sys2Proof.Claims.WakesCompleteTheWait : Prop :=
  ∀ (s : State) (uid cl : Nat) (v : Word) (k : Parked) (q : Task),
    s.clusters.findSome? (fun e => (e.2.store.find? (fun x => x.isTask uid)).map fun x => (e.1, x)) = some (cl, k) →
    k.thread.task = some q →
    let t := s.wakeTask uid v
    (∃ e ∈ (t.cluster cl).readyQ, ∃ th, e.job = .saved th k.inArea ∧ th.regs.pc = k.thread.regs.pc + word k.len ∧
      e.prio = q.prio ∧ e.part = q.part ∧ e.ctx = q.ctx ∧ e.stamp = s.tick ∧
      (∀ d, k.resume = .rpwait d → d ≠ 0 → th.regs.readG d = v) ∧
      (∀ d b, k.resume = .fwait d b → b ≠ 0 → th.regs.readG b = word (v.toNat / 2 ^ 62)) ∧
      (∀ d b, k.resume = .fwait d b → d ≠ 0 → d ≠ b → th.regs.readG d = word (v.toNat % 2 ^ 62)) ∧
      (∀ d n, k.resume = .waitwp d n → d ≠ 0 → th.regs.readG d = v) ∧
      (∀ d, k.resume = .sysc d → d ≠ 0 → th.regs.readG d = v)) ∧
    ((∀ d n, k.resume ≠ .waitwp d n) → (t.cluster cl).l1 = []) ∧
    (∀ x ∈ (t.cluster cl).store, x.isTask uid = false) ∧ t.mem = s.mem

namespace Sys2Proof.Claims

/-- A structure address lies outside the device memory that a structure may use: at a place that is no device memory, or in a view
range, which the checks of an access meet or bar (07 R152). -/
def OutsideDevice (r : State) (va : Word) (acc : Nat) : Prop :=
  (∃ l, (∀ x, r.locate va acc x = .ok l r) ∧ ∀ q h, l = .dram q h → ((r.part q).windowAt h).isSome = true) ∨
  (∀ x, r.locate va acc x = .trap { x with kind := 0x03 } r)

end Sys2Proof.Claims

/-- R152, R153, R154, R163, R166, R174: the misuses of ropes, futures and counters trap with kind, cause and detail, with no register and
no byte of memory changed; a rope, future or header of any of their instructions that lies outside device memory, or in a view range,
traps access, cause 8.
Where the spec leaves a point open, what it says is the model's own choice: log 22. -/
def Obligations.SyncMisuseTraps : Prop :=
  ∀ (d a b : Reg) (s u : State) (p g : Nat), s.speculative = false → Warm s → Enters s →
    (OnWord (s.release .prt) u (s.g a) 16 1 p g →
      let w := u.readD p g
      let bytes := (u.readD p (g + 8)).toNat
      let n := (s.g b).toNat
      (n % 2 ^ 32 = 0 ∨ 2 ^ 30 ≤ n % 2 ^ 32 → TrapsAtHome (exec (.rpinit a b) s) u 0x12 (s.g a) (causeWord 4 (pendOf w))) ∧
      (n % 2 ^ 32 ≠ 0 → n % 2 ^ 32 < 2 ^ 30 → (∃ x ∈ u.biv, x.part = p ∧ x.gpa = g ∧ ∃ i f, x.kind = .rope i f) →
        TrapsAtHome (exec (.rpinit a b) s) u 0x12 (s.g a) (causeWord 5 (pendOf w))) ∧
      (¬ brokenOf w → pendOf w = 0 → TrapsAtHome (exec (.rparr d a b) s) u 0x12 (s.g a) (causeWord 1 0)) ∧
      (¬ brokenOf w → pendOf w ≠ 0 → bytes < n → TrapsAtHome (exec (.rparr d a b) s) u 0x12 (s.g a) (causeWord 2 (pendOf w)))) ∧
    (OnWord s u (s.g a) 16 1 p g → ¬ brokenOf (u.readD p g) → 2 ^ 64 ≤ (u.readD p (g + 8)).toNat + (s.g b).toNat →
      TrapsAtHome (exec (.rpexp a b) s) u 0x12 (s.g a) (causeWord 3 (pendOf (u.readD p g)))) ∧
    (OnWord (s.release .prt) u (s.g a) 8 1 p g → 2 ≤ (u.readD p g).toNat / 2 ^ 62 →
      TrapsAtHome (exec (.fres a b) s) u 0x0B (s.g a) (causeWord 1 ((u.readD p g).toNat / 2 ^ 62)) ∧
      TrapsAtHome (exec (.fpois a b) s) u 0x0B (s.g a) (causeWord 2 ((u.readD p g).toNat / 2 ^ 62))) ∧
    (OnWord (s.release .prt) u (s.g a) 64 1 p g → (u.readD p (g + 0x18)).toNat / 2 ^ 16 % 2 ^ 16 = 0 →
      TrapsAtHome (exec (.dcdec a) s) u 0x0A (s.g a) (causeWord 2 0)) ∧
    (∀ (v : State) (h : Nat), OnWord s u (s.g a) 8 1 p g → OnWord u v (s.g b) 64 1 p h → 2 ≤ (v.readD p g).toNat / 2 ^ 62 →
      (v.readD p (h + 0x18)).toNat / 2 ^ 16 % 2 ^ 16 = 0 →
      TrapsAtHome (exec (.flink a b) s) v 0x0A (s.g b) (causeWord 4 0)) ∧
    (let outside (i : Instr) (r : State) (va : Word) (align acc : Nat) : Prop :=
       va.toNat % align = 0 → OutsideDevice r va acc → Traps (exec i s) r 0x03 va (causeWord 8 0)
     let released := s.release .prt
     outside (.rpinit a b) released (s.g a) 16 1 ∧ outside (.rparr d a b) released (s.g a) 16 1 ∧
     outside (.rpexp a b) s (s.g a) 16 1 ∧ outside (.rpwait d a b) s (s.g a) 16 1 ∧ outside (.rptest d a) s (s.g a) 16 0 ∧
     outside (.fres a b) released (s.g a) 8 1 ∧ outside (.fpois a b) released (s.g a) 8 1 ∧
     outside (.fwait d a b) s (s.g a) 8 1 ∧ outside (.ftest d a) s (s.g a) 8 0 ∧ outside (.flink a b) s (s.g a) 8 1 ∧
     outside (.dcdec a) released (s.g a) 64 1 ∧
     (OnWord s u (s.g a) 8 1 p g → (s.g b).toNat % 64 = 0 → OutsideDevice u (s.g b) 1 →
       TrapsAtHome (exec (.flink a b) s) u 0x03 (s.g b) (causeWord 8 0)))

namespace Sys2Proof.Claims

/-! ### Tasks -/

/-- A 64-byte line at an address passes the checks of a read of 05 R129 and 07 R152: it lies in device memory at (p, g), present in
the L2, outside every view range and without poison; u is s with the line used in its L2 slice. -/
structure LineAt (s u : State) (va : Word) (p g : Nat) : Prop where
  located : ∀ x, s.locate va 0 x = .ok (.dram p g) s
  device  : (s.part p).windowAt g = none
  granted : s.askHome (.dram p g) false = .granted u
  whole   : s.poisonedAt (.dram p g) 64 = false

/-- The 128 bytes of a header at an address, whose home is (p, g). -/
structure HeaderAt (s u : State) (hdr : Word) (p g : Nat) (bs : List Byte) : Prop where
  aligned : hdr.toNat % 64 = 0
  lines   : ∃ v h, LineAt s v hdr p g ∧ LineAt v u (hdr + 64) p h ∧ bs = s.bytesAt (.dram p g) 64 ++ s.bytesAt (.dram p h) 64

/-- n bytes of a block from an offset, as a number. -/
def field (bs : List Byte) (off n : Nat) : Nat := leNat ((bs.drop off).take n)

/-- The fields of `CTRL` (07 R169). -/
def ctrlOf (bs : List Byte) : Nat := field bs 0x18 8
def classOf (bs : List Byte) : Nat := ctrlOf bs % 4
def prioOf (bs : List Byte) : Nat := ctrlOf bs / 2 ^ 2 % 8
def nsuccOf (bs : List Byte) : Nat := ctrlOf bs / 2 ^ 6 % 8
def ntileOf (bs : List Byte) : Nat := ctrlOf bs / 2 ^ 9 % 8
def depsOf (bs : List Byte) : Nat := ctrlOf bs / 2 ^ 16 % 2 ^ 16

/-- The first of the checks 2 to 10 of 07 R171 that a header fails, as trap kind and cause; `n` is the count of instances, and `own` the
key of a spawning ordered task. -/
def headerFails (bs : List Byte) (registered : Bool) (n : Nat) (own : Option Word) : Option (Nat × Nat) :=
  if classOf bs = 2 ∨ classOf bs = 3 then some (0x01, 7)
  else if nsuccOf bs > 4 ∨ ntileOf bs > 4 then some (0x03, 1)
  else if ctrlOf bs / 2 ^ 12 % 16 ≠ 0 then some (0x03, 2)
  else if classOf bs = 0 ∧ field bs 0x10 8 ≠ 0 then some (0x03, 3)
  else if field bs 0 8 % 2 = 1 then some (0x03, 4)
  else if ∃ i < nsuccOf bs, field bs (0x20 + 8 * i) 8 % 64 ≠ 0 then some (0x03, 5)
  else if registered = true then some (0x03, 6)
  else if n ≥ 2 ^ 32 ∨ (classOf bs = 1 ∧ field bs 0x10 8 + n > 2 ^ 64) then some (0x03, 7)
  else if classOf bs = 1 ∧ (own.any fun w => decide (field bs 0x10 8 < w.toNat)) = true then some (0x0D, 1)
  else none

/-- The key that an ordered task brings to the checks. -/
def ownKey (k : Task) : Option Word := if k.cls = .ordered then some k.key else none

/-- A registration holds a header as it was read (07 R170). -/
def RegistrationHolds (r : Registration) (k : Task) (hdr : Word) (g n : Nat) (range : Bool) (bs : List Byte) : Prop :=
  r.part = k.part ∧ r.ctx = k.ctx ∧ r.va = hdr ∧ r.gpa = g ∧ r.n = n ∧ r.live = n ∧ r.range = range ∧ r.ended = false ∧
  r.hdr.entry.toNat = field bs 0 8 ∧ r.hdr.arg.toNat = field bs 8 8 ∧ r.hdr.key.toNat = field bs 0x10 8 ∧
  r.hdr.ctrl.toNat = ctrlOf bs ∧ r.hdr.succ.length = nsuccOf bs ∧ r.hdr.tiles.length = ntileOf bs ∧
  (∀ i < nsuccOf bs, (r.hdr.succ[i]?).map (fun w => w.toNat) = some (field bs (0x20 + 8 * i) 8))

/-- The thread context of a task at its entry (01 R25): `g28` holds the header address, `g1` the argument, `g2` the instance of a
range, `sp` the top of its stack, every other register 0, the PC the entry, and `STATUS` user mode with the partition's `DET`. -/
structure AtEntry (s : State) (r : Registration) (i prio : Nat) (th : Thread) : Prop where
  pc     : th.regs.pc = r.hdr.entry
  hdr    : th.regs.readG 28 = r.va
  arg    : th.regs.readG 1 = r.hdr.arg
  index  : th.regs.readG 2 = if r.range then word i else 0
  stack  : th.regs.readG 30 = s.ctxField r.part r.ctx 0x18 +
             BitVec.ofNat 64 (128 * (s.part r.part).logicalCl th.id.unit + th.id.slot + 1) * s.ctxField r.part r.ctx 0x20
  zero   : ∀ g : Reg, g ∉ [1, 2, 28, 30] → th.regs.readG g = 0
  x      : ∀ k, th.regs.readX k = 0
  status : ∀ j < 64, th.regs.status.getLsbD j = (decide (j = 10) && (s.part r.part).pdesc.getLsbD 62)
  task   : ∃ k, th.task = some k ∧ k.part = r.part ∧ k.ctx = r.ctx ∧ k.reg = r.id ∧ k.idx = i ∧ k.prio = prio ∧
             (k.cls = .ordered ↔ r.hdr.ctrl.toNat % 4 = 1) ∧
             k.key = (if r.hdr.ctrl.toNat % 4 = 1 then r.hdr.key + word i else 0)
  ready  : th.wait = .ready

/-- The thread context is free and its task gone. -/
def Gone (t : State) (id : Tid) : Prop := t.cur.id = id ∧ t.cur.wait = .free ∧ t.cur.task = none ∧ t.cur.tq = []

/-- No tile and no bank set of a cluster belongs to a task. -/
def NoArray (t : State) (cl uid : Nat) : Prop :=
  (∀ x ∈ (t.cluster cl).tiles, x.owner ≠ uid) ∧ ∀ x ∈ (t.cluster cl).sets, x.owner ≠ uid

/-- The task stalls at its instruction until it holds the summit (07 R155). -/
def Stalls (o : Out) (s : State) (k : Task) : Prop :=
  ∃ t, o = .next t ∧ t.cur = { s.cur with wait := .summit } ∧ k.uid ∈ (t.ctxState k.part k.ctx).stalled ∧ SameBytes s t

end Sys2Proof.Claims

/-! ### The `TASK` major -/

/-- R22, R169, R170, R172, R173: `SPAWN` and `SPAWNR` of a header that passes the checks register it with the fields read; with
`DEPS` = 0 it is ready at once and a single task without read tiles stands in the ready queue of the cluster that the round-robin of
its home die names, or is on its way there; with `DEPS` > 0 it is held, with a record on its home die. A range of no
instance registers nothing. No register but the PC changes. -/
def Obligations.SpawnRegistersTheHeader : Prop :=
  ∀ (d a b : Reg) (s u : State) (k : Task) (p g : Nat) (bs : List Byte), s.cur.task = some k → k.part = p →
    HeaderAt (s.release .prt) u (s.g a) p g bs → s.speculative = false → Warm s →
    let registered := s.regs.any fun r => r.part == p && r.gpa == g
    (headerFails bs registered 1 (ownKey k) = none →
      (depsOf bs = 0 → ∃ t r, exec (.spawn a) s = .next t ∧ SameRegs s t (s.pc + 4) ∧ GoesOn s t ∧ SameBytes s t ∧
        r ∈ t.regs ∧ r.held = false ∧ RegistrationHolds r k (s.g a) g 1 false bs ∧
        (ntileOf bs = 0 → let cl := (s.roundRobin p (s.homeDie p g)).1
          (dieOfCluster cl = s.homeDie p g → ∃ e ∈ (t.cluster cl).readyQ, e.job = .fresh r.id 0 none ∧ e.prio = prioOf bs ∧
            e.part = p ∧ e.ctx = k.ctx ∧ e.stamp = s.tick ∧ (e.ordered = true ↔ classOf bs = 1)) ∧
          (dieOfCluster cl ≠ s.homeDie p g → ∃ f ∈ (t.die (dieOfCluster cl)).forwards, f.cl = cl ∧
            f.entry.job = .fresh r.id 0 none ∧ f.entry.prio = prioOf bs))) ∧
      (depsOf bs ≠ 0 → TableRoom s (s.homeDie p g) →
        ∃ t r, exec (.spawn a) s = .next t ∧ SameRegs s t (s.pc + 4) ∧ GoesOn s t ∧ SameBytes s t ∧
          r ∈ t.regs ∧ r.held = true ∧ RegistrationHolds r k (s.g a) g 1 false bs ∧
          ∃ x ∈ t.biv, x.kind = .held r.id ∧ x.die = s.homeDie p g ∧ x.part = p ∧ x.gpa = g)) ∧
    (d = 0 ∨ s.g d = 0 → (s.g b).toNat ≠ 0 → headerFails bs registered (s.g b).toNat (ownKey k) = none →
      (depsOf bs = 0 → ∃ t r, exec (.spawnr d a b) s = .next t ∧ SameRegs s t (s.pc + 4) ∧ GoesOn s t ∧ SameBytes s t ∧
        r ∈ t.regs ∧ r.held = false ∧ RegistrationHolds r k (s.g a) g (s.g b).toNat true bs) ∧
      (depsOf bs ≠ 0 → TableRoom s (s.homeDie p g) →
        ∃ t r, exec (.spawnr d a b) s = .next t ∧ SameRegs s t (s.pc + 4) ∧ GoesOn s t ∧ SameBytes s t ∧
          r ∈ t.regs ∧ r.held = true ∧ RegistrationHolds r k (s.g a) g (s.g b).toNat true bs)) ∧
    ((s.g b).toNat = 0 → headerFails bs registered 0 (ownKey k) = none → nsuccOf bs = 0 →
      ∃ t, exec (.spawnr d a b) s = .next t ∧ SameRegs s t (s.pc + 4) ∧ GoesOn s t ∧ SameBytes s t ∧ t.regs = s.regs)

/-- R171: `SPAWN` and `SPAWNR` take the trap of the first check that the header fails, with `TADDR` the header address; a reserved class
traps illegal with the instruction's word. -/
def Obligations.HeaderChecksDecide : Prop :=
  ∀ (d a b : Reg) (s u : State) (k : Task) (g : Nat) (bs : List Byte), Enters s → s.cur.task = some k → s.speculative = false →
    (((s.g a).toNat % 64 ≠ 0 →
      Traps (exec (.spawn a) s) (s.release .prt) 0x02 (s.g a) (accessWord 1 3 1) ∧
      Traps (exec (.spawnr d a b) s) (s.release .prt) 0x02 (s.g a) (accessWord 1 3 1))) ∧
    (Warm s → HeaderAt (s.release .prt) u (s.g a) k.part g bs →
      let registered := s.regs.any fun r => r.part == k.part && r.gpa == g
      let detail (kind : Nat) (i : Nat) : Nat := if kind = 0x01 then i else 0
      (∀ kind cause, headerFails bs registered 1 (ownKey k) = some (kind, cause) →
        TrapsAtHome (exec (.spawn a) s) u kind (s.g a)
          (causeWord cause (detail kind (0xED000000 + a.toNat * 2 ^ 14)))) ∧
      (∀ kind cause, headerFails bs registered (s.g b).toNat (ownKey k) = some (kind, cause) →
        TrapsAtHome (exec (.spawnr d a b) s) u kind (s.g a)
          (causeWord cause (detail kind (0xED000000 + d.toNat * 2 ^ 19 + a.toNat * 2 ^ 14 + b.toNat * 2 ^ 9 + 1)))))

/-- R36, R37, R38, R174, R175, R206: `EXIT`, in both lengths. A free task with an empty tile queue and no rope binding loses its tiles, its sets
and its context, and its registration leaves with its last instance, whose successor's counter is lowered by one; a
counter at 0 traps at the `EXIT`; the next `EXIT` goes on behind the failing slot. An ordered task is finished and awaits its commit
with its buffered stores. A task with outstanding tile operations waits for them. A loader's `EXIT` ends its part of the request. -/
def Obligations.ExitEndsTheTask : Prop :=
  ∀ (i : Instr) (s : State) (k : Task), i = .exit ∨ i = .exit16 → s.cur.task = some k →
    let cl := s.curCluster
    let r0 := ((s.freeArray cl k.uid).release .prt).mapTask fun x => { x with exitAt := some 0 }
    (k.loader = none → s.cur.tq = [] → k.cls = .free → (∀ x ∈ (s.part k.part).bindings, x.reg ≠ k.reg) →
      ∀ r, s.reg? k.reg = some r →
      (r.live > 1 ∨ r.ended = true ∨ r.hdr.succ = [] ∨ (∃ n, k.exitAt = some n ∧ r.hdr.succ.length ≤ n) →
        ∃ t, exec i s = .next t ∧ Gone t s.cur.id ∧ SameBytes s t ∧ (k.exitAt = none → NoArray t cl k.uid) ∧
          (r.live ≤ 1 → ∀ x ∈ t.regs, x.id ≠ k.reg) ∧
          (1 < r.live → ∃ x ∈ t.regs, x.id = k.reg ∧ x.live + 1 = r.live)) ∧
      (∀ u p h va, r.live ≤ 1 → r.ended = false → r.hdr.succ = [va] → k.exitAt = none → OnWord r0 u va 64 1 p h → p = k.part →
        Canonical s → let ctrl := (u.readD p (h + 0x18)).toNat
        (ctrl / 2 ^ 16 % 2 ^ 16 ≠ 0 → ∃ t, exec i s = .next t ∧ Gone t s.cur.id ∧ (∀ x ∈ t.regs, x.id ≠ k.reg) ∧
          Stored u t (.dram p (h + 0x18)) 8 (ctrl - 2 ^ 16)) ∧
        (ctrl / 2 ^ 16 % 2 ^ 16 = 0 → Enters s →
          TrapsAtHome (exec i s) (u.mapTask fun x => { x with exitAt := some 1 }) 0x0A va (causeWord 1 0)))) ∧
    (k.loader = none → s.cur.tq = [] → k.cls = .ordered →
      ∃ t, exec i s = .next t ∧ Gone t s.cur.id ∧ SameBytes s t ∧ t.regs = s.regs ∧ NoArray t cl k.uid ∧
        (t.cluster cl).ssb = (s.cluster cl).ssb ∧
        ∃ x ∈ (t.ctxState k.part k.ctx).finished, x.uid = k.uid ∧ x.key = k.key ∧ x.finished = some (tidDie s.cur.id)) ∧
    (s.cur.tq ≠ [] →
      ∃ t, exec i s = .next t ∧ t.cur = { s.cur with wait := .queue } ∧ OnlyThread s t) ∧
    (∀ id q, k.loader = some id → s.cur.tq = [] → q ∈ s.reqs → q.id = id →
      ∃ t, exec i s = .next t ∧ Gone t s.cur.id ∧ SameBytes s t ∧
        ∃ x ∈ t.reqs, x.id = id ∧ x.exited = true ∧ x.endKind = q.endKind ∧ x.pos = q.pos)

/-- R25, R33, R176: `YIELD`, in both lengths, has no effect when no waiting task has the task's priority or a higher one, for the summit
holder, and without room; else the task is saved and ready again with a stamp taken now, and the head runs from its entry.
Where the spec leaves a point open, what it says is the model's own choice: log 36. -/
def Obligations.YieldGivesWay : Prop :=
  ∀ (i : Instr) (len : Nat) (s : State) (k : Task), (i = .yield ∧ len = 4) ∨ (i = .yield16 ∧ len = 2) → s.cur.task = some k →
    let cl := s.curCluster
    let waiting := (s.dispatchable cl).filter fun e => e.bound.isNone
    ((∀ e ∈ waiting, e.prio < k.prio) ∨ (s.ctxState k.part k.ctx).holder = some (k.reg, k.idx) ∨
        s.canPark cl k.part k.ctx false = false → OnlyPc (exec i s) s (s.pc + word len)) ∧
    (∀ h r n, waiting = [h] → k.prio ≤ h.prio → (s.ctxState k.part k.ctx).holder ≠ some (k.reg, k.idx) → k.loader = none →
      s.cur.wait = .ready → s.cur.id.kind = .barrel → (s.cluster cl).stored < 170 → s.cur.tq = [] → h.job = .fresh r.id n none →
      s.reg? r.id = some r → h.seq ≠ s.uidNext + 1 → (s.running cl).length ≤ 128 →
      ∃ t, exec i s = .next t ∧ SameBytes s t ∧
        (∃ e ∈ (t.cluster cl).readyQ, ∃ th, e.job = .saved th false ∧ e.prio = k.prio ∧ e.stamp = s.tick ∧
          th.regs = { s.cur.regs with pc := s.pc + word len } ∧ th.task.map (fun x => x.uid) = some k.uid) ∧
        (∀ e ∈ (t.cluster cl).readyQ, e.seq ≠ h.seq) ∧
        ∃ th ∈ t.cur :: t.others, th.id.kind = .barrel ∧ th.id.unit = cl ∧ AtEntry s r n h.prio th)

/-- R178, R182, R187: `TKEY` joins a timestamp and a tie, and in an ordered task a result below its key traps; `CLID` gives context, thread,
cluster count and logical number; `RSQRY` of a header without read tiles gives the cluster that the round-robin would take next,
and changes nothing. -/
def Sys2Proof.Claims.KeysAndIdentity : Prop :=
  ∀ (d a b : Reg) (s : State) (k : Task), s.cur.task = some k →
    let v := BitVec.ofNat 64 ((s.g a).toNat % 2 ^ 48 * 2 ^ 16 + (s.g b).toNat % 2 ^ 16)
    let t := s.part k.part
    (k.cls = .free ∨ k.key.toNat ≤ v.toNat → Writes (exec (.tkey d a b) s) s d v 4) ∧
    (k.cls = .ordered → v.toNat < k.key.toNat → Enters s → Traps (exec (.tkey d a b) s) s 0x0D 0 (causeWord 2 0)) ∧
    Writes (exec (.clid d) s) s d (BitVec.ofNat 64
      (k.ctx * 2 ^ 40 + s.cur.id.slot * 2 ^ 32 + t.clusters * 2 ^ 16 + (s.curCluster - 8 * (t.pdesc.toNat % 64)))) 4 ∧
    (∀ u g bs, HeaderAt s u (s.g a) k.part g bs → s.speculative = false → Warm s → ntileOf bs = 0 →
      AtHome u fun v => Writes (exec (.rsqry d a) s) v d
        (BitVec.ofNat 64 ((s.roundRobin k.part (s.homeDie k.part g)).1 - 8 * (t.pdesc.toNat % 64))) 4)

namespace Sys2Proof.Claims

/-- A cairn entry overlaps n bytes from lo. -/
def overlaps (c : Cairn) (lo n : Nat) : Prop := c.base.toNat < lo + n ∧ lo < c.base.toNat + c.units * 4096

/-- An instruction of residency, of a write pointer or of messages completes: of the registers only g[d] is written. -/
def Tells (o : Out) (s : State) (d : Reg) (v : Word) (post : State → Prop) : Prop :=
  ∃ t, o = .next t ∧ GivesOnly s t d v (s.pc + 4) false ∧ SameBytes s t ∧ post t

end Sys2Proof.Claims

/-- R179, R180, R181: `RSSET` writes one cairn entry of the cluster and gives its index: that of the valid entry with the same base, else the
lowest invalid one, else the one set longest ago; `RSCLR` makes invalid exactly the valid entries that overlap its range, or all;
both trap misaligned on a base that is no multiple of 4 KiB. The directory names a cluster for a region exactly while a valid entry of it overlaps the
region. -/
def Obligations.ResidencyTables : Prop :=
  ∀ (d a b : Reg) (s : State) (k : Task), s.cur.task = some k →
    let cl := s.curCluster
    let old := (s.cluster cl).cairn
    let base := s.g a
    let units := (s.g b).toNat % 2 ^ 16 + 1
    let valid (i : Nat) : Prop := ∃ c, old.get? i = some c ∧ c.valid = true
    (base.toNat % 4096 = 0 → ∃ i, Tells (exec (.rsset d a b) s) s d (word i) fun t =>
      (∃ c, (t.cluster cl).cairn.get? i = some c ∧ c.base = base ∧ c.units = units ∧
        c.kind = (s.g b).toNat / 2 ^ 16 % 2 ∧ c.valid = true) ∧
      (∀ j, j ≠ i → (t.cluster cl).cairn.get? j = old.get? j) ∧
      ((∃ e ∈ old, e.2.valid = true ∧ e.2.base = base) → ∃ e ∈ old, e.1 = i ∧ e.2.valid = true ∧ e.2.base = base) ∧
      ((∀ e ∈ old, ¬ (e.2.valid = true ∧ e.2.base = base)) → (∃ j < 64, ¬ valid j) →
        i < 64 ∧ ¬ valid i ∧ ∀ j < i, valid j) ∧
      ((∀ e ∈ old, ¬ (e.2.valid = true ∧ e.2.base = base)) → (∀ j < 64, valid j) →
        ∃ e ∈ old, e.1 = i ∧ ∀ x ∈ old, e.2.setAt ≤ x.2.setAt)) ∧
    ((s.g b).getLsbD 63 = true ∨ base.toNat % 4096 = 0 → Tells (exec (.rsclr a b) s) s 0 0 fun t =>
      ∀ j, ((old.get? j = none → (t.cluster cl).cairn.get? j = none) ∧
        ∀ c, old.get? j = some c →
          ((s.g b).getLsbD 63 = true ∨ overlaps c base.toNat (units * 4096) →
            (t.cluster cl).cairn.get? j = some { c with valid := false }) ∧
          (¬ ((s.g b).getLsbD 63 = true ∨ overlaps c base.toNat (units * 4096)) →
            (t.cluster cl).cairn.get? j = some c))) ∧
    (base.toNat % 4096 ≠ 0 → Enters s →
      Traps (exec (.rsset d a b) s) s 0x02 base (accessWord 1 3 1) ∧
      ((s.g b).getLsbD 63 = false → Traps (exec (.rsclr a b) s) s 0x02 base (accessWord 1 3 1))) ∧
    (∀ (die : Nat) (w : DirUpdate) (rest : List DirUpdate), (s.die die).dirQ = w :: rest →
      (∀ e ∈ (s.cluster w.cl).cairn, e.2.units ≠ 0) → ∃ t, exec (.directoryUpdate die) s = .next t ∧ SameBytes s t ∧
        t.cur = s.cur ∧ (t.die die).dirQ = rest ∧
        ((w.part, w.region, w.cl) ∈ (t.die die).dir ↔ ∃ e ∈ (s.cluster w.cl).cairn, e.2.valid = true ∧
          (e.2.base.toNat / 2 ^ 56 = 0 ∨ e.2.base.toNat / 2 ^ 56 = 255) ∧ overlaps e.2 (w.region * 2 ^ 21) (2 ^ 21)) ∧
        ∀ e, e ≠ (w.part, w.region, w.cl) → (e ∈ (t.die die).dir ↔ e ∈ (s.die die).dir))

/-- R183, R184, R185, R186: `WAITWP` gives the write pointer at once when it is broken, has reached the target or is reserved by no request,
and else parks; `MSND` queues the message behind the receiver's others, in the cluster or in memory, waits when both are full, and traps
for a cluster that the partition has not; `MRCV` takes the
oldest one of its context, or gives 0 twice. -/
def Sys2Proof.Claims.WritePointersAndMessages : Prop :=
  ∀ (d a b : Reg) (n : BitVec 4) (s : State) (k : Task), s.cur.task = some k →
    let cl := s.curCluster
    let w := s.wp cl n.toNat
    let part := s.part k.part
    (w.brk = true ∨ (s.g b).toNat ≤ w.count ∨ w.req = none →
      Writes (exec (.waitwp d n b) s) s d (BitVec.ofNat 64 ((if w.brk = true then 2 ^ 63 else 0) + w.count % 2 ^ 63)) 4) ∧
    (w.brk = false → w.count < (s.g b).toNat → w.req ≠ none → s.cur.id.kind = .barrel → (s.cluster cl).stored < 170 →
      TableRoom s (dieOfCluster cl) → ∃ t, exec (.waitwp d n b) s = .next t ∧ Parks s t (.waitwp d n.toNat) ∧ SameBytes s t ∧
        ∃ x ∈ t.biv, x.part = k.part ∧ x.kind = .wp k.uid cl n.toNat (s.g b).toNat) ∧
    (s.speculative = false → (s.g a).toNat < part.clusters → part.inboxOf (s.g a).toNat k.ctx = [] →
      part.residentAt (s.g a).toNat = some k.ctx →
      let there := 8 * part.first + (s.g a).toNat
      let mine := (s.cluster there).inbox.filter fun m => m.part == k.part && m.ctx == k.ctx
      mine.length < 64 → Tells (exec (.msnd a b) s) s 0 0 fun t =>
        (t.cluster there).inbox = (s.cluster there).inbox ++
          [{ part := k.part, ctx := k.ctx, sender := s.curCluster - 8 * part.first, payload := s.g b }]) ∧
    (s.speculative = false → (s.g a).toNat < part.clusters → part.residentAt (s.g a).toNat ≠ some k.ctx →
      let queue := part.inboxOf (s.g a).toNat k.ctx
      let m : Msg := { part := k.part, ctx := k.ctx, sender := s.curCluster - 8 * part.first, payload := s.g b }
      (queue.length < 4096 → Tells (exec (.msnd a b) s) s 0 0 fun t =>
        (t.part k.part).inboxOf (s.g a).toNat k.ctx = queue ++ [.msg m]) ∧
      (4096 ≤ queue.length → ∃ t, exec (.msnd a b) s = .next t ∧ t.cur = { s.cur with wait := .inbox true } ∧ SameBytes s t ∧
        (t.part k.part).inboxOf (s.g a).toNat k.ctx = queue ++ [.send s.cur.id k.uid m])) ∧
    (s.speculative = false → part.clusters ≤ (s.g a).toNat → Enters s →
      Traps (exec (.msnd a b) s) (s.release .prt) 0x03 0 (causeWord 9 0)) ∧
    (let mine := (s.cluster cl).inbox.filter fun m => m.part == k.part && m.ctx == k.ctx
     (mine = [] → ∃ t, exec (.mrcv d b) s = .next t ∧ t.pc = s.pc + 4 ∧ OnlyThread s t ∧ GoesOn s t ∧
       ∀ r, t.g r = if r = d ∨ r = b then 0 else s.g r) ∧
     (∀ m rest, mine = m :: rest → s.cur.wait = .ready → ∃ t, exec (.mrcv d b) s = .next t ∧ t.pc = s.pc + 4 ∧ SameBytes s t ∧ GoesOnAcq s t true ∧ Acquired t ∧
       (∀ r, t.g r = if r = 0 then 0 else if r = b then BitVec.ofNat 64 (2 ^ 63 + m.sender) else if r = d then m.payload
         else s.g r) ∧
       (part.inboxOf (cl - 8 * part.first) k.ctx = [] →
         ((t.cluster cl).inbox.filter fun m => m.part == k.part && m.ctx == k.ctx) = rest)))

/-- R155: in an ordered task that is not irrevocable, every `SYNC` instruction but `RPTEST` and `FTEST`, `MSND` and `SYSC` leave the task
stalled at the instruction until it holds the summit. -/
def Sys2Proof.Claims.OrderedTasksStall : Prop :=
  ∀ (d a b : Reg) (s : State) (k : Task), s.cur.task = some k → s.speculative = true →
    ∀ i : Instr, i = .rpinit a b ∨ i = .rparr d a b ∨ i = .rpexp a b ∨ i = .rpwait d a b ∨ i = .dcdec a ∨ i = .fres a b ∨
        i = .fpois a b ∨ i = .fwait d a b ∨ i = .flink a b ∨ i = .msnd a b ∨ i = .sysc d a b → Stalls (exec i s) s k

namespace Sys2Proof.Claims

/-! ### Server calls and engine requests -/

/-- A fabric of a cluster holds an image and can take work. -/
def Ready (s : State) (cl f : Nat) (i : Image) (img : Word) : Prop :=
  f < 4 ∧ (s.fabric cl f).image = some i ∧ i.img = img ∧ (s.fabric cl f).loading = none ∧ (s.fabric cl f).draining = false ∧
  (s.fabric cl f).stale = false ∧ ∀ e < f, ∀ j, (s.fabric cl e).image = some j → j.img ≠ img

/-- The thread waits with its PC at the instruction and its registers as they were. -/
def WaitsIn (o : Out) (s : State) (w : Wait) (post : State → Prop) : Prop :=
  ∃ t, o = .next t ∧ t.cur = { s.cur with wait := w } ∧ SameBytes s t ∧ post t

/-- The eight doublewords of a block. -/
def blockOf (bs : List Byte) : List Word := (List.range 8).map fun i => BitVec.ofNat 64 (field bs (8 * i) 8)

/-- `FLAGS` of a block and its fields (08 R197). -/
def flagsOf (bs : List Byte) : Nat := field bs 0x28 8
def wpeOf (bs : List Byte) : Bool := (flagsOf bs).testBit 3
def umbOf (bs : List Byte) : Bool := (flagsOf bs).testBit 2
def wpnOf (bs : List Byte) : Nat := flagsOf bs / 2 ^ 4 % 16

/-- Bit j of `FLAGS` may be set for an engine (08 R198); `CACT` and `WPN` for all. -/
def maySet (kind : ReqKind) (j : Nat) : Prop :=
  (4 ≤ j ∧ j ≤ 9) ∨
  (match kind with
    | .copy => j ≤ 3
    | .copyp => j = 0 ∨ j = 2 ∨ j = 3 ∨ (24 ≤ j ∧ j ≤ 31)
    | .gather => j = 0 ∨ j = 3 ∨ j = 11 ∨ j = 12
    | .strm => False
    | .rcopy => j = 0 ∨ j = 10 ∨ (16 ≤ j ∧ j ≤ 23))

/-- The scratchpad location that the destination of a block names, if it is one. -/
def scratchOf (s : State) (k : Task) (kind : ReqKind) (bs : List Byte) (c o : Nat) : Prop :=
  s.place k.part s.curCluster (BitVec.ofNat 64 (field bs (if kind = .gather then 0x10 else 0x08) 8)) = .at (.scratch c o)

/-- One cause of 08 R198 holds of a block. -/
def blockCause (s : State) (k : Task) (kind : ReqKind) (bs : List Byte) : Nat → Prop
  | 10 => flagsOf bs / 2 ^ 32 ≠ 0 ∨ flagsOf bs / 2 ^ 13 % 8 ≠ 0
  | 11 => (∃ j < 32, (flagsOf bs).testBit j = true ∧ ¬ (13 ≤ j ∧ j ≤ 15) ∧ ¬ maySet kind j) ∨ flagsOf bs / 2 ^ 8 % 4 = 3 ∨
      (wpeOf bs = true ∧ (k.loader ≠ none ∨ (k.cls = .ordered ∧ umbOf bs = true)))
  | 12 => field bs 0x20 8 % 64 ≠ 0 ∨
      (match kind with
        | .copy => field bs 0 8 % 64 ≠ 0 ∨ field bs 8 8 % 64 ≠ 0 ∨ field bs 0x10 4 % 64 ≠ 0 ∨ field bs 0x14 4 % 64 ≠ 0 ∨
            field bs 0x1C 4 % 64 ≠ 0
        | .gather => (∀ n, 2 ≤ n → n ≤ 12 → field bs 0x1C 4 ≠ 2 ^ n) ∨ field bs 0x10 8 % field bs 0x1C 4 ≠ 0 ∨
            ¬ (∃ c o, scratchOf s k kind bs c o ∧ o + field bs 0x18 4 * field bs 0x1C 4 ≤ 768 * 1024)
        | .rcopy => field bs 0 8 % 64 ≠ 0 ∨ field bs 8 8 % 64 ≠ 0 ∨ field bs 0x10 8 % 64 ≠ 0
        | _ => False)
  | 13 => wpeOf bs = true ∧ ∃ c o, scratchOf s k kind bs c o ∧ (s.wp c (wpnOf bs)).req ≠ none
  | 14 => (wpeOf bs = true ∨ (flagsOf bs).testBit 1 = true) ∧ ∀ c o, ¬ scratchOf s k kind bs c o
  | 19 => kind = .rcopy ∧ ∀ l, (s.part k.part).conf.peers.get? (flagsOf bs / 2 ^ 16 % 256) = some l → ∀ w ∈ l, w = 0
  | _ => False

/-- The engine instructions of 08 R197 but for the streams, with their kinds. -/
def engineRow : Instr → Option (ReqKind × Reg)
  | .copy a => some (.copy, a)
  | .copyp a => some (.copyp, a)
  | .gather a => some (.gather, a)
  | .rcopy a => some (.rcopy, a)
  | _ => none

/-- A 64 KiB chunk belongs to the umbra frame pool of a partition (08 R211, 22 R396). -/
def InPool (v : Part) (c : Nat) : Prop :=
  let first : Nat := v.umbpool.toNat % 2 ^ 10 * 2 ^ 9
  let n : Nat := v.umbpool.toNat / 2 ^ 32 % 2 ^ 10 * 2 ^ 9
  c ∈ v.poolExtra ∨ (first ≤ c % 2 ^ 19 ∧ c % 2 ^ 19 < first + n)

/-- The first chunk of the pool of the column that holds a guest-physical address. -/
def PoolStart (v : Part) (g : Nat) : Nat := g / 2 ^ 35 * 2 ^ 19 + v.umbpool.toNat % 2 ^ 10 * 2 ^ 9

/-- n is the lowest number that no open umbra has. -/
def Lowest (v : Part) (n : Nat) : Prop := (∀ x ∈ v.umbras, x.id ≠ n) ∧ ∀ m < n, ∃ x ∈ v.umbras, x.id = m

/-- A length that `UMBRA` refuses. -/
def BadLength (w : Word) : Prop := w.toNat = 0 ∨ w.toNat % 2 ^ 16 ≠ 0 ∨ w.toNat > 2 ^ 32

/-- A buffer of one chunk, at (p, g), outside every view range, that passes the checks of a write. -/
structure OneChunk (s u : State) (va n : Word) (p g : Nat) : Prop where
  aligned : va.toNat % 2 ^ 16 = 0
  length  : n.toNat = 2 ^ 16
  located : ∀ x, (s.release .prt).locate va 1 x = .ok (.dram p g) (s.release .prt)
  offset  : g % 2 ^ 16 = 0
  windows : (s.part p).conf.windows = []
  granted : (s.release .prt).askHome (.dram p g) true = .granted u

/-- The bytes that a request declares, where it declares none to be moved (08 R201, R203). -/
def movesNothing (kind : ReqKind) (bs : List Byte) : Prop :=
  match kind with
  | .copy => field bs 0x18 4 * field bs 0x1C 4 = 0
  | .gather => field bs 0x18 4 * field bs 0x1C 4 = 0
  | .rcopy => field bs 0x10 8 = 0
  | _ => False

/-- An open umbra that no `PUBLISH` has cut holds the destination of a request: every row of a `COPY`, the byte at 0x08 of a `COPYP` (08 R203, R206;
log 62). -/
def HoldsDestination (u : Umbra) (c : Nat) (kind : ReqKind) (bs : List Byte) : Prop :=
  let dst : Int := field bs 8 8
  let pitch : Int := (BitVec.ofNat 32 (field bs 0x14 4)).toInt
  let holds (lo n : Int) : Prop := (u.base : Int) ≤ lo ∧ lo + n ≤ (u.base : Int) + u.len
  u.ctx = c ∧ u.cut = false ∧
  (if kind = .copy then ∀ r : Nat, r < field bs 0x18 4 → holds (dst + r * pitch) (field bs 0x1C 4) else holds dst 1)

/-- A request with `UMB` whose destination no open umbra holds: it moves nothing and ends with kind 3. An empty `COPY` has no destination. -/
def OutsideUmbra (s : State) (k : Task) (kind : ReqKind) (bs : List Byte) : Prop :=
  umbOf bs = true ∧ ¬ (kind = .copy ∧ movesNothing kind bs) ∧ ∀ u ∈ (s.part k.part).umbras, ¬ HoldsDestination u k.ctx kind bs

/-- A request as it is accepted from a block of the running task. -/
structure Accepted (s t : State) (k : Task) (kind : ReqKind) (va : Word) (bs : List Byte) (q : Req) : Prop where
  held    : q ∈ t.reqs
  block   : q.kind = kind ∧ q.blk = blockOf bs ∧ q.va = va ∧ q.cl = s.curCluster ∧ q.parent = k.loader
  task    : q.part = k.part ∧ q.ctx = k.ctx ∧ q.uid = k.uid ∧ (q.ordered = true ↔ k.cls = .ordered)
  start   : q.pos = 0 ∧ q.done = 0
  ends    : (OutsideUmbra s k kind bs → q.endKind = some 3) ∧ (¬ OutsideUmbra s k kind bs → q.endKind = none)
  stage   : q.stage = 0 ↔ ¬ (OutsideUmbra s k kind bs ∨ movesNothing kind bs)
  umbra   : (umbOf bs = false → q.umbra = none) ∧
    (umbOf bs = true → ∀ n, q.umbra = some n → ∃ u ∈ (s.part k.part).umbras, u.id = n ∧ HoldsDestination u k.ctx kind bs)
  pointer : ∀ c o, wpeOf bs = true → scratchOf s k kind bs c o → t.wp c (wpnOf bs) = { brk := false, count := 0, req := some q.id }

end Sys2Proof.Claims

/-! ### `SYSC`, server calls, engines and umbras -/

/-- R263, R383: `SYSC` of an aligned block that can be read parks the task with a new token and holds its 64 bytes for the host; with
no earlier request waiting and room in the service ring, the 96-byte packet of type 0x10 stands at the tail, with the token, the service number
and the block, and the VF's vector 16 is raised. A misaligned block traps.
Where the spec leaves a point open, what it says is the model's own choice: log 8 and 43. -/
def Obligations.SystemCalls : Prop :=
  ∀ (d a b : Reg) (s u : State) (k : Task) (g : Nat), s.cur.task = some k → s.speculative = false →
    ((s.g a).toNat % 64 ≠ 0 → Enters s → Traps (exec (.sysc d a b) s) (s.release .sys) 0x02 (s.g a) (accessWord 0 3 0)) ∧
    ((s.g a).toNat % 64 = 0 → LineAt (s.release .sys) u (s.g a) k.part g → s.cur.id.kind = .barrel →
      (s.cluster s.curCluster).stored < 170 →
      ∃ t, exec (.sysc d a b) s = .next t ∧ Parks s t (.sysc d) ∧ t.mem = s.mem ∧
        (∃ q ∈ t.syscs, q.token = s.newToken.1 ∧ q.part = k.part ∧ q.ctx = k.ctx ∧
          q.uid = k.uid ∧ q.block = s.bytesAt (.dram k.part g) 64 ∧ q.svc = (s.g b).toNat % 2 ^ 16) ∧
        (let v := s.part k.part
         s.syscs = [] → 12 ≤ v.svcLog → v.svcHead ≤ v.svcTail → v.svcTail + 96 ≤ 2 ^ v.svcLog →
           v.svcTail + 96 < v.svcHead + 2 ^ v.svcLog → Canonical s →
           let base := v.svcBase.toNat + v.svcTail
           (∀ n < 64, t.hostMem.read (base + 32 + n) = (s.bytesAt (.dram k.part g) 64).getD n 0) ∧
           t.hostMem.readNat base 2 = 0x10 ∧ t.hostMem.readNat (base + 2) 2 = 6 ∧
           t.hostMem.readNat (base + 4) 4 = v.svcSeq % 2 ^ 32 ∧
           t.hostMem.readNat (base + 16) 8 = s.newToken.1.toNat ∧
           t.hostMem.readNat (base + 24) 8 = (s.g b).toNat % 2 ^ 16 ∧
           (∀ x, x < base ∨ base + 96 ≤ x → t.hostMem.read x = s.hostMem.read x) ∧
           Irq.vf k.part 16 ∈ t.irqs ∧ (t.part k.part).svcTail = (v.svcTail + 96) % 2 ^ v.svcLog))

/-- R190, R191, R195: `SERVE` of an invalid entry, of a stream-mode image or with the wrong counts traps server unbound; with a fabric that
holds the image the arguments wait there as one packet and the thread waits for its results; without one the thread waits, and a load
of the image into an idle fabric has begun.
Where the spec leaves a point open, what it says is the model's own choice: log 42. -/
def Obligations.ServerCalls : Prop :=
  ∀ (d a : Reg) (n r : BitVec 3) (sid : BitVec 8) (s : State) (k : Task), s.cur.task = some k →
    (s.part k.part).pending = none →
    let cl := s.curCluster
    let e := (s.part k.part).conf.servers.getD sid.toNat { img := 0, ctl := 0 }
    let o := exec (.serve d a n r sid) s
    (e.ctl.getLsbD 0 = false → Enters s → Traps o s 0x06 0 (causeWord 1 sid.toNat)) ∧
    (e.ctl.getLsbD 0 = true → ∀ f i, Ready s cl f i e.img →
      (i.call = false → Enters s → Traps o s 0x06 e.img (causeWord 4 sid.toNat)) ∧
      (i.call = true → ¬ (i.nargs = n.toNat + 1 ∧ i.nres = r.toNat + 1) → Enters s →
        Traps o s 0x06 e.img (causeWord 3 sid.toNat)) ∧
      (i.call = true → i.nargs = n.toNat + 1 → i.nres = r.toNat + 1 →
        ∃ id, WaitsIn o s (.serve id) fun t => ∃ q,
          (t.fabric cl f).packets = (s.fabric cl f).packets ++ [q] ∧ q.id = id ∧ q.t = s.cur.id ∧ q.uid = k.uid ∧ q.d = d ∧
          q.entered = false ∧ q.results = [] ∧ q.fault = none ∧ q.args.length = n.toNat + 1 ∧
          ∀ j ≤ n.toNat, q.args[j]? = some (s.g (a + BitVec.ofNat 5 j)))) ∧
    (e.ctl.getLsbD 0 = true → (∀ f < 4, ∀ i, (s.fabric cl f).image = some i → i.img ≠ e.img) →
      (∀ x ∈ (s.cluster cl).fetches, x.img ≠ e.img) →
      (∃ f < 4, s.fabric cl f = Fabric.reset) →
      WaitsIn o s (.image sid.toNat) fun t => ∃ x ∈ (t.cluster cl).fetches, x.img = e.img ∧ x.sid = sid.toNat ∧ x.part = k.part ∧
        (x.user = true ↔ s.mode = 0) ∧ x.host = s.hostPasid ∧ (t.fabric cl x.fabric).loading = some e.img)

/-- R197, R198, R199, R203, R204, R214: the engine instructions check their block, and the lowest cause that holds traps; a block that passes is
accepted as one request with all its fields, the thread goes on, and an armed write pointer stands at 0, reserved by it. Nothing has been moved. With
`UMB` the destination has to lie in an open umbra, else the request ends with kind 3 before anything moves. In an ordered task that is not
irrevocable a request without `UMB` stalls, and one with `UMB` is accepted.
Where the spec leaves a point open, what it says is the model's own choice: log 32 and 62. -/
def Obligations.EngineRequests : Prop :=
  ∀ (i : Instr) (kind : ReqKind) (a : Reg) (s u : State) (k : Task) (g : Nat), engineRow i = some (kind, a) → s.cur.task = some k →
    (s.speculative = false → Warm s →
      ((s.g a).toNat % 64 ≠ 0 → Enters s → Traps (exec i s) s 0x02 (s.g a) (accessWord 0 3 0)) ∧
      ((s.g a).toNat % 64 = 0 → LineAt (s.release .prt) u (s.g a) k.part g →
        let bs := s.bytesAt (.dram k.part g) 64
        (∀ c, blockCause s k kind bs c → (∀ e < c, ¬ blockCause s k kind bs e) → Enters s →
          TrapsAtHome (exec i s) u 0x03 (s.g a) (causeWord c 0)) ∧
        ((∀ c, ¬ blockCause s k kind bs c) → ∃ (t : State) (q : Req), exec i s = .next t ∧ SameRegs s t (s.pc + 4) ∧ GoesOn s t ∧
          SameBytes s t ∧ Accepted s t k kind (s.g a) bs q))) ∧
    (s.speculative = true →
      (kind = .gather ∨ kind = .rcopy → Stalls (exec i s) s k) ∧
      (kind = .copy ∨ kind = .copyp → (s.g a).toNat % 64 = 0 → LineAt (s.release .prt) u (s.g a) k.part g →
        s.noSigRoom (.dram k.part g) = false →
        let bs := (s.cluster s.curCluster).overlay k.uid (.dram k.part g) (s.bytesAt (.dram k.part g) 64)
        (umbOf bs = false → ∃ t : State, exec i s = .next t ∧ t.cur.wait = .summit ∧ SameRegs s t s.pc ∧ SameBytes s t ∧ t.reqs = s.reqs) ∧
        (umbOf bs = true → (∀ c, ¬ blockCause s k kind bs c) → ∃ (t : State) (q : Req), exec i s = .next t ∧ SameRegs s t (s.pc + 4) ∧
          t.cur.wait = s.cur.wait ∧ SameBytes s t ∧ Accepted s t k kind (s.g a) bs q)))

/-- R208, R210, R195: `STRM` of a valid stream-mode image on an idle fabric that holds it starts a stream there at position 0 and the
thread goes on; an invalid entry, a call-mode image and a wrong argument count trap server unbound. `STRMR` starts it from a
record, at the recorded counters; a record that is misaligned or of kind 0 traps access, cause 20.
Where the spec leaves a point open, what it says is the model's own choice: log 31. -/
def Obligations.StreamsStart : Prop :=
  ∀ (a b : Reg) (s v : State) (k : Task) (g : Nat), s.cur.task = some k → s.speculative = false → Warm s →
    (s.part k.part).pending = none →
    let cl := s.curCluster
    let u := s.release .prt
    let entry (sid : Nat) : ServEnt := (s.part k.part).conf.servers.getD sid { img := 0, ctl := 0 }
    let bs := s.bytesAt (.dram k.part g) 64
    let starts (o : Out) (va : Word) (sid f : Nat) (i : Image) (blk : List Byte) (pos : Nest → Nat) : Prop :=
      ∃ (t : State) (q : Req) (x : Stream), o = .next t ∧ SameRegs s t (s.pc + 4) ∧ GoesOn s t ∧ SameBytes s t ∧ q ∈ t.reqs ∧ q.kind = .strm ∧ q.va = va ∧
        q.blk = blockOf blk ∧ q.sid = sid ∧ q.cl = cl ∧ (t.fabric cl f).stream = some x ∧ x.req = q.id ∧
        x.args.take 4 = (blockOf blk).take 4 ∧ ∀ m ∈ i.nests, (m.eng, pos m) ∈ x.pos
    ((s.g a).toNat % 64 = 0 → LineAt u v (s.g a) k.part g → (∀ c, ¬ blockCause s k .strm bs c) →
      let sid := (s.g b).toNat
      ((entry sid).ctl.getLsbD 0 = false → Enters s → TrapsAtHome (exec (.strm a b) s) v 0x06 0 (causeWord 1 (sid % 2 ^ 32))) ∧
      ((entry sid).ctl.getLsbD 0 = true → ∀ f i, Ready s cl f i (entry sid).img → (s.fabric cl f).stream = none →
        (i.call = true → Enters s → TrapsAtHome (exec (.strm a b) s) v 0x06 (entry sid).img (causeWord 4 (sid % 2 ^ 32))) ∧
        (i.call = false → 4 < i.nargs → Enters s →
          TrapsAtHome (exec (.strm a b) s) v 0x06 (entry sid).img (causeWord 3 (sid % 2 ^ 32))) ∧
        (i.call = false → i.nargs ≤ 4 → starts (exec (.strm a b) s) (s.g a) sid f i bs fun _ => 0))) ∧
    ((s.g a).toNat % 64 ≠ 0 → Enters s → Traps (exec (.strmr a) s) s 0x03 (s.g a) (causeWord 20 0)) ∧
    ((s.g a).toNat % 64 = 0 → LineAt u v (s.g a) k.part g →
      (field bs 0 8 % 256 = 0 → Enters s → TrapsAtHome (exec (.strmr a) s) v 0x03 (s.g a) (causeWord 20 0)) ∧
      (∀ w h f i, let va := BitVec.ofNat 64 (field bs 0x18 8)
        let blk := s.bytesAt (.dram k.part h) 64
        let sid := field bs 0 8 / 2 ^ 16 % 256
        field bs 0 8 % 256 ≠ 0 → va.toNat % 64 = 0 → LineAt v w va k.part h → (∀ c, ¬ blockCause s k .strm blk c) →
        (entry sid).ctl.getLsbD 0 = true → Ready s cl f i (entry sid).img → (s.fabric cl f).stream = none → i.call = false →
        i.nargs ≤ 4 → (∀ m ∈ i.nests, m.eng < 4) →
        starts (exec (.strmr a) s) va sid f i blk fun m => m.position (BitVec.ofNat 64 (field bs (0x20 + 8 * m.eng) 8))))

/-- R211: `UMBRA` over one chunk that can be written takes the lowest free entry of the table and one shadow from the pool of the
chunk's column and gives the entry's number; a bad address or length, a full table and an exhausted pool trap. The lowest number and the order of the
causes are the model's (log 63). -/
def Sys2Proof.Claims.UmbrasOpen : Prop :=
  ∀ (d a b : Reg) (s u : State) (k : Task) (g : Nat), s.cur.task = some k →
    let v := s.part k.part
    ((s.g a).toNat % 2 ^ 16 ≠ 0 → Enters s → Traps (exec (.umbra d a b) s) s 0x02 (s.g a) (accessWord 0 3 0)) ∧
    ((s.g a).toNat % 2 ^ 16 = 0 → BadLength (s.g b) → Enters s →
      Traps (exec (.umbra d a b) s) s 0x03 (s.g a) (causeWord 12 0)) ∧
    (OneChunk s u (s.g a) (s.g b) k.part g →
      ((∀ n < 4096, ∃ x ∈ v.umbras, x.id = n) → Enters s → TrapsAtHome (exec (.umbra d a b) s) u 0x03 (s.g a) (causeWord 15 0)) ∧
      (∀ n < 4096, Lowest v n → (∀ c, c / 2 ^ 19 = g / 2 ^ 35 → ¬ InPool v c) → Enters s →
        TrapsAtHome (exec (.umbra d a b) s) u 0x03 (s.g a) (causeWord 16 0)) ∧
      (∀ n < 4096, Lowest v n → v.umbpool.toNat / 2 ^ 32 % 2 ^ 10 ≠ 0 → PoolStart v g ∉ v.poolUsed →
        (∀ x ∈ v.umbras, ∀ c ∈ x.chunks, c.gpa ≠ g / 2 ^ 16) →
        ∃ (t : State) (x : Umbra) (c : Chunk), exec (.umbra d a b) s = .next t ∧ GivesOnly s t d (word n) (s.pc + 4) false ∧ SameBytes s t ∧
          (t.part k.part).umbras = v.umbras ++ [x] ∧ (t.part k.part).poolUsed = v.poolUsed ++ [PoolStart v g] ∧
          x.id = n ∧ x.base = (s.g a).toNat ∧ x.len = 2 ^ 16 ∧ x.owner = k.uid ∧ x.cut = false ∧ x.chunks = [c] ∧
          c.gpa = g / 2 ^ 16 ∧ c.written = false ∧ c.shadow = PoolStart v g))

/-- R213, R214: `PUBLISH` of a number that is not open traps, cause 18, and so does one whose umbra is cut already or whose step the task
holds (log 60); in a free task it takes the cut and waits for the flip, in an ordered one the step, cut and all, is held for the
commit and the task goes on. -/
def Sys2Proof.Claims.PublishTakesTheCut : Prop :=
  ∀ (a b : Reg) (s : State) (k : Task), s.cur.task = some k →
    let v := s.part k.part
    let n := (s.g a).toNat % 2 ^ 12
    let held := ∃ x ∈ k.pubs, x.umbra = n
    ((∀ x ∈ v.umbras, x.id = n → x.cut = true) ∨ held → Enters s → Traps (exec (.publish a b) s) s 0x03 0 (causeWord 18 0)) ∧
    ((∃ x ∈ v.umbras, x.id = n ∧ x.cut = false) → ¬ held →
      (k.cls = .free → WaitsIn (exec (.publish a b) s) s (.flip n ((s.g b).getLsbD 0)) fun t =>
        ∀ x ∈ (t.part k.part).umbras, x.id = n → x.cut = true) ∧
      (k.cls = .ordered → ∃ t q, exec (.publish a b) s = .next t ∧ SameRegs s t (s.pc + 4) ∧ SameBytes s t ∧
        (t.part k.part).umbras = v.umbras ∧ t.cur.task = some q ∧
        q.pubs = k.pubs ++ [{ umbra := n, discard := (s.g b).getLsbD 0 }]))

namespace Sys2Proof.Claims

/-! ### Tiles and counting: shapes and elements (09 R222 to R224) -/

def fmtOf (w : Word) : Nat := w.toNat % 16
def rowsOf (w : Word) : Nat := w.toNat / 2 ^ 7 % 2 ^ 7 + 1
def colsOf (w : Word) : Nat := w.toNat / 2 ^ 14 % 2 ^ 9 + 1
def poiOf (w : Word) : Bool := w.getLsbD 62

/-- The format and the two dimensions, with the precision: the shape word without its marks. -/
def dimsOf (w : Word) : Nat := w.toNat % 2 ^ 23

/-- The width of an element in bits. -/
def widthOf (w : Word) : Nat :=
  if fmtOf w = 1 ∨ fmtOf w = 5 then 32 else if fmtOf w = 2 ∨ fmtOf w = 3 then 16 else if fmtOf w = 10 then 4 else if fmtOf w = 0 then 0 else 8

/-- The bytes that move as one element (09 R231). -/
def unitOf (w : Word) : Nat := if fmtOf w = 10 then 1 else widthOf w / 8

/-- The raw element at a row and a column (09 R224). -/
def elem (t : Tile) (i j : Nat) : Nat :=
  let n := i * colsOf t.shape + j
  if widthOf t.shape = 4 then (t.data.read (n / 2)).toNat / 16 ^ (n % 2) % 16
  else t.data.readNat (n * (widthOf t.shape / 8)) (widthOf t.shape / 8)

/-- A signed number of n bits. -/
def signedOf (raw n : Nat) : Int := (raw : Int).bmod (2 ^ n)

/-- A raw element of a shape holds the number q. -/
def TileNum (w : Word) (raw : Nat) (q : ℚ) : Prop := ∃ n m e, elemVal w raw = .num n m e ∧ q = rat n m e

/-- A raw element of a shape is a NaN. -/
def TileNan (w : Word) (raw : Nat) : Prop := ∃ b, elemVal w raw = .nan b

/-- A shape word of FP32. -/
def f32Word : Word := 1

/-! ### Issue -/

/-- The task owns a tile as its queued instructions leave it, with a shape. -/
def Owns (s : State) (n : Nat) (w : Word) : Prop := s.arr.tiles.get? n = some w

/-- The task owns a set as its queued instructions leave it. -/
def OwnsSet (s : State) (n : Nat) (x : SetView) : Prop := s.arr.sets.get? n = some x

/-- The shape of an owned tile, and the checked state of an owned set. -/
def shapeAt (s : State) (n : Nat) : Word := (s.arr.tiles.get? n).getD 0
def setAt (s : State) (n : Nat) : SetView := (s.arr.sets.get? n).getD { fmtv := false, shape := none, lanes := [0, 0, 0, 0], md := 0 }

/-- An array instruction as it is queued, with the tiles and the sets that it names. -/
def arrayOp (s : State) : Instr → Option (TileOp × List Nat × List Nat)
  | .tshape d a => some (.tshape d.toNat (s.g a), [d.toNat], [])
  | .tzero d => some (.tzero d.toNat, [d.toNat], [])
  | .tmma d a b => some (.tmma d.toNat a.toNat b.toNat, [d.toNat, a.toNat, b.toNat], [])
  | .tadd d a b => some (.tadd d.toNat a.toNat b.toNat, [d.toNat, a.toNat, b.toNat], [])
  | .tmul d a b => some (.tmul d.toNat a.toNat b.toNat, [d.toNat, a.toNat, b.toNat], [])
  | .tmax d a b => some (.tmax d.toNat a.toNat b.toNat, [d.toNat, a.toNat, b.toNat], [])
  | .trsum d a => some (.trsum d.toNat a.toNat, [d.toNat, a.toNat], [])
  | .trmax d a => some (.trmax d.toNat a.toNat, [d.toNat, a.toNat], [])
  | .texp2 d a => some (.texp2 d.toNat a.toNat, [d.toNat, a.toNat], [])
  | .tscan d a b => some (.tscan d.toNat a.toNat b.toNat ((s.x 4).toNat % 32), [d.toNat, a.toNat, b.toNat, (s.x 4).toNat % 32], [])
  | .tcvt d a b => some (.tcvt d.toNat a.toNat ((s.g b).toNat % 8), [d.toNat, a.toNat], [])
  | .tsete d a b => some (.tsete d.toNat ((s.g b).toNat / 2 ^ 16 % 2 ^ 7 * 512 + (s.g b).toNat % 2 ^ 9) (s.g a), [d.toNat], [])
  | .cstep d a b => some (.cstep d.toNat a.toNat b.toNat, [a.toNat, b.toNat], [d.toNat])
  | .cmerge d => some (.cmerge d.toNat, [], [d.toNat])
  | .cdrain d a b => some (.cdrain d.toNat a.toNat b.toNat, [d.toNat, b.toNat], [a.toNat])
  | .cclr d => some (.cclr d.toNat, [], [d.toNat])
  | _ => none

/-- The index of `TGETE` and `TSETE` lies in the tile. -/
def indexIn (w index : Word) : Prop :=
  fmtOf w ≠ 0 ∧ index.toNat / 2 ^ 16 % 2 ^ 7 < rowsOf w ∧ index.toNat % 2 ^ 9 < colsOf w

/-- `TSHAPE` takes a value (09 R225). -/
def goodShape (w : Word) : Prop :=
  w.toNat < 2 ^ 23 ∧ fmtOf w ≤ 11 ∧ (if 6 ≤ fmtOf w ∧ fmtOf w ≤ 9 then w.toNat / 16 % 8 ≠ 0 else w.toNat / 16 % 8 = 0) ∧
  (fmtOf w = 0 → w.toNat / 2 ^ 7 = 0) ∧ (fmtOf w = 10 → colsOf w % 2 = 0) ∧ rowsOf w * (colsOf w * widthOf w / 8) ≤ 16384

/-- The steps of lane l among k (09 R245). -/
def laneInc (k l : Nat) : Nat := ((List.range k).filter fun n => n % 4 = l).length

/-- A shape check of an array instruction fails with a cause (09 R229, R233 to R247). -/
def shapeFails (s : State) (i : Instr) (cause : Nat) : Prop :=
  let sh := shapeAt s
  let f (n : Nat) : Nat := fmtOf (sh n)
  let r (n : Nat) : Nat := rowsOf (sh n)
  let c (n : Nat) : Nat := colsOf (sh n)
  let map (d a b : Nat) : Prop :=
    (cause = 2 ∧ ¬ (f d = f a ∧ f b = f a ∧ 1 ≤ f a ∧ f a ≤ 3)) ∨ (cause = 3 ∧ ¬ (dimsOf (sh d) = dimsOf (sh a) ∧ dimsOf (sh b) = dimsOf (sh a)))
  let reduce (d a : Nat) : Prop :=
    (cause = 2 ∧ ¬ (1 ≤ f a ∧ f a ≤ 3 ∧ f d = 1)) ∨ (cause = 3 ∧ ¬ (r d = r a ∧ c d = 1)) ∨ (cause = 5 ∧ d = a)
  match i with
  | .tshape _ a => cause = 1 ∧ ¬ goodShape (s.g a)
  | .tmma d a b =>
    let d := d.toNat
    let a := a.toNat
    let b := b.toNat
    (cause = 2 ∧ ¬ ((f a = 2 ∧ f b = 2 ∧ f d = 1) ∨ (f a = 3 ∧ f b = 3 ∧ f d = 1) ∨
      (6 ≤ f a ∧ f a ≤ 9 ∧ 6 ≤ f b ∧ f b ≤ 9 ∧ f d = 1) ∨ (f a = 4 ∧ f b = 4 ∧ f d = 5))) ∨
    (cause = 3 ∧ ¬ (r a = r d ∧ r b = c d ∧ c a = c b)) ∨ (cause = 4 ∧ ¬ (r d ≤ 32 ∧ c d ≤ 64)) ∨ (cause = 5 ∧ (d = a ∨ d = b))
  | .tadd d a b => map d.toNat a.toNat b.toNat
  | .tmul d a b => map d.toNat a.toNat b.toNat
  | .tmax d a b => map d.toNat a.toNat b.toNat
  | .trsum d a => reduce d.toNat a.toNat
  | .trmax d a => reduce d.toNat a.toNat
  | .texp2 d a => (cause = 2 ∧ ¬ (f d.toNat = 1 ∧ f a.toNat = 1)) ∨ (cause = 3 ∧ dimsOf (sh d.toNat) ≠ dimsOf (sh a.toNat))
  | .tscan d a b =>
    let y := (s.x 4).toNat % 32
    (cause = 2 ∧ ¬ (f d.toNat = 1 ∧ f a.toNat = 1 ∧ f b.toNat = 1 ∧ f y = 1)) ∨
    (cause = 3 ∧ ¬ (dimsOf (sh d.toNat) = dimsOf (sh a.toNat) ∧ dimsOf (sh b.toNat) = dimsOf (sh a.toNat) ∧ r y = r d.toNat ∧ c y = 1)) ∨
    (cause = 5 ∧ (y = d.toNat ∨ y = a.toNat ∨ y = b.toNat))
  | .tcvt d a _ =>
    (cause = 2 ∧ ¬ (f a.toNat ≠ 0 ∧ f a.toNat ≠ 10 ∧ f a.toNat ≠ 11 ∧ f d.toNat ≠ 0 ∧ f d.toNat ≠ 10 ∧ f d.toNat ≠ 11)) ∨
    (cause = 3 ∧ ¬ (r d.toNat = r a.toNat ∧ c d.toNat = c a.toNat)) ∨ (cause = 5 ∧ d.toNat = a.toNat)
  | .tsete d _ b => cause = 6 ∧ ¬ indexIn (sh d.toNat) (s.g b)
  | .cstep d a b =>
    let x := setAt s d.toNat
    (cause = 7 ∧ x.fmtv = false) ∨ (cause = 2 ∧ ¬ (f a.toNat = 10 ∧ f b.toNat = 10)) ∨ (cause = 3 ∧ c a.toNat ≠ c b.toNat) ∨
    (cause = 4 ∧ ¬ (r a.toNat ≤ 32 ∧ r b.toNat ≤ 64)) ∨ (cause = 8 ∧ ∃ h, x.shape = some h ∧ h ≠ (r a.toNat, r b.toNat))
  | .cdrain d a b =>
    let x := setAt s a.toNat
    (cause = 7 ∧ x.fmtv = false) ∨ (cause = 2 ∧ ¬ (f d.toNat = 1 ∧ f b.toNat = 11)) ∨
    (cause = 8 ∧ ∃ h, x.shape = some h ∧ h ≠ (r d.toNat, c d.toNat)) ∨ (cause = 4 ∧ x.shape = none ∧ ¬ (r d.toNat ≤ 32 ∧ c d.toNat ≤ 64)) ∨
    (cause = 3 ∧ ¬ (r b.toNat = 2 ∧ max (r d.toNat) (c d.toNat) ≤ c b.toNat)) ∨ (cause = 5 ∧ d.toNat = b.toNat)
  | _ => False

/-- The depths of a set in the layout of 09 R248. -/
def depthsOf (x : SetView) : Nat :=
  x.md * 2 ^ 36 + x.lanes.getD 0 0 + x.lanes.getD 1 0 * 2 ^ 9 + x.lanes.getD 2 0 * 2 ^ 18 + x.lanes.getD 3 0 * 2 ^ 27

/-- A depth check fails, with the record of 09 R249. -/
def depthFails (s : State) (i : Instr) (info : Nat) : Prop :=
  match i with
  | .cstep d a _ =>
    let x := setAt s d.toNat
    let k := colsOf (shapeAt s a.toNat)
    (∃ l < 4, 511 < x.lanes.getD l 0 + laneInc k l) ∧ info = laneInc k 0 * 2 ^ 52 + d.toNat * 2 ^ 51 + depthsOf x
  | .cmerge d =>
    let x := setAt s d.toNat
    let sum := x.lanes.foldl (· + ·) 0
    32767 < x.md + sum ∧ info = 2 ^ 63 + sum % 2 ^ 11 * 2 ^ 52 + d.toNat * 2 ^ 51 + depthsOf x
  | _ => False

/-- The instruction joins the tile queue: no register but the PC and nothing else of the device differs. -/
def Queues (o : Out) (s : State) (op : TileOp) : Prop :=
  ∃ t, o = .next t ∧ t = { s with cur := t.cur, agenda := t.agenda } ∧
    t.cur = { s.cur with tq := s.cur.tq ++ [op], regs := { s.cur.regs with pc := s.pc + 4 }, mid := false,
                         task := s.cur.task.map fun k => { k with retired := k.retired + 1 } } ∧
    (s.cur.tq = [] → Move.unit .tileExec s.curUid 0 0 ∈ t.agenda)

/-- The thread waits for its tile queue at the instruction. -/
def WaitsForQueue (o : Out) (s : State) : Prop := o = .next { s with cur := { s.cur with wait := .queue } }

/-- The address of element k of a tile's rows, in row order (09 R231). -/
def elemVa (w base stride : Word) (k : Nat) : Word :=
  let per : Nat := colsOf w * widthOf w / 8 / unitOf w
  base + stride * BitVec.ofNat 64 (k / per) + BitVec.ofNat 64 (unitOf w * (k % per))

/-- The number of elements that move for a shape. -/
def elemCount (w : Word) : Nat := rowsOf w * (colsOf w * widthOf w / 8 / unitOf w)

/-- Every element of the rows of a shape is located in turn, at a line that its L2 slice holds; u is s with those lines used. What a task
has read at a home is noted besides (see `AtHome`). -/
def ElemsAt (s u : State) (w base stride : Word) (acc : Nat) (ls : List Loc) : Prop :=
  ls.length = elemCount w ∧ ∃ st : Nat → State, st 0 = s ∧ st ls.length = u ∧ ∀ i l, ls[i]? = some l →
    (∀ x, (st i).locate (elemVa w base stride i) acc x = .ok l (st i)) ∧
    (st i).askHome l (acc == 1) = .granted (st (i + 1)) ∧ s.elsewhere l = none

/-! ### Execution -/

/-- A running task's oldest queued instruction, which waits in no inbox; no release stands behind it. -/
structure Head (s : State) (k : Task) (op : TileOp) (rest : List TileOp) : Prop where
  task : s.cur.task = some k
  queue : s.cur.tq = op :: rest
  plain : ∀ m, TileOp.tfree m ∉ rest ∧ TileOp.cfree m ∉ rest
  due : (s.part k.part).queuedArray k.uid = false

/-- The tile of a task on a cluster. -/
def Tiled (s : State) (cl uid n : Nat) (x : Tile) : Prop := (s.cluster cl).tile? uid n = some x

/-- The frame of an executed array instruction: it has left the queue, and no register, no byte of memory, no set and no tile but
those of its destinations differs. -/
structure Executed (s t : State) (k : Task) (cl : Nat) (rest : List TileOp) (dests : List Nat) : Prop where
  queue : t.cur.tq = rest
  regs : t.cur.regs = s.cur.regs
  task : t.cur.task = s.cur.task
  memory : SameBytes s t
  tiles : ∀ x, x.owner ≠ k.uid ∨ x.name ∉ dests → (x ∈ (t.cluster cl).tiles ↔ x ∈ (s.cluster cl).tiles)
  sets : (t.cluster cl).sets = (s.cluster cl).sets

/-- The marks after an instruction that reads tiles: `POI` is set when a source has it, and nothing else of the shape changes. -/
def ShapeAfter (old new : Word) (poison : Bool) : Prop :=
  ∀ i < 64, new.getLsbD i = (old.getLsbD i || (poison && decide (i = 62)))

/-- The value of a raw element of a shape. -/
def extElem (w : Word) (raw : Nat) : Ext := extOf (elemVal w raw)

/-- z is acc + p, both exact, rounded once to FP32. -/
def AccTo (acc : Nat) (p : Ext) (z : Nat) : Prop := ExtRounds .f32 .rne ((extElem f32Word acc).add p) z

/-- The floating-point format of a tile format. -/
def fpOf (w : Word) : FpFmt := if fmtOf w = 2 then .bf16 else if fmtOf w = 3 then .f16 else .f32

end Sys2Proof.Claims

/-! ### The `TILE` and `COUNT` majors -/

namespace Sys2Proof.Claims

/-- R217, R221, R225, R226, R229, R233 to R239, R245 to R249: an array instruction whose tiles and sets are owned and whose shapes pass joins the thread's
queue of at most 16 and the thread goes on; a name that is not owned traps tile owner, cause 1; a shape that fails traps shape, with
a cause that holds; a depth that would pass its bound traps depth with the set's depths. A trap queues nothing. -/
def ArrayInstructionsAreQueued : Prop :=
  ∀ (i : Instr) (op : TileOp) (ts cs : List Nat) (s : State), arrayOp s i = some (op, ts, cs) →
    (s.cur.task.isSome = true → (∀ n ∈ ts, ∃ w, Owns s n w) → (∀ n ∈ cs, ∃ x, OwnsSet s n x) →
      ((∀ c, ¬ shapeFails s i c) → (∀ r, ¬ depthFails s i r) →
        (s.cur.tq.length < 16 → Queues (exec i s) s op) ∧ (16 ≤ s.cur.tq.length → WaitsForQueue (exec i s) s)) ∧
      ((∃ c, shapeFails s i c) → Enters s → ∃ c n, shapeFails s i c ∧ n ∈ ts ++ cs ∧ Traps (exec i s) s 0x08 0 (causeWord c n)) ∧
      ((∀ c, ¬ shapeFails s i c) → ∀ r, depthFails s i r → Enters s → Traps (exec i s) s 0x07 0 (BitVec.ofNat 64 r))) ∧
    ((∃ n ∈ ts, s.arr.tiles.get? n = none) ∨ (∃ n ∈ cs, s.arr.sets.get? n = none) → Enters s →
      ∃ n, ((n ∈ ts ∧ s.arr.tiles.get? n = none) ∨ (n ∈ cs ∧ s.arr.sets.get? n = none)) ∧ Traps (exec i s) s 0x09 0 (causeWord 1 n))

/-- R218, R221, R227: a command core, which runs no task, owns no tile and no set: an array instruction that names one traps tile owner, cause 1,
`TFREE` and `CFREE` of a name cause 3, and `TSYNC`, an empty release and an empty allocation go on at once. -/
def CommandCoresOwnNoTiles : Prop :=
  ∀ (s : State) (x : TileName) (n : SetName) (d a b : Reg), s.cur.task = none →
    let tiles := (s.g a).toNat % 2 ^ 32
    let sets := (s.g a).toNat % 4
    OnlyPc (exec .tsync s) s (s.pc + 4) ∧
    (tiles = 0 → OnlyPc (exec (.tfree a) s) s (s.pc + 4) ∧ Writes (exec (.talloc d a) s) s d 0 4) ∧
    (sets = 0 → OnlyPc (exec (.cfree a) s) s (s.pc + 4) ∧ Writes (exec (.calloc d a) s) s d 0 4) ∧
    (Enters s →
      (∀ i op ts cs, arrayOp s i = some (op, ts, cs) → ∃ m ∈ ts ++ cs, Traps (exec i s) s 0x09 0 (causeWord 1 m)) ∧
      (∀ i, i = .tld x a b ∨ i = .tst x a b ∨ i = .tshget d x ∨ i = .tgete d x b ∨ i = .tchain x a →
        Traps (exec i s) s 0x09 0 (causeWord 1 x.toNat)) ∧
      (∀ i, i = .cfmt n a ∨ i = .cdepth d n → Traps (exec i s) s 0x09 0 (causeWord 1 n.toNat)) ∧
      (tiles ≠ 0 → ∃ m, tiles.testBit m = true ∧ Traps (exec (.tfree a) s) s 0x09 0 (causeWord 3 m)) ∧
      (sets ≠ 0 → ∃ m, sets.testBit m = true ∧ Traps (exec (.cfree a) s) s 0x09 0 (causeWord 3 m)))

/-- R225, R227, R228, R230, R233, R248: `TSHGET`, `TGETE`, `TSYNC` and `CDEPTH` wait until the queue is empty and then give the shape word, the element
(integers sign-extended), nothing, and the set's word. A poisoned source of `TGETE` traps poisoned data in a free task, an index
outside the tile traps shape, cause 6. -/
def QueueReads : Prop :=
  ∀ (d b : Reg) (a : TileName) (n : SetName) (s : State) (k : Task) (x : Tile) (y : BankSet), s.cur.task = some k →
    let cl := s.curCluster
    let index := s.g b
    (s.cur.tq = [] →
      OnlyPc (exec .tsync s) s (s.pc + 4) ∧
      (Tiled s cl k.uid a.toNat x → s.arr.tiles.get? a.toNat = some x.shape →
        Writes (exec (.tshget d a) s) s d x.shape 4 ∧
        (indexIn x.shape index → poiOf x.shape = false →
          ∃ v : Word, Writes (exec (.tgete d a b) s) s d v 4 ∧
            let raw := elem x (index.toNat / 2 ^ 16 % 2 ^ 7) (index.toNat % 2 ^ 9)
            (if fmtOf x.shape = 4 ∨ fmtOf x.shape = 5 then v.toInt = signedOf raw (widthOf x.shape) else v.toNat = raw)) ∧
        (indexIn x.shape index → poiOf x.shape = true → s.speculative = false → Enters s →
          Traps (exec (.tgete d a b) s) s 0x10 0 0) ∧
        (¬ indexIn x.shape index → Enters s → Traps (exec (.tgete d a b) s) s 0x08 0 (causeWord 6 a.toNat))) ∧
      ((s.cluster cl).set? k.uid n.toNat = some y → s.arr.sets.get? n.toNat = some y.view → y.lanes.length = 4 →
        (∀ l ∈ y.lanes, l < 512) → y.md < 2 ^ 15 → (∀ h, y.shape = some h → 1 ≤ h.1 ∧ h.1 ≤ 32 ∧ 1 ≤ h.2 ∧ h.2 ≤ 64) →
        ∃ v : Word, Writes (exec (.cdepth d n) s) s d v 4 ∧
          (v.getLsbD 63 = true ↔ y.fmt.isSome = true) ∧ (v.getLsbD 62 = true ↔ y.shape.isSome = true) ∧
          (∀ h, y.shape = some h → v.toNat / 2 ^ 56 % 64 + 1 = h.2 ∧ v.toNat / 2 ^ 51 % 32 + 1 = h.1) ∧
          v.toNat % 2 ^ 51 = depthsOf y.view)) ∧
    (s.cur.tq ≠ [] → WaitsForQueue (exec .tsync s) s ∧
      (∀ w, Owns s a.toNat w → WaitsForQueue (exec (.tshget d a) s) s ∧
        (indexIn w index → WaitsForQueue (exec (.tgete d a b) s) s)) ∧
      (∀ z, OwnsSet s n.toNat z → WaitsForQueue (exec (.cdepth d n) s) s))

/-- R226: with an empty queue the tiles that an instruction finds are those of its task on the cluster; a queued `TSHAPE` shows its shape
to the instructions behind it, a queued `TFREE` takes its names away. -/
def EarlierInstructionsCount : Prop :=
  ∀ (s : State) (n : Nat) (w : Word),
    (s.cur.task.isSome = true → s.cur.tq = [] → (Owns s n w ↔ ∃ x, Tiled s s.curCluster s.curUid n x ∧ x.shape = w)) ∧
    (∀ q, s.cur.tq = q ++ [.tshape n w] → (∃ v, Owns { s with cur := { s.cur with tq := q } } n v) → Owns s n w) ∧
    (∀ q m, s.cur.tq = q ++ [.tfree m] → m / 2 ^ n % 2 = 1 → s.arr.tiles.get? n = none)

/-- R218, R219: `TALLOC` and `CALLOC` bind every named tile or set at once, zero, with shape word 0, and give the mask; on a shortage a task
that owns something gets 0 and one that owns nothing waits, until the request at the head fits; an owned name traps cause 2. `TFREE`
and `CFREE` with no queued use of their names unbind them; a name not owned traps cause 3. -/
def Allocation : Prop :=
  ∀ (d a : Reg) (s : State) (k : Task), s.cur.task = some k → s.cur.tq = [] →
    let cl := s.curCluster
    let c := s.cluster cl
    let names := (List.range 32).filter fun n => (s.g a).toNat.testBit n
    let sets := (List.range 2).filter fun n => (s.g a).toNat.testBit n
    let mineT (n : Nat) : Prop := ∃ x ∈ c.tiles, x.owner = k.uid ∧ x.name = n
    let mineS (n : Nat) : Prop := ∃ x ∈ c.sets, x.owner = k.uid ∧ x.name = n
    let nothing : Prop := (∀ x ∈ c.tiles, x.owner ≠ k.uid) ∧ ∀ x ∈ c.sets, x.owner ≠ k.uid
    ((∀ n ∈ names, ¬ mineT n) → names ≠ [] → c.tiles.length + names.length ≤ 32 → (∀ q ∈ c.allocs, q.sets = true) →
      ∃ t, exec (.talloc d a) s = .next t ∧ GivesOnly s t d (BitVec.ofNat 64 ((s.g a).toNat % 2 ^ 32)) (s.pc + 4) false ∧ SameBytes s t ∧
        (t.cluster cl).tiles = c.tiles ++ names.map (fun n => { owner := k.uid, name := n, shape := 0, data := [] })) ∧
    ((∀ n ∈ sets, ¬ mineS n) → sets ≠ [] → c.sets.length + sets.length ≤ 2 → (∀ q ∈ c.allocs, q.sets = false) →
      ∃ t, exec (.calloc d a) s = .next t ∧ GivesOnly s t d (BitVec.ofNat 64 ((s.g a).toNat % 4)) (s.pc + 4) false ∧ SameBytes s t ∧
        ∃ l, (t.cluster cl).sets = c.sets ++ l ∧ l.map (fun x => x.name) = sets ∧ ∀ x ∈ l, x.owner = k.uid ∧ x.fmt = none ∧ x.shape = none ∧
          x.lanes = [0, 0, 0, 0] ∧ x.md = 0 ∧ x.counts = [] ∧ x.nan = [] ∧ x.poi = false) ∧
    (names = [] → Writes (exec (.talloc d a) s) s d 0 4) ∧ (sets = [] → Writes (exec (.calloc d a) s) s d 0 4) ∧
    ((∀ n ∈ names, ¬ mineT n) → names ≠ [] → 32 < c.tiles.length + names.length ∨ (∃ q ∈ c.allocs, q.sets = false) →
      (¬ nothing → Writes (exec (.talloc d a) s) s d 0 4) ∧
      (nothing → WaitsIn (exec (.talloc d a) s) s .alloc fun t => ∃ q, (t.cluster cl).allocs = c.allocs ++ [q] ∧ q.t = s.cur.id ∧
        q.uid = k.uid ∧ q.d = d ∧ q.mask = (s.g a).toNat % 2 ^ 32 ∧ q.sets = false)) ∧
    ((∃ n ∈ names, mineT n) → Enters s → ∃ n ∈ names, mineT n ∧ Traps (exec (.talloc d a) s) s 0x09 0 (causeWord 2 n)) ∧
    ((∃ n ∈ sets, mineS n) → Enters s → ∃ n ∈ sets, mineS n ∧ Traps (exec (.calloc d a) s) s 0x09 0 (causeWord 2 n)) ∧
    ((∀ n ∈ names, mineT n) → s.cur.wait = .ready → ∃ t, exec (.tfree a) s = .next t ∧ SameRegs s t (s.pc + 4) ∧ GoesOn s t ∧ SameBytes s t ∧
      ∀ x, x ∈ (t.cluster cl).tiles ↔ x ∈ c.tiles ∧ ¬ (x.owner = k.uid ∧ (s.g a).toNat % 2 ^ 32 / 2 ^ x.name % 2 = 1)) ∧
    ((∀ n ∈ sets, mineS n) → s.cur.wait = .ready → ∃ t, exec (.cfree a) s = .next t ∧ SameRegs s t (s.pc + 4) ∧ GoesOn s t ∧ SameBytes s t ∧
      ∀ x, x ∈ (t.cluster cl).sets ↔ x ∈ c.sets ∧ ¬ (x.owner = k.uid ∧ (s.g a).toNat % 4 / 2 ^ x.name % 2 = 1)) ∧
    ((∃ n ∈ names, ¬ mineT n) → Enters s → ∃ n ∈ names, ¬ mineT n ∧ Traps (exec (.tfree a) s) s 0x09 0 (causeWord 3 n)) ∧
    ((∃ n ∈ sets, ¬ mineS n) → Enters s → ∃ n ∈ sets, ¬ mineS n ∧ Traps (exec (.cfree a) s) s 0x09 0 (causeWord 3 n))

/-- R219: `TILE_REQUEST_GRANT` serves the earliest waiting tile request when it fits: its thread goes on with the mask in its register. -/
def WaitingRequestsAreGranted : Prop :=
  ∀ (cl : Nat) (s : State) (q : AllocReq) (rest : List AllocReq), (s.cluster cl).allocs = q :: rest → q.sets = false → q ∉ rest →
    s.cur.id = q.t → s.cur.wait = .alloc →
    let names := (List.range 32).filter fun n => q.mask.testBit n
    ((s.cluster cl).tiles.length + names.length ≤ 32 → (∀ x ∈ rest, x.sets = false) →
      ∃ t, exec (.tileRequestGrant cl) s = .next t ∧ t.cur.wait = .ready ∧ t.pc = s.pc + 4 ∧ GivesG s t q.d (BitVec.ofNat 64 q.mask) ∧
        (t.cluster cl).allocs = rest ∧ SameBytes s t ∧
        (t.cluster cl).tiles = (s.cluster cl).tiles ++ names.map (fun n => { owner := q.uid, name := n, shape := 0, data := [] })) ∧
    (32 < (s.cluster cl).tiles.length + names.length → (∀ x ∈ rest, x.sets = false) → exec (.tileRequestGrant cl) s = .next s)

/-- R230, R231, R232: `TLD` of located rows joins the queue and, executed, moves the bytes of every element into the tile and clears `POI`; `TST`
waits for the queue and stores every element of the tile at its address, in a free task; misaligned addresses and strides, a tile of format 0 and a
poisoned source of `TST` trap. -/
def TileMoves : Prop :=
  ∀ (d : TileName) (a b : Reg) (s v : State) (k : Task) (w : Word) (ls : List Loc), s.cur.task = some k → s.speculative = false →
    Warm s → Owns s d.toNat w →
    let u := unitOf w
    let n := elemCount w
    let cl := s.curCluster
    (fmtOf w = 0 → Enters s →
      Traps (exec (.tld d a b) s) s 0x08 0 (causeWord 2 d.toNat) ∧ Traps (exec (.tst d a b) s) s 0x08 0 (causeWord 2 d.toNat)) ∧
    (fmtOf w ≠ 0 → (s.g a).toNat % u ≠ 0 → Enters s → Traps (exec (.tld d a b) s) s 0x02 (s.g a) (accessWord 0 (sizeLog u) 0)) ∧
    (fmtOf w ≠ 0 → (s.g a).toNat % u = 0 → (s.g b).toNat % u = 0 → ElemsAt s v w (s.g a) (s.g b) 0 ls →
      s.cur.tq.length < 16 → AtHome v fun v => Queues (exec (.tld d a b) s) v (.tld d.toNat ls u)) ∧
    (∀ x, s.cur.tq = [] → Tiled s cl k.uid d.toNat x → x.shape = w → fmtOf w ≠ 0 → (s.g a).toNat % u = 0 → (s.g b).toNat % u = 0 →
      ElemsAt s v w (s.g a) (s.g b) 1 ls →
      (poiOf w = true → Enters s → TrapsAtHome (exec (.tst d a b) s) v 0x10 (s.g a) (accessWord 0 (sizeLog u) 1)) ∧
      (∀ (p : Nat) (at_ : Nat → Nat), poiOf w = false → k.cls = .free → Canonical s → s.faults = [] →
        (∀ i < n, ∃ g, ls[i]? = some (.dram p g) ∧ ∀ j < u, s.physOf p (g + j) = some (at_ i + j) ∧ (s.part p).windowAt (g + j) = none) →
        (∀ i < n, ∀ j < n, i ≠ j → at_ i + u ≤ at_ j ∨ at_ j + u ≤ at_ i) →
        ∃ t, exec (.tst d a b) s = .next t ∧ SameRegs s t (s.pc + 4) ∧ GoesOn s t ∧
          (∀ i < n, ∀ j < u, t.mem.read (at_ i + j) = x.data.read (i * u + j)) ∧
          ∀ y, (∀ i < n, ¬ (at_ i ≤ y ∧ y < at_ i + u)) → t.mem.read y = s.mem.read y)) ∧
    (∀ (x : Tile) (rest : List TileOp), Head s k (.tld d.toNat ls u) rest → Tiled s cl k.uid d.toNat x → x.data.wf = true → ls.length = n →
      (∀ l ∈ ls, s.cachedLine cl l = none ∧ s.poisonedAt l u = false ∧ ∃ p g, l = .scratch p g ∧ s.elsewhere l = none) →
      ∃ t y, exec (.tileQueueExecute k.uid) s = .next t ∧ Executed s t k cl rest [d.toNat] ∧ Tiled t cl k.uid d.toNat y ∧
        poiOf y.shape = false ∧ dimsOf y.shape = dimsOf x.shape ∧
        (∀ i < n, ∀ j < u, ∀ l, ls[i]? = some l → y.data.read (i * u + j) = s.byteAt (l.shift j)) ∧
        ∀ z, n * u ≤ z → y.data.read z = x.data.read z)

/-- R225, R230, R233, R235 to R239: what the array makes of `TSHAPE`, `TZERO`, `TSETE`, `TADD`, `TMUL`, `TMAX`, `TRSUM`, `TRMAX`, `TEXP2`, `TSCAN` and
`TCVT` for every element of the destination, with each rounding made once, in the order of the spec; poison of a source marks the destination. How
`TCVT` into binary8 with P = 1 resolves a tie of RNE is read from R46 by inference (log 67, DEDUCED). -/
def ArrayResults : Prop :=
  ∀ (s : State) (k : Task) (rest : List TileOp) (d a b c : Nat) (xd xa xb xc : Tile),
    let cl := s.curCluster
    let R := rowsOf xd.shape
    let C := colsOf xd.shape
    let f := fpOf xd.shape
    let A (i j : Nat) : Ext := extElem xa.shape (elem xa i j)
    let B (i j : Nat) : Ext := extElem xb.shape (elem xb i j)
    let dim := dimsOf xd.shape = dimsOf xa.shape ∧ dimsOf xb.shape = dimsOf xa.shape ∧ 1 ≤ fmtOf xa.shape ∧ fmtOf xa.shape ≤ 3
    let gives (op : TileOp) (dests : List Nat) (poison : Bool) (post : Tile → State → Prop) : Prop :=
      Head s k op rest → ∃ t y, exec (.tileQueueExecute k.uid) s = .next t ∧ Executed s t k cl rest dests ∧
        Tiled t cl k.uid d y ∧ ShapeAfter xd.shape y.shape poison ∧ post y t
    Tiled s cl k.uid d xd → Tiled s cl k.uid a xa → Tiled s cl k.uid b xb → xd.data.wf = true →
    (∀ w, Head s k (.tshape d w) rest → ∃ t y, exec (.tileQueueExecute k.uid) s = .next t ∧ Executed s t k cl rest [d] ∧
      Tiled t cl k.uid d y ∧ y.shape = w ∧ y.data = xd.data) ∧
    (Head s k (.tzero d) rest → ∃ t y, exec (.tileQueueExecute k.uid) s = .next t ∧ Executed s t k cl rest [d] ∧
      Tiled t cl k.uid d y ∧ y.shape.toNat = dimsOf xd.shape ∧ y.data = []) ∧
    (∀ i j v, i < R → j < C → i < 128 → j < 512 → widthOf xd.shape ≠ 0 → gives (.tsete d (i * 512 + j) v) [d] false fun y _ =>
      elem y i j = v.toNat % 2 ^ widthOf xd.shape ∧ ∀ m n, m < R → n < C → ¬ (m = i ∧ n = j) → elem y m n = elem xd m n) ∧
    (dim → gives (.tadd d a b) [d] (poiOf xa.shape || poiOf xb.shape) fun y _ => ∀ i < R, ∀ j < C,
      ExtRounds f .rne ((A i j).add (B i j)) (elem y i j)) ∧
    (dim → gives (.tmul d a b) [d] (poiOf xa.shape || poiOf xb.shape) fun y _ => ∀ i < R, ∀ j < C,
      ExtRounds f .rne ((A i j).mul (B i j)) (elem y i j)) ∧
    (dim → gives (.tmax d a b) [d] (poiOf xa.shape || poiOf xb.shape) fun y _ => ∀ i < R, ∀ j < C,
      ExtRounds f .rne ((A i j).max (B i j)) (elem y i j)) ∧
    (fmtOf xd.shape = 1 → C = 1 → R = rowsOf xa.shape → 1 ≤ fmtOf xa.shape → fmtOf xa.shape ≤ 3 → a ≠ d →
      let folds (y : Tile) (step : Ext → Ext → Ext) : Prop := ∀ i < R, ∃ acc : Nat → Nat,
        ExtRounds .f32 .rne (A i 0) (acc 0) ∧ elem y i 0 = acc (colsOf xa.shape - 1) ∧
        ∀ j, j + 1 < colsOf xa.shape → ExtRounds .f32 .rne (step (extElem f32Word (acc j)) (A i (j + 1))) (acc (j + 1))
      (gives (.trsum d a) [d] (poiOf xa.shape) fun y _ => folds y Ext.add) ∧
      (gives (.trmax d a) [d] (poiOf xa.shape) fun y _ => folds y Ext.max)) ∧
    (fmtOf xd.shape = 1 → dimsOf xd.shape = dimsOf xa.shape → gives (.texp2 d a) [d] (poiOf xa.shape) fun y _ =>
      ∀ i < R, ∀ j < C,
        (∀ n : Int, TileNum f32Word (elem xa i j) n → -149 ≤ n → n ≤ 127 → TileNum f32Word (elem y i j) ((2 : ℚ) ^ n)) ∧
        (∀ (n : Int) (q : ℚ), TileNum f32Word (elem xa i j) q → (n : ℚ) ≤ q → q < (n : ℚ) + 1 → -149 ≤ n → n ≤ 126 →
          ∃ v, TileNum f32Word (elem y i j) v ∧ (2 : ℚ) ^ n ≤ v ∧ v ≤ (2 : ℚ) ^ (n + 1)) ∧
        (∀ q, TileNum f32Word (elem xa i j) q → (127 ≤ q → q < 128 → elem y i j = 0x7F800000 ∨
            ∃ v, TileNum f32Word (elem y i j) v ∧ (2 : ℚ) ^ (127 : Int) ≤ v) ∧
          (128 ≤ q → elem y i j = 0x7F800000) ∧ (-150 < q → q < -149 → elem y i j = 1) ∧ (q ≤ -150 → elem y i j = 0)) ∧
        (A i j = .nan → elem y i j = 0x7FC00000) ∧ (∀ n, A i j = .inf n → elem y i j = if n then 0 else 0x7F800000)) ∧
    (fmtOf xd.shape = 1 → dim → Tiled s cl k.uid c xc → fmtOf xc.shape = 1 → colsOf xc.shape = 1 → rowsOf xc.shape = R → xc.data.wf = true →
      c ≠ d → c ≠ a → c ≠ b → gives (.tscan d a b c) [d, c] (poiOf xa.shape || poiOf xb.shape || poiOf xc.shape) fun y t =>
        ∃ z, Tiled t cl k.uid c z ∧ ∀ i < R, ∃ acc : Nat → Nat, acc 0 = elem xc i 0 ∧ elem z i 0 = acc C ∧ ∀ j < C,
          elem y i j = acc (j + 1) ∧ ExtRounds .f32 .rne (((A i j).mul (extElem f32Word (acc j))).add (B i j)) (acc (j + 1))) ∧
    (∀ o, o < 8 → R = rowsOf xa.shape → C = colsOf xa.shape → a ≠ d → fmtOf xa.shape ≠ 0 → fmtOf xa.shape ≠ 10 →
      gives (.tcvt d a o) [d] (poiOf xa.shape) fun y _ => ∀ i < R, ∀ j < C,
        let m := modeOfCode (o % 4)
        let n := widthOf xd.shape
        (1 ≤ fmtOf xd.shape → fmtOf xd.shape ≤ 3 → ExtRounds f m (A i j) (elem y i j)) ∧
        (6 ≤ fmtOf xd.shape → fmtOf xd.shape ≤ 9 → xd.shape.toNat / 2 ^ 4 % 8 ≠ 0 → ∃ fl, B8Gives (xd.shape.toNat / 2 ^ 4 % 8)
          (decide (8 ≤ fmtOf xd.shape)) (decide (fmtOf xd.shape % 2 = 1)) (decide (o / 4 % 2 = 1)) m (elemVal xa.shape (elem xa i j)) (elem y i j) fl) ∧
        (fmtOf xd.shape = 4 ∨ fmtOf xd.shape = 5 →
          (∀ X v, TileNum xa.shape (elem xa i j) X → RoundsToInt m X v →
            signedOf (elem y i j) n = max (-2 ^ (n - 1)) (min (2 ^ (n - 1) - 1) v)) ∧
          (A i j = .nan → elem y i j = 0) ∧
          (∀ neg, A i j = .inf neg → signedOf (elem y i j) n = if neg then -2 ^ (n - 1) else 2 ^ (n - 1) - 1)))

/-- R66, R234: `TMMA` needs belay leave, for which it asks; with it, each element of C takes the products of A's row and B's row (B is held transposed): of
`BF16` and `FP16` one after the other, each fused and rounded once; of binary8 in exact pairs, each pair rounded once; of S8 exactly,
saturated to 32 bits with `SAT`. -/
def MatrixProducts : Prop :=
  ∀ (s : State) (k : Task) (rest : List TileOp) (c a b : Nat) (xc xa xb : Tile), Head s k (.tmma c a b) rest →
    let cl := s.curCluster
    let die := dieOfCluster cl
    let R := rowsOf xc.shape
    let C := colsOf xc.shape
    let K := colsOf xa.shape
    let A (i j : Nat) : Ext := extElem xa.shape (elem xa i j)
    let B (i j : Nat) : Ext := extElem xb.shape (elem xb i j)
    Tiled s cl k.uid c xc → Tiled s cl k.uid a xa → Tiled s cl k.uid b xb → xc.data.wf = true → a ≠ c → b ≠ c →
    ((∀ x ∈ (s.die die).granted ++ (s.die die).belayQ, x.id ≠ k.uid) →
      ∃ t, exec (.tileQueueExecute k.uid) s = .next t ∧ t.cur = s.cur ∧ t.clusters = s.clusters ∧
        (t.die die).belayQ = (s.die die).belayQ ++ [{ id := k.uid, milli := 1600, part := k.part }]) ∧
    ((∃ x ∈ (s.die die).granted, x.id = k.uid) → rowsOf xa.shape = R → rowsOf xb.shape = C → colsOf xb.shape = K →
      ∃ t y, exec (.tileQueueExecute k.uid) s = .next t ∧ Executed s t k cl rest [c] ∧ Tiled t cl k.uid c y ∧
        (∀ x ∈ (t.die die).granted, x.id ≠ k.uid) ∧ dimsOf y.shape = dimsOf xc.shape ∧
        (poiOf y.shape = (poiOf xc.shape || poiOf xa.shape || poiOf xb.shape)) ∧
        (fmtOf xc.shape = 1 → fmtOf xa.shape = fmtOf xb.shape → fmtOf xa.shape = 2 ∨ fmtOf xa.shape = 3 →
          ∀ i < R, ∀ j < C, ∃ acc : Nat → Nat, acc 0 = elem xc i j ∧ elem y i j = acc K ∧ ∀ n < K,
            AccTo (acc n) ((A i n).mul (B j n)) (acc (n + 1))) ∧
        (fmtOf xc.shape = 1 → 6 ≤ fmtOf xa.shape → fmtOf xa.shape ≤ 9 → 6 ≤ fmtOf xb.shape → fmtOf xb.shape ≤ 9 →
          ∀ i < R, ∀ j < C, ∃ acc : Nat → Nat, acc 0 = elem xc i j ∧ elem y i j = acc ((K + 1) / 2) ∧ ∀ n < (K + 1) / 2,
            let p (m : Nat) : Ext := if m < K then (A i m).mul (B j m) else .fin false 0
            AccTo (acc n) ((p (2 * n)).add (p (2 * n + 1))) (acc (n + 1))) ∧
        (fmtOf xc.shape = 5 → fmtOf xa.shape = 4 → fmtOf xb.shape = 4 →
          let exact (i j : Nat) : Int := signedOf (elem xc i j) 32 +
            ((List.range K).map fun n => signedOf (elem xa i n) 8 * signedOf (elem xb j n) 8).sum
          (∀ i < R, ∀ j < C, signedOf (elem y i j) 32 = max (-2 ^ 31) (min (2 ^ 31 - 1) (exact i j))) ∧
          (y.shape.getLsbD 63 = true ↔ xc.shape.getLsbD 63 = true ∨
            ∃ i < R, ∃ j < C, exact i j < -2 ^ 31 ∨ 2 ^ 31 - 1 < exact i j)))

end Sys2Proof.Claims

namespace Sys2Proof.Claims

/-! ### Counting and chains -/

/-- The set of a task on a cluster. -/
def Banked (s : State) (cl uid n : Nat) (x : BankSet) : Prop := (s.cluster cl).set? uid n = some x

/-- The frame of an executed counting instruction: it has left the queue, and no register, no byte of memory, no tile and no set but its
own differs. -/
structure Counted (s t : State) (k : Task) (cl : Nat) (rest : List TileOp) (n : Nat) : Prop where
  queue : t.cur.tq = rest
  regs : t.cur.regs = s.cur.regs
  task : t.cur.task = s.cur.task
  memory : SameBytes s t
  tiles : (t.cluster cl).tiles = (s.cluster cl).tiles
  sets : ∀ x, x.owner ≠ k.uid ∨ x.name ≠ n → (x ∈ (t.cluster cl).sets ↔ x ∈ (s.cluster cl).sets)

/-- A counter of a set: a cell, a bank (4 is the merge bank) and an index (09 R243). -/
def counter (x : BankSet) (i j bank n : Nat) : Int := x.count (counterKey i j bank n)

/-- The pair byte of a descriptor for two codes (09 R244). -/
def pairOf (f : CountFmt) (a b : Nat) : Nat := f.pairs.getD (a * 16 + b) 0

/-- The contribution of one product to a counter of index n. -/
def oneCount (f : CountFmt) (a b n : Nat) : Int :=
  if pairOf f a b % 32 = n then (if pairOf f a b / 128 % 2 = 1 then -1 else 1) else 0

/-- A set is empty, with a descriptor kept. -/
def Emptied (x y : BankSet) : Prop :=
  y.fmt = x.fmt ∧ y.shape = none ∧ y.lanes = [0, 0, 0, 0] ∧ y.md = 0 ∧ y.poi = false ∧ y.nan = [] ∧
  ∀ i j bank n, counter y i j bank n = 0

/-- The fields of a chain descriptor (09 R240). -/
def chainMember (bs : List Byte) (m : Nat) : Int := field bs 0x0C 2 + m * signedOf (field bs 0x10 2) 16

/-- A chain descriptor is accepted for a caller. -/
def goodChain (t : Part) (own : Nat) (bs : List Byte) : Prop :=
  1 ≤ field bs 0x0E 2 ∧ field bs 0x0E 2 ≤ 512 ∧ (1 < field bs 0x0E 2 → field bs 0x10 2 ≠ 0) ∧
  (∀ m, m < field bs 0x0E 2 → 0 ≤ chainMember bs m ∧ chainMember bs m < t.clusters) ∧
  (∃ m, m < field bs 0x0E 2 ∧ chainMember bs m = own) ∧ field bs 0x12 6 = 0 ∧ field bs 0x20 32 = 0 ∧ field bs 0x18 8 % 16 = 1

/-- Elements of a tile at locations in device memory that neither overlap nor lie in a view range. -/
structure Apart (s : State) (p : Nat) (ls : List Loc) (u n : Nat) (at_ : Nat → Nat) : Prop where
  length : ls.length = n
  there  : ∀ i < n, ∃ g, ls[i]? = some (.dram p g) ∧ ∀ j < u, s.physOf p (g + j) = some (at_ i + j) ∧ (s.part p).windowAt (g + j) = none
  apart  : ∀ i < n, ∀ j < n, i ≠ j → at_ i + u ≤ at_ j ∨ at_ j + u ≤ at_ i

end Sys2Proof.Claims

namespace Sys2Proof.Claims

/-- R244: `CFMT` of an aligned descriptor that its six loads give and whose reserved bits and bytes are zero joins the queue with its
384 bytes; a nonzero one traps access, cause 21, with the offset of the first; a misaligned address traps. Executed, the set holds the descriptor's fields,
empty. -/
def DescriptorsOfCounting : Prop :=
  ∀ (d : SetName) (a : Reg) (s : State) (k : Task), s.cur.task = some k →
    (∀ (x : SetView) (bs : List Byte) (u : State), OwnsSet s d.toNat x → (s.g a).toNat % 64 = 0 →
      s.readPlain (s.g a) (accessWord 0 3 0) 6 0 = .ok bs u → bs.length = 384 → u.cur.tq.length < 16 →
      let bad (n : Nat) : Prop := ∃ b : Byte, bs[n]? = some b ∧
        ((n < 0x100 ∧ b.toNat / 32 % 4 ≠ 0) ∨ ((n = 0x100 ∨ n = 0x101 ∨ n = 0x13E ∨ n = 0x13F ∨ 0x143 ≤ n) ∧ b ≠ 0))
      ((∀ n, ¬ bad n) → Queues (exec (.cfmt d a) s) u (.cfmt d.toNat bs)) ∧
      (∀ n, bad n → (∀ m < n, ¬ bad m) → Enters u → Traps (exec (.cfmt d a) s) u 0x03 (s.g a) (causeWord 21 n))) ∧
    (∀ x : SetView, OwnsSet s d.toNat x → (s.g a).toNat % 64 ≠ 0 → Enters s →
      Traps (exec (.cfmt d a) s) s 0x02 (s.g a) (accessWord 0 3 0)) ∧
    (s.arr.sets.get? d.toNat = none → Enters s → Traps (exec (.cfmt d a) s) s 0x09 0 (causeWord 1 d.toNat)) ∧
    (∀ (n : Nat) (bs : List Byte) (x : BankSet) (rest : List TileOp), Head s k (.cfmt n bs) rest → Banked s s.curCluster k.uid n x →
      bs.length = 384 →
      ∃ (t : State) (y : BankSet) (f : CountFmt), exec (.tileQueueExecute k.uid) s = .next t ∧ Counted s t k s.curCluster rest n ∧
        Banked t s.curCluster k.uid n y ∧ Emptied { x with fmt := some f } y ∧
        (∀ i, i < 256 → f.pairs[i]? = some (field bs i 1)) ∧
        (∀ i, 1 ≤ i → i ≤ 30 → f.values[i]? = some (signedOf (field bs (0x100 + 2 * i) 2) 16)) ∧
        f.qexp = signedOf (field bs 0x140 1) 8 ∧ f.aSet = field bs 0x141 1 ∧ f.bSet = field bs 0x142 1)

/-- R63, R245: `CSTEP`, which needs belay leave, moves for every cell and lane the counter of each product's index by one, up or down,
leaves index 0 out, marks the cell for index 31, and adds the products of each lane to its depth; the merge counters stay. -/
def CountingSteps : Prop :=
  ∀ (s : State) (k : Task) (rest : List TileOp) (n a b : Nat) (x : BankSet) (f : CountFmt) (xa xb : Tile),
    Head s k (.cstep n a b) rest → Banked s s.curCluster k.uid n x → x.fmt = some f →
    Tiled s s.curCluster k.uid a xa → Tiled s s.curCluster k.uid b xb →
    rowsOf xa.shape ≤ 32 → rowsOf xb.shape ≤ 64 → fmtOf xa.shape = 10 → fmtOf xb.shape = 10 →
    (∃ y ∈ (s.die (dieOfCluster s.curCluster)).granted, y.id = k.uid) →
    let K := colsOf xa.shape
    ∃ (t : State) (y : BankSet), exec (.tileQueueExecute k.uid) s = .next t ∧ Counted s t k s.curCluster rest n ∧
      Banked t s.curCluster k.uid n y ∧ (∀ z ∈ (t.die (dieOfCluster s.curCluster)).granted, z.id ≠ k.uid) ∧ y.fmt = x.fmt ∧
      y.shape = some (rowsOf xa.shape, rowsOf xb.shape) ∧ y.md = x.md ∧
      y.poi = (x.poi || poiOf xa.shape || poiOf xb.shape) ∧
      (∀ l, l < 4 → y.lanes.getD l 0 = x.lanes.getD l 0 + laneInc K l) ∧
      ∀ i j : Nat, i < rowsOf xa.shape → j < rowsOf xb.shape →
        (∀ l m, l < 4 → 1 ≤ m → m ≤ 30 → counter y i j l m = counter x i j l m +
          (((List.range K).filter fun q => q % 4 = l).map fun q => oneCount f (elem xa i q) (elem xb j q) m).sum) ∧
        (∀ m, m < 32 → counter y i j 4 m = counter x i j 4 m) ∧
        (i * 64 + j ∈ y.nan ↔ i * 64 + j ∈ x.nan ∨ ∃ q, q < K ∧ pairOf f (elem xa i q) (elem xb j q) % 32 = 31)

/-- R64, R246 to R248: `CMERGE` adds the lane counters of each cell and index into its merge counter, and the lane depths into `MD`; `CDRAIN` adds to
each element of C the sum over the indices of count times value, scaled by 2 to the sum of the descriptor's and the two tile exponents, rounded once,
gives NaN for a marked cell and for a scale of -128, and empties the set; `CCLR` empties it, keeping the descriptor. -/
def CountingResults : Prop :=
  ∀ (s : State) (k : Task) (rest : List TileOp) (n : Nat) (x : BankSet), Banked s s.curCluster k.uid n x →
    (Head s k (.cmerge n) rest → (x.counts.map fun e => e.1).Nodup →
      ∃ (t : State) (y : BankSet), exec (.tileQueueExecute k.uid) s = .next t ∧ Counted s t k s.curCluster rest n ∧
        Banked t s.curCluster k.uid n y ∧ y.fmt = x.fmt ∧ y.shape = x.shape ∧ y.nan = x.nan ∧ y.poi = x.poi ∧
        y.lanes = [0, 0, 0, 0] ∧ y.md = x.md + x.lanes.foldl (· + ·) 0 ∧
        ∀ i j m : Nat, j < 64 → m < 32 → (∀ l, l < 4 → counter y i j l m = 0) ∧
          counter y i j 4 m = counter x i j 0 m + counter x i j 1 m + counter x i j 2 m + counter x i j 3 m + counter x i j 4 m) ∧
    (Head s k (.cclr n) rest → ∃ (t : State) (y : BankSet), exec (.tileQueueExecute k.uid) s = .next t ∧
      Counted s t k s.curCluster rest n ∧ Banked t s.curCluster k.uid n y ∧ Emptied x y) ∧
    (∀ (c b : Nat) (f : CountFmt) (xc xs : Tile), Head s k (.cdrain c n b) rest → x.fmt = some f →
      Tiled s s.curCluster k.uid c xc → Tiled s s.curCluster k.uid b xs → fmtOf xc.shape = 1 → fmtOf xs.shape = 11 →
      colsOf xc.shape ≤ 64 → b ≠ c → xc.data.wf = true →
      ∃ (t : State) (y : Tile) (z : BankSet), exec (.tileQueueExecute k.uid) s = .next t ∧ t.cur.tq = rest ∧
        t.cur.regs = s.cur.regs ∧ SameBytes s t ∧ Tiled t s.curCluster k.uid c y ∧ Banked t s.curCluster k.uid n z ∧ Emptied x z ∧
        ShapeAfter xc.shape y.shape (x.poi || poiOf xs.shape) ∧
        (∀ m w, m ≠ c → Tiled s s.curCluster k.uid m w → Tiled t s.curCluster k.uid m w) ∧
        ∀ i j : Nat, i < rowsOf xc.shape → j < colsOf xc.shape →
          let sa := signedOf (elem xs 0 i) 8
          let sb := signedOf (elem xs 1 j) 8
          let per (m : Nat) : Int :=
            (counter x i j 0 m + counter x i j 1 m + counter x i j 2 m + counter x i j 3 m + counter x i j 4 m) * f.values.getD m 0
          let total : Int := ((List.range 31).map fun m => if m = 0 then 0 else per m).sum
          (i * 64 + j ∈ x.nan ∨ sa = -128 ∨ sb = -128 → elem y i j = 0x7FC00000) ∧
          (¬ (i * 64 + j ∈ x.nan ∨ sa = -128 ∨ sb = -128) →
            AccTo (elem xc i j) (.fin (decide (total < 0)) (total * (2 : ℚ) ^ (f.qexp + sa + sb))) (elem y i j)))

/-- R240, R242: `TCHAIN` of an accepted descriptor joins the queue with the caller's place in the chain; a descriptor that is refused traps access,
cause 22, a tile of another shape traps shape, cause 9, a misaligned descriptor traps misaligned; in an ordered task it stalls. -/
def ChainsAreIssued : Prop :=
  ∀ (d : TileName) (a : Reg) (s u : State) (k : Task) (w : Word) (g : Nat), s.cur.task = some k → Warm s → Owns s d.toNat w →
    let va := s.g a
    let bs := s.bytesAt (.dram k.part g) 64
    let v := s.part k.part
    let own := s.curCluster - 8 * v.first
    (s.speculative = true → Stalls (exec (.tchain d a) s) s k) ∧
    (s.speculative = false → va.toNat % 64 ≠ 0 → Enters s → Traps (exec (.tchain d a) s) s 0x02 va (accessWord 0 3 0)) ∧
    (s.speculative = false → va.toNat % 64 = 0 → LineAt s u va k.part g → 8 * v.first ≤ s.curCluster → bs.length = 64 →
      (¬ goodChain v own bs → Enters u → TrapsAtHome (exec (.tchain d a) s) u 0x03 va (causeWord 22 0)) ∧
      (goodChain v own bs → dimsOf w ≠ field bs 0x18 8 → Enters u → TrapsAtHome (exec (.tchain d a) s) u 0x08 0 (causeWord 9 d.toNat)) ∧
      (goodChain v own bs → dimsOf w = field bs 0x18 8 → s.cur.tq.length < 16 → ∀ m, m < field bs 0x0E 2 → chainMember bs m = own →
        (m + 1 < field bs 0x0E 2 → AtHome u fun u => Queues (exec (.tchain d a) s) u
          (.tchain d.toNat va (decide (0 < m)) (some (8 * v.first + (chainMember bs (m + 1)).toNat)) [])) ∧
        (∀ (ls : List Loc) (z : State), m + 1 = field bs 0x0E 2 → field bs 0 8 % 4 = 0 → field bs 8 4 % 4 = 0 →
          ElemsAt u z w (BitVec.ofNat 64 (field bs 0 8)) (BitVec.ofInt 64 (signedOf (field bs 8 4) 32)) 1 ls →
          AtHome z fun z => Queues (exec (.tchain d a) s) z (.tchain d.toNat va (decide (0 < m)) none ls))))

/-- R67, R241: a member waits for the message of its descriptor, adds it to its tile element by element, predecessor first and
rounded once, then sends the result to the next member, whose array buffers four, or stores it at its addresses when it is the last one. A
message that arrives makes the waiting member due. -/
def ChainsAddAndPass : Prop :=
  ∀ (s : State) (k : Task) (rest : List TileOp) (n : Nat) (va : Word) (x : Tile) (next : Option Nat) (ls : List Loc),
    Tiled s s.curCluster k.uid n x → fmtOf x.shape = 1 → x.data.wf = true →
    let cl := s.curCluster
    let mine (m : ChainMsg) : Prop := m.part = k.part ∧ m.ctx = k.ctx ∧ m.desc = va
    (Head s k (.tchain n va true next ls) rest → (∀ m ∈ (s.cluster cl).chain, ¬ mine m) →
      exec (.tileQueueExecute k.uid) s = .next s) ∧
    (∀ (m : ChainMsg) (ms : List ChainMsg), Head s k (.tchain n va true next ls) rest → (s.cluster cl).chain = m :: ms → mine m →
      ∃ (t : State) (y : Tile), exec (.tileQueueExecute k.uid) s = .next t ∧
        t.cur = { s.cur with tq := .tchain n va false next ls :: rest } ∧ SameBytes s t ∧ (t.cluster cl).chain = ms ∧
        Tiled t cl k.uid n y ∧ ShapeAfter x.shape y.shape m.poi ∧ Move.unit .tileExec k.uid 0 0 ∈ t.agenda ∧
        ∀ i j : Nat, i < rowsOf x.shape → j < colsOf x.shape →
          AccTo (elem { x with data := m.data } i j) (extElem f32Word (elem x i j)) (elem y i j)) ∧
    (∀ c : Nat, Head s k (.tchain n va false (some c) ls) rest →
      (s.part k.part).residentAt (c - 8 * (s.part k.part).first) = some k.ctx → 8 * (s.part k.part).first ≤ c →
      ((s.cluster c).chain.length < 4 → ∃ t : State, exec (.tileQueueExecute k.uid) s = .next t ∧ Executed s t k cl rest [] ∧
        (t.cluster c).chain = (s.cluster c).chain ++
          [{ part := k.part, ctx := k.ctx, desc := va, data := x.data, poi := poiOf x.shape }]) ∧
      (4 ≤ (s.cluster c).chain.length → exec (.tileQueueExecute k.uid) s = .next s)) ∧
    (∀ (p : Nat) (at_ : Nat → Nat), Head s k (.tchain n va false none ls) rest → poiOf x.shape = false → k.cls = .free →
      Canonical s → s.faults = [] → Apart s p ls 4 (rowsOf x.shape * colsOf x.shape) at_ →
      ∃ t : State, exec (.tileQueueExecute k.uid) s = .next t ∧ t.cur.tq = rest ∧ t.cur.regs = s.cur.regs ∧
        Tiled t cl k.uid n x ∧
        (∀ i j : Nat, i < rowsOf x.shape * colsOf x.shape → j < 4 → t.mem.read (at_ i + j) = x.data.read (i * 4 + j)) ∧
        ∀ y, (∀ i, i < rowsOf x.shape * colsOf x.shape → ¬ (at_ i ≤ y ∧ y < at_ i + 4)) → t.mem.read y = s.mem.read y) ∧
    (Head s k (.tchain n va true next ls) rest → (∃ m ∈ (s.cluster cl).chain, mine m) →
      ∃ t : State, exec (.tchainMessageArrive cl) s = .next t ∧ t = { s with agenda := t.agenda } ∧
        Move.unit .tileExec k.uid 0 0 ∈ t.agenda)

/-- R218: `TFREE` and `CFREE` of a name that a queued instruction uses take their place in the queue behind it, and the name is unbound
when that instruction has executed. -/
def ReleasesWait : Prop :=
  ∀ (a : Reg) (s : State) (k : Task) (n m : Nat) (w : Word) (x : Tile), s.cur.task = some k →
    ((s.g a).toNat % 2 ^ 32 = 2 ^ n → s.cur.tq = [.tshape n w] → Owns s n w →
      ∃ t : State, exec (.tfree a) s = .next t ∧ SameRegs s t (s.pc + 4) ∧ t.cur.tq = [.tshape n w, .tfree (2 ^ n)] ∧
        t.clusters = s.clusters) ∧
    (m = 2 ^ n → n < 32 → s.cur.tq = [.tshape n w, .tfree m] → Tiled s s.curCluster k.uid n x →
      (s.part k.part).queuedArray k.uid = false →
      ∃ t : State, exec (.tileQueueExecute k.uid) s = .next t ∧ t.cur.tq = [] ∧ t.cur.regs = s.cur.regs ∧
        ∀ y, y ∈ (t.cluster s.curCluster).tiles ↔ y ∈ (s.cluster s.curCluster).tiles ∧ ¬ (y.owner = k.uid ∧ y.name = n))

end Sys2Proof.Claims

namespace Sys2Proof.Claims

/-! ### Scheduling -/

/-- A step of a unit changes no byte of memory and nothing of the thread that runs. -/
def UnitStep (o : Out) (s : State) (post : State → Prop) : Prop :=
  ∃ t : State, o = .next t ∧ t.cur = s.cur ∧ SameBytes s t ∧ post t

/-- The order of a ready queue (01 R28). -/
def Precedes (a b : QEntry) : Prop :=
  a.prio > b.prio ∨ (a.prio = b.prio ∧
    ((a.ordered = false ∧ b.ordered = true) ∨ (a.ordered = false ∧ b.ordered = false ∧ a.stamp < b.stamp) ∨
     (a.ordered = true ∧ b.ordered = true ∧ a.key.toNat < b.key.toNat)))

/-- The occupied slots of a cluster, and their number on a core. -/
def occupied (s : State) (cl n : Nat) : Prop :=
  ∃ th ∈ s.cur :: s.others, th.id.kind = .barrel ∧ th.id.unit = cl ∧ th.id.slot = n ∧ th.wait ≠ .free
def loadOf (s : State) (cl core : Nat) : Nat :=
  ((s.cur :: s.others).filter fun th => th.id.kind == .barrel && th.id.unit == cl && decide (th.wait ≠ .free) &&
    th.id.slot / 32 == core).length

/-- The context that a dispatched task takes (01 R28). -/
def ChosenSlot (s : State) (cl : Nat) (t : Tid) : Prop :=
  t.kind = .barrel ∧ t.unit = cl ∧ t.slot < 128 ∧ ¬ occupied s cl t.slot ∧
  (∀ m, m < t.slot → m / 32 = t.slot / 32 → occupied s cl m) ∧
  ∀ core, core < 4 → loadOf s cl (t.slot / 32) ≤ loadOf s cl core ∧
    (loadOf s cl core = loadOf s cl (t.slot / 32) → t.slot / 32 ≤ core)

/-- The instance i of a registration starts in a thread context, at a priority. -/
def Starts (s t : State) (id : Tid) (r : Registration) (i prio : Nat) : Prop :=
  ∃ th ∈ t.cur :: t.others, th.id = id ∧ AtEntry s r i prio th

/-- An instance of a registration is queued, or on its way to the die of its cluster. -/
def Queued (t : State) (reg i prio : Nat) (tie : Option Word) : Prop :=
  (∃ cl, ∃ e ∈ (t.cluster cl).readyQ, e.job = .fresh reg i tie ∧ e.prio = prio) ∨
  (∃ d, ∃ f ∈ (t.die d).forwards, f.entry.job = .fresh reg i tie ∧ f.entry.prio = prio)

/-- The task whose thread context is named has none any more. -/
def Vacated (t : State) (id : Tid) : Prop := ∃ th ∈ t.cur :: t.others, th.id = id ∧ th.task = none ∧ th.wait = .free

/-- The limits of the token of a priority (22 R414): drain and kill. -/
def drainLimit (w : Word) : Nat := w.toNat / 2 ^ 32
def killLimit (w : Word) : Nat := w.toNat % 2 ^ 32

/-- A running task is the only one that a newcomer of a priority can take the context of (01 R33). -/
structure OnlyVictim (s : State) (cl prio : Nat) (v : Thread) (k : Task) : Prop where
  there  : v ∈ s.cur :: s.others
  where_ : v.id.kind = .barrel ∧ v.id.unit = cl ∧ v.wait ≠ .free
  task   : v.task = some k
  lower  : k.prio < prio
  fault  : ∀ token trap, v.wait ≠ .fault token trap
  holder : (s.ctxState k.part k.ctx).holder ≠ some (k.reg, k.idx)
  unique : ((s.cur :: s.others).map fun th => th.id).Nodup
  others : ∀ th ∈ s.cur :: s.others, th.id.kind = .barrel → th.id.unit = cl → th.wait ≠ .free → th.id ≠ v.id →
             th.ckpt = false ∧ ∀ x, th.task = some x → prio ≤ x.prio
  ckpt   : v.ckpt = false
  alone  : ∀ th ∈ s.cur :: s.others, ∀ x, th.task = some x → x.uid = k.uid → th.id = v.id
  open_  : ∀ e ∈ (s.cluster cl).readyQ, e.bound = none

/-- The shares of n instances over the dies of a partition, with its clusters on each (01 R39). -/
def shareFloor (n total c : Nat) : Nat := n * c / total
def shareOf (n total : Nat) (cs : List Nat) (j : Nat) : Nat :=
  shareFloor n total (cs.getD j 0) + if j < n - (cs.map fun c => shareFloor n total c).sum then 1 else 0

end Sys2Proof.Claims

/-- R28, R35: a cluster dispatches the head of its ready queue, in the order of R28, to the free context that R28 names, at its entry or where it was
saved; the summit holder goes before the head; in deterministic mode a re-run after an equal-key conflict traps at its entry (13 R314); a newcomer
bound to a context goes there when it frees; a stopped cluster and an empty queue dispatch nothing. -/
def Sys2Proof.Claims.DispatchFollowsR28 : Prop :=
  ∀ (cl : Nat) (s : State) (h : QEntry) (id : Tid), (s.cluster cl).stopped = false → h ∈ s.dispatchable cl →
    (∀ e ∈ (s.cluster cl).readyQ, e.seq = h.seq → e = h) → ChosenSlot s cl id →
    let alone : Prop := ∀ e ∈ s.dispatchable cl, (s.ctxState e.part e.ctx).holder = none
    let ahead : Prop := ∀ e ∈ s.dispatchable cl, e ≠ h → Precedes h e
    let left (t : State) : Prop := ∀ e, e ∈ (t.cluster cl).readyQ ↔ e ∈ (s.cluster cl).readyQ ∧ e ≠ h
    (∀ r i, (∀ e ∈ s.dispatchable cl, e.bound = none) → alone → ahead → h.job = .fresh r.id i none → s.reg? r.id = some r →
      ∃ t : State, exec (.taskDispatch cl) s = .next t ∧ SameBytes s t ∧ Starts s t id r i h.prio ∧ left t ∧ t.regs = s.regs) ∧
    (∀ th area, (∀ e ∈ s.dispatchable cl, e.bound = none) → alone → ahead → h.job = .saved th area →
      ∃ t : State, exec (.taskDispatch cl) s = .next t ∧ SameBytes s t ∧ left t ∧ ∃ x ∈ t.cur :: t.others, x.id = id ∧ x.wait = .ready ∧
        x.regs = th.regs ∧ x.tq = th.tq ∧ x.task.map (fun k => k.uid) = th.task.map fun k => k.uid) ∧
    (∀ r i, (∀ e ∈ s.dispatchable cl, e.bound = none) → h.ordered = true → h.job = .fresh r.id i none → s.reg? r.id = some r →
      (s.ctxState h.part h.ctx).holder = some (r.id, i) →
      (∀ e ∈ s.dispatchable cl, e ≠ h → e.ordered = false ∧ ∃ n m, e.job = .fresh n m none) →
      ∃ t : State, exec (.taskDispatch cl) s = .next t ∧ SameBytes s t ∧ Starts s t id r i h.prio ∧ left t) ∧
    (∀ r i x, h.bound = some x → x.kind = .barrel → x.unit = cl → ¬ occupied s cl x.slot → alone →
      (∀ e ∈ s.dispatchable cl, e ≠ h → e.bound = none) → h.job = .fresh r.id i none →
      s.reg? r.id = some r → ∃ t : State, exec (.taskDispatch cl) s = .next t ∧ SameBytes s t ∧ Starts s t x r i h.prio ∧ left t) ∧
    (∀ r i line, (∀ e ∈ s.dispatchable cl, e.bound = none) → alone → ahead → h.job = .fresh r.id i (some line) → s.reg? r.id = some r →
      (s.part r.part).pdesc.getLsbD 62 = true → r.hdr.ctrl.toNat % 4 = 1 →
      ∃ t : State, exec (.taskDispatch cl) s = .next t ∧ SameBytes s t ∧ left t ∧ ∃ x ∈ t.cur :: t.others, x.id = id ∧
        x.wait = .ready ∧ x.regs.pc = x.regs.tvec ∧ x.regs.tpc = r.hdr.entry ∧ x.regs.tkind = 0x13 ∧ x.regs.taddr = line ∧
        x.regs.tinfo = causeWord 1 ((r.hdr.key + word i).toNat % 2 ^ 16)) ∧
    (∀ c, (s.cluster c).stopped = true → exec (.taskDispatch c) s = .next s) ∧
    ∀ c, (s.cluster c).readyQ = [] → ∃ t : State, exec (.taskDispatch c) s = .next t ∧ t = { s with agenda := t.agenda }

/-- R33: with no free context, the first rule that fits the victim decides: a drain binds the newcomer to its context, a kill or an abort takes the
context and queues the victim's instance again from its header, at its header priority; a victim in a `SERVE` is passed over; any other is marked for
a checkpoint. No register of another task and no memory changes. -/
def Sys2Proof.Claims.PreemptionFollowsR33 : Prop :=
  ∀ (cl : Nat) (s : State) (h : QEntry) (v : Thread) (k : Task) (r : Registration) (w : Word), (s.cluster cl).stopped = false →
    s.dispatchable cl = [h] → (s.cluster cl).readyQ = [h] → h.bound = none → (s.ctxState h.part h.ctx).holder = none →
    (∀ n, n < 128 → occupied s cl n) → OnlyVictim s cl h.prio v k → s.reg? k.reg = some r → r.hdr.tiles = [] →
    (s.part h.part).pretok[h.prio]? = some w →
    let ctrl := r.hdr.ctrl.toNat
    let elapsed := (k.ranBefore + (s.tick - k.dispatched)) / 1024
    let drain : Prop := drainLimit w = 0xFFFFFFFF ∨ ctrl / 2 ^ 32 - elapsed ≤ drainLimit w
    let kill : Prop := ctrl.testBit 5 = true ∧ (killLimit w = 0xFFFFFFFF ∨ elapsed < killLimit w)
    let serving : Prop := (∃ n, v.wait = .serve n) ∨ ∃ n, v.wait = .image n
    (drain → ∃ t : State, exec (.taskDispatch cl) s = .next t ∧ t = { s with clusters := t.clusters } ∧ SameBytes s t ∧
      (t.cluster cl).readyQ = [{ h with bound := some v.id }]) ∧
    (¬ drain → kill ∨ k.cls = .ordered → (s.part r.part).clustersOnDie (s.homeDie r.part r.gpa) ≠ [] →
      (∀ x ∈ s.regs, x.spawner ≠ some k.uid) → (∃ n m tie, h.job = .fresh n m tie) →
      ∃ t : State, exec (.taskDispatch cl) s = .next t ∧ SameBytes s t ∧ Vacated t v.id ∧
        Queued t k.reg k.idx (ctrl / 4 % 8) none ∧ h ∈ (t.cluster cl).readyQ ∧
        ∀ th ∈ s.cur :: s.others, th.id ≠ v.id → th ∈ t.cur :: t.others) ∧
    (¬ drain → ¬ kill → k.cls = .free → serving → exec (.taskDispatch cl) s = .next s) ∧
    (¬ drain → ¬ kill → k.cls = .free → ¬ serving → (s.cluster cl).stored < 170 →
      ∃ t : State, exec (.taskDispatch cl) s = .next t ∧ SameBytes s t ∧ (t.cluster cl).readyQ = [{ h with sought := true }] ∧
        { v with ckpt := true } ∈ t.cur :: t.others ∧ ∀ th ∈ s.cur :: s.others, th.id ≠ v.id → th ∈ t.cur :: t.others)

namespace Sys2Proof.Claims

/-- R26, R29, R30, R33, R35: a forwarded task is queued where it was sent, with a stamp taken at arrival; aging raises every entry that has
waited 2^20 ticks by one level, up to 7, with its stamp kept; a marked victim at rest leaves its context and is ready again with its registers; the
summit holder takes a context on its own cluster, which dispatches nothing while it is stopped or holds another context. -/
def QueuesMove : Prop :=
  (∀ (die : Nat) (s : State) (f : Forward) (rest : List Forward), (s.die die).forwards = f :: rest →
    UnitStep (exec (.taskForwardArrive die) s) s fun t => (t.die die).forwards = rest ∧
      (∃ n, (t.cluster f.cl).readyQ = (s.cluster f.cl).readyQ ++
        [{ f.entry with seq := n, stamp := s.tick, agedAt := s.tick + 2 ^ 20 }]) ∧
      (∀ c, c ≠ f.cl → t.cluster c = s.cluster c) ∧ Move.unit .dispatch f.cl 0 0 ∈ t.agenda) ∧
  (∀ (cl : Nat) (s : State), UnitStep (exec (.taskAging cl) s) s fun t =>
    (t.cluster cl).readyQ.length = (s.cluster cl).readyQ.length ∧ (∀ c, c ≠ cl → t.cluster c = s.cluster c) ∧
    ∀ (i : Nat) (e : QEntry), (s.cluster cl).readyQ[i]? = some e → (t.cluster cl).readyQ[i]? =
      some (if e.agedAt ≤ s.tick ∧ e.prio < 7 then { e with prio := e.prio + 1, agedAt := e.agedAt + 2 ^ 20 } else e)) ∧
  (∀ (s : State) (k : Task), s.cur.task = some k → s.cur.id.kind = .barrel → s.cur.ckpt = true → s.cur.tq = [] →
    (s.cluster s.curCluster).stored < 170 →
    ((s.cur.wait = .ready ∧ s.cur.mid = false) ∨ s.cur.wait = .alloc ∨ s.cur.wait = .inbox true →
      ∃ t : State, exec (.checkpointTake s.cur.id) s = .next t ∧ SameBytes s t ∧ Gone t s.cur.id ∧
        ∃ e ∈ (t.cluster s.curCluster).readyQ, ∃ th : Thread, e.job = .saved th false ∧ e.prio = k.prio ∧ e.stamp = s.tick ∧
          th.regs = s.cur.regs ∧ th.task.map (fun x => x.uid) = some k.uid) ∧
    (∀ a l, s.cur.wait = .access a l → exec (.checkpointTake s.cur.id) s = .next s)) ∧
  (∀ (p c cl : Nat) (s : State) (e : QEntry) (r : Registration) (i : Nat) (id : Tid), s.holderQueued p c = some (cl, e) →
    let here : Prop := (s.part p).residentAt ((s.part p).logicalCl cl) = some c
    (e.job = .fresh r.id i none → s.reg? r.id = some r → ChosenSlot s cl id → (s.cluster cl).stopped = false → here →
      ∃ t : State, exec (.summitHolderDispatch p c) s = .next t ∧ SameBytes s t ∧ Starts s t id r i e.prio) ∧
    ((s.cluster cl).stopped = true ∨ ¬ here → exec (.summitHolderDispatch p c) s = .next s)) ∧
  (∀ (p c : Nat) (s : State), s.holderQueued p c = none → exec (.summitHolderDispatch p c) s = .next s)

end Sys2Proof.Claims

/-- R39, R40: a range is split over the dies as R39 says; a die with a free context and empty ready queues places the next
instance of its share; a die with nothing left takes the upper half of the largest share, and one instance is not taken; what is taken counts on the
die that gave it until it arrives (13 R321). -/
def Sys2Proof.Claims.RangesAreSplit : Prop :=
  (∀ (a b : Reg) (s u : State) (k : Task) (g : Nat) (bs : List Byte), s.cur.task = some k → HeaderAt (s.release .prt) u (s.g a) k.part g bs →
    s.speculative = false → (s.g b).toNat ≠ 0 → depsOf bs = 0 →
    headerFails bs (s.regs.any fun r => r.part == k.part && r.gpa == g) (s.g b).toNat (ownKey k) = none →
    let v := s.part k.part
    let cs := v.dies.map fun d => (v.clustersOnDie d).length
    ∃ (t : State) (r : Registration), exec (.spawnr 0 a b) s = .next t ∧ r ∈ t.regs ∧
      RegistrationHolds r k (s.g a) g (s.g b).toNat true bs ∧ ∀ (j d : Nat), v.dies[j]? = some d → shareOf (s.g b).toNat v.clusters cs j ≠ 0 → ∃ h ∈ (t.die d).shares, h.reg = r.id ∧ h.part = k.part ∧
        h.next = ((List.range j).map fun i => shareOf (s.g b).toNat v.clusters cs i).sum ∧
        h.left = shareOf (s.g b).toNat v.clusters cs j) ∧
  (∀ (p d : Nat) (s : State) (h : Share) (rest : List Share) (r : Registration), (s.die d).shares = h :: rest → h.part = p →
    h.ctx = (s.part p).resident → (s.part p).vacant = false → s.reg? h.reg = some r → r.hdr.tiles = [] → h ∉ rest →
    (∀ x ∈ h :: rest, x.part = p → x.src = none) →
    let cls := (s.part p).clustersOnDie d
    ((∃ cl ∈ cls, (s.cluster cl).stopped = false ∧ ∃ id, ChosenSlot s cl id) → (∀ cl ∈ cls, (s.cluster cl).readyQ = []) →
      UnitStep (exec (.rangeInstancePlace p d) s) s fun t => Queued t h.reg h.next (r.hdr.ctrl.toNat / 4 % 8) none ∧
        (t.die d).shares = (if h.left ≤ 1 then [] else [{ h with next := h.next + 1, left := h.left - 1 }]) ++ rest) ∧
    ((∃ cl ∈ cls, (s.cluster cl).readyQ ≠ []) → exec (.rangeInstancePlace p d) s = .next s)) ∧
  (∀ (p d : Nat) (s : State), (∃ h ∈ (s.die d).shares, h.part = p ∧ h.src ≠ none) →
    UnitStep (exec (.rangeInstancePlace p d) s) s fun t =>
      (t.die d).shares = (s.die d).shares.map fun h => if h.part = p then { h with src := none } else h) ∧
  (∀ (p d e : Nat) (s : State) (h : Share) (r : Registration), d ≠ e → d ∈ (s.part p).dies → e ∈ (s.part p).dies → (s.die e).shares = [h] →
    h.part = p → h.src = none → (∀ x, x ≠ e → (s.die x).shares = []) → s.reg? h.reg = some r →
    (2 ≤ h.left → UnitStep (exec (.rangeSteal p d) s) s fun t =>
      (t.die e).shares = [{ h with left := h.left - h.left / 2 }] ∧
      (t.die d).shares = [{ h with next := h.next + (h.left - h.left / 2), left := h.left / 2, src := some e }]) ∧
    (h.left ≤ 1 → exec (.rangeSteal p d) s = .next s))

namespace Sys2Proof.Claims

/-! ### The summit and commits -/

/-- The sequencer's key is the smallest of the reports and of the finished tasks' keys. -/
def IsSummit (t : State) (p c : Nat) (key : Word) : Prop :=
  let x := t.ctxState p c
  let among (w : Word) : Prop := (∃ e ∈ x.reports, e.2 = some w) ∨ ∃ k ∈ x.finished, t.counts k.reg = true ∧ k.key = w
  among key ∧ ∀ w, among w → key.toNat ≤ w.toNat

/-- The buffered lines of a task lie in device memory, one frame byte for each, without overlap. -/
structure Buffered (s : State) (uid : Nat) (phys : SsbLine → Nat) : Prop where
  there : ∀ x ∈ s.ssbOf uid, ∃ p g, x.loc = .dram p g ∧ ∀ j, j < 64 → s.physOf p (g + j) = some (phys x + j) ∧ (s.part p).windowAt (g + j) = none
  bytes : ∀ x ∈ s.ssbOf uid, (∀ b ∈ x.bytes, b.1 < 64) ∧ (x.bytes.map fun b => b.1).Nodup
  apart : (s.ssbOf uid).Pairwise fun x y => phys x + 64 ≤ phys y ∨ phys y + 64 ≤ phys x

/-- The homes of a task's buffered lines grant the writes of a commit, one after the other (22 R405). -/
def LinesGranted (s : State) (uid : Nat) : Prop :=
  ∃ st : Nat → State, st 0 = s ∧ ∀ i x, (s.ssbOf uid)[i]? = some x → (st i).agentHome x.loc true = .granted (st (i + 1))

/-- The buffered bytes of a task stand in device memory, every other byte is the old one, and its buffer is empty. -/
def Applied (s t : State) (uid : Nat) (phys : SsbLine → Nat) : Prop :=
  (∀ x ∈ s.ssbOf uid, ∀ b ∈ x.bytes, t.mem.read (phys x + b.1) = b.2) ∧
  (∀ a, (∀ x ∈ s.ssbOf uid, ∀ b ∈ x.bytes, a ≠ phys x + b.1) → t.mem.read a = s.mem.read a) ∧
  t.ssbOf uid = [] ∧ t.hostMem = s.hostMem

end Sys2Proof.Claims

/-- R311: a report gives its die's smallest unfinished key, and the sequencer names as holder the only task that has the summit as its key; a
holder whose key is still the summit stays, and with nothing unfinished there is none. -/
def Sys2Proof.Claims.SummitNamesTheHolder : Prop :=
  ∀ (die p c : Nat) (s : State), (s.part p).vacant = false → (s.part p).resident = c → (s.part p).sweep = none →
    (∀ k, s.holderTask p c = some k → k.irrevocable = false) →
    UnitStep (exec (.summitReport die p c) s) s fun t =>
      let keys := (s.dieInstances p c die).map fun x => x.2.2
      let k := (t.ctxState p c).reports.getD die none
      (k = none ↔ keys = []) ∧ (∀ w, k = some w → w ∈ keys ∧ ∀ v ∈ keys, w.toNat ≤ v.toNat) ∧
      (∀ d, d ≠ die → (t.ctxState p c).reports.get? d = (s.ctxState p c).reports.get? d) ∧
      (t.ctxState p c).cseq = (s.ctxState p c).cseq ∧
      (∀ key, IsSummit t p c key →
        (s.holderKey p c = some key → (t.ctxState p c).holder = (s.ctxState p c).holder) ∧
        (s.holderKey p c ≠ some key → ∀ h, s.withKey p c key = [h] → (t.ctxState p c).holder = some h)) ∧
      ((∀ key, ¬ IsSummit t p c key) → (t.ctxState p c).holder = none)

/-- R312, R316, R37, R405: the finished summit holder commits: when the homes grant its lines, its buffered bytes stand in memory, its buffer, its
holdership and its place in the commit queue are free, the sequence number is one higher, and its registration counts the exit; a line that stage 2
refuses makes the commit unit wait for the host (log 69). A holder that stalls becomes irrevocable: its buffered bytes stand in memory, the keys of
its children count from then on, and it goes on at its instruction with its registers. Anything else does nothing. R313, R314: a commit aborts an
ordered task that has read a committed line and whose key is not below: it leaves its context and starts again from its header, with the line recorded
on equal keys. -/
def Sys2Proof.Claims.CommitsApplyTheBuffers : Prop :=
  ∀ (p c : Nat) (s : State) (k : Task) (phys : SsbLine → Nat), s.nameHolder p c = s → (s.part p).vacant = false →
    (s.part p).resident = c → (s.part p).sweep = none → Buffered s k.uid phys → Canonical s → s.faults = [] → k.part = p → k.ctx = c →
    let x := s.ctxState p c
    let plain (r : Registration) : Prop := x.holder = some (k.reg, k.idx) ∧ x.finished = [k] ∧ k.pubs = [] ∧
      (∀ b ∈ (s.part p).bindings, b.reg ≠ k.reg) ∧ (∀ r ∈ s.regs, r.spawner ≠ some k.uid) ∧ s.reg? k.reg = some r ∧ r.hdr.succ = []
    let alone : Prop := ∀ q ∈ s.allTasks, q.cls = .ordered → q.uid = k.uid
    (∀ (r : Registration) (y : SsbLine) (ys : List SsbLine) (g n : Nat), plain r → s.ssbOf k.uid = y :: ys → s.agentHome y.loc true = .fault g n →
      ∃ t : State, exec (.commit p c) s = .next t ∧ t.mem = s.mem ∧ (t.ctxState p c).finished = [k] ∧ t.ssbOf k.uid = s.ssbOf k.uid ∧
        ∃ f ∈ t.faults, f.waiters = [.commit p c] ∧ f.stage2 = true ∧ f.page = g / 2 ^ 16) ∧
    (∀ r, plain r → LinesGranted s k.uid → alone →
      ∃ t : State, exec (.commit p c) s = .next t ∧ t.cur.regs = s.cur.regs ∧ Applied s t k.uid phys ∧
        (t.ctxState p c).cseq = x.cseq + 1 ∧ (t.ctxState p c).holder = none ∧ (t.ctxState p c).finished = [] ∧
        (r.live ≤ 1 → ∀ y ∈ t.regs, y.id ≠ k.reg) ∧ (1 < r.live → ∃ y ∈ t.regs, y.id = k.reg ∧ y.live + 1 = r.live)) ∧
    (x.holder = some (k.reg, k.idx) → s.holderTask p c = some k → s.cur.task = some k → s.cur.wait = .summit → k.uid ∈ x.stalled →
      k.irrevocable = false → LinesGranted s k.uid → alone →
      ∃ t : State, exec (.irrevocableCommit p c) s = .next t ∧ Applied s t k.uid phys ∧ t.cur.regs = s.cur.regs ∧ t.cur.wait = .ready ∧
        t.cur.task = some { k with irrevocable := true } ∧ (t.ctxState p c).cseq = x.cseq + 1 ∧ k.uid ∉ (t.ctxState p c).stalled ∧
        ∀ y ∈ t.regs, y.spawner ≠ some k.uid) ∧
    (x.holder = none → exec (.commit p c) s = .next s ∧ exec (.irrevocableCommit p c) s = .next s) ∧
    (∀ (r rq : Registration) (q : Task) (line : SsbLine), plain r → LinesGranted s k.uid → s.cur.task = some q → s.cur.id.kind = .barrel → q.cls = .ordered →
      q.part = p → q.ctx = c → q.uid ≠ k.uid → q.reg ≠ k.reg → q.irrevocable = false → k.key.toNat ≤ q.key.toNat → s.ssbOf k.uid = [line] →
      sigHits q.sig (s.sigLine line.loc) = true → (∀ z ∈ s.allTasks, z.cls = .ordered → z = q ∨ z = k) → s.reg? q.reg = some rq →
      (∀ y ∈ s.regs, y.spawner ≠ some q.uid) → rq.hdr.tiles = [] → (s.part rq.part).clustersOnDie (s.homeDie rq.part rq.gpa) ≠ [] →
      ∃ t : State, exec (.commit p c) s = .next t ∧ Gone t s.cur.id ∧ t.cur.regs = s.cur.regs ∧
        Queued t q.reg q.idx (rq.hdr.ctrl.toNat / 4 % 8)
          (if q.key = k.key then some (BitVec.ofNat 64 (s.sigLine line.loc * 64)) else none))

namespace Sys2Proof.Claims

/-! ### Accesses in flight, walks, engines -/

/-- It is the running thread's turn at the home of a location: no engine request holds the line, and no other thread's instruction has
its turn there (07 R151, 08 R201). -/
def TurnHere (s : State) (l : Loc) : Prop :=
  s.lineHeldAt l = false ∧ ∀ p g, l = .dram p g → ∀ th ∈ s.others, th.wait = .ready → th.arrivedAt ≠ some (p, g / 64)

/-- R128, R151, R201, R319, R405: an access in flight that its memory controller grants completes as at issue: a direct or acquire load
writes its register from the bytes there, a store of a free task stands in memory; an instruction that waits at a home is issued again and has its
turn there; nothing happens where nothing waits, and while an engine request holds the line or another thread has its turn there the
thread goes on waiting; an invalidation on its way takes the line, of device memory or of the host, out of its die's cache, and the home
clears its directory bit for that die. -/
def AccessesRetire : Prop :=
  (∀ (s u : State) (a : Access) (l : Loc), s.cur.wait = .access a l → NotOrdered s → s.elsewhere l = none → Backed s l →
    TurnHere s l → State.refill { s with cur := { s.cur with wait := .ready } } l a.op.writes (decide (a.order = .stream) && !a.op.writes) = .granted u →
    Canonical s → l.offset % a.op.size = 0 →
    (∀ k d, a.op = .load k d → a.order = .direct ∨ a.order = .acqRel → s.poisonedAt l (ldSize k) = false →
      ∃ (v : Word) (t : State), exec (.memoryAccessRetire s.cur.id) s = .next t ∧ LoadValue k (s.bytesAt l (ldSize k)) v ∧
        GivesG s t d v ∧ (∀ r, t.x r = s.x r) ∧ t.pc = s.pc + word a.len ∧ t.cur.wait = .ready ∧ SameBytes s t) ∧
    (∀ k v, a.op = .store k v → ∃ t : State, exec (.memoryAccessRetire s.cur.id) s = .next t ∧ SameRegs s t (s.pc + word a.len) ∧
      t.cur.wait = .ready ∧ Stored s t l (stSize k) v.toNat)) ∧
  (∀ (s : State) (l : Loc), s.cur.wait = .home l → TurnHere s l → exec (.memoryAccessRetire s.cur.id) s =
    .next { s with cur := { s.cur with wait := .ready, mid := true, turn := s.cur.arrivedAt } }) ∧
  (∀ (s : State), (∀ a l, s.cur.wait ≠ .access a l) → (∀ l, s.cur.wait ≠ .home l) → exec (.memoryAccessRetire s.cur.id) s = .next s) ∧
  (∀ (s : State) (a : Access) (l : Loc), s.cur.wait = .access a l ∨ s.cur.wait = .home l → ¬ TurnHere s l →
    (∀ th ∈ s.others, th.id ≠ s.cur.id) →
    UnitStep (exec (.memoryAccessRetire s.cur.id) s) s fun t =>
      Move.unit .retire (coreKindCode s.cur.id.kind) s.cur.id.unit s.cur.id.slot ∈ t.agenda) ∧
  (∀ (s : State) (die : Nat) (i : RdcInv) (rest : List RdcInv), (s.die die).rdcInv = i :: rest →
    UnitStep (exec (.rdcInvalidate die) s) s fun t =>
      (∀ x, x ∈ (t.die die).rdcInv ↔ x ∈ (s.die die).rdcInv ∧ ¬ (x.vmid = i.vmid ∧ x.line = i.line)) ∧
      (∀ c, c ∈ (t.die die).rdc ↔ c ∈ (s.die die).rdc ∧ ¬ (c.vmid = i.vmid ∧ c.line = i.line)) ∧
      ∀ e, e ∈ (t.die i.home).dirBits ↔ e ∈ (s.die i.home).dirBits ∧ e ≠ (i.vmid, i.line, die)) ∧
  (∀ (s : State) (die n w : Nat) (rest : List (Nat × Nat)), (s.die die).hostInv = (n, w) :: rest →
    UnitStep (exec (.rdcInvalidate die) s) s fun t => (t.die die).hostInv = rest ∧ (∀ c ∈ (t.die die).hostLines, c.line ≠ n) ∧
      ∀ c ∈ (s.die die).hostLines, c.line ≠ n → c ∈ (t.die die).hostLines) ∧
  (∀ (s : State) (die : Nat), (s.die die).rdcInv = [] → (s.die die).hostInv = [] →
    UnitStep (exec (.rdcInvalidate die) s) s fun t => t.die die = s.die die)

/-- R402, R403, R407: a walk of the running thread that ends at a leaf that permits the access sets `A`, and `D` for a store, in the leaf, fills
the TLB with the page, and the thread goes on at its instruction; a leaf that does not permit it, and no leaf, drop the thread for fault
service under a token; an access that a view range bars (a store, or any access of a memory core) sets `A` alone, whatever the leaf permits,
and traps when it is made again (05 R129; log 26). -/
def WalksEnd : Prop :=
  ∀ (s : State) (w : Walk), (s.walks.find? fun x => x.id == w.id) = some w → w.who = .thread s.cur.id → s.hostPasid = none →
    w.tlb < 512 → (s.cluster w.tlb).walkCache = [] → (s.cluster w.tlb).shots = [] → w.part = s.curPart → s.faults = [] →
    s.cur.wait = .walk w.id →
    let viewed (e : Word) (b : Nat) : Prop :=
      (w.acc = 1 ∨ s.cur.id.kind = .memory) ∧ ((s.part w.part).windowAt (s.selected w.part (leafGpa e b w.va))).isSome = true
    let again : Thread := { s.cur with wait := .ready, mid := true }
    (∀ e at_ b, s.walkRoot w.part w.ctx w.va = .leaf e at_ b → leafAllows e w.acc w.user = true ∨ viewed e b → Canonical s →
      (∃ a, ∀ j, j < 8 → s.physOf w.part (at_ + j) = some (a + j) ∧ (s.part w.part).windowAt (at_ + j) = none) →
      (∃ u, s.agentHome (.dram w.part at_) true = .granted u) →
      ∃ t : State, exec (.walkComplete w.id) s = .next t ∧ t.cur = again ∧
        (∀ x ∈ t.walks, x.id ≠ w.id) ∧
        (viewed e b → t.readD w.part at_ = e ||| 0x80) ∧
        (¬ viewed e b → t.readD w.part at_ = e ||| 0x80 ||| (if w.acc = 1 then 0x100 else 0)) ∧
        ∃ x ∈ (t.cluster w.tlb).tlb, x.vmid = (s.part w.part).vmid ∧ x.va = w.va.toNat / 2 ^ b * 2 ^ b ∧ x.bits = b ∧
          x.gpaOf w.va = leafGpa e b w.va ∧ x.r = e.getLsbD 2 ∧ x.w = e.getLsbD 3 ∧ x.x = e.getLsbD 4 ∧ x.u = e.getLsbD 5) ∧
    (∀ reason level, s.walkRoot w.part w.ctx w.va = .fault reason level →
      ∃ (t : State) (token : Word), exec (.walkComplete w.id) s = .next t ∧ t.cur = { s.cur with wait := .fault token w.trap } ∧
        ∃ f ∈ t.faults, f.token = token ∧ f.part = w.part ∧ f.ctx = w.ctx ∧ f.page = w.va.toNat / 2 ^ 16 ∧ f.stage2 = false ∧
          f.waiters = [.thread s.cur.id]) ∧
    (∀ e at_ b, s.walkRoot w.part w.ctx w.va = .leaf e at_ b → leafAllows e w.acc w.user = false → ¬ viewed e b →
      ∃ (t : State) (token : Word), exec (.walkComplete w.id) s = .next t ∧ t.cur = { s.cur with wait := .fault token w.trap })

/-- An address of a request is located for it, outside every view range and with its home's leave, or in a scratchpad where its context is
resident; u is s with the line used in its L2 slice. -/
def EngineAt (s u : State) (q : Req) (va : Word) (write : Bool) (l : Loc) : Prop :=
  s.agentView q.part q.ctx q.cl q.tlb va = false ∧
  s.agentLocate q.part q.ctx q.cl q.tlb va (if write then 1 else 0) q.user = .at l s ∧
  (match l with
    | .dram _ _ => s.agentHome l write q.id = .granted u
    | _ => s.elsewhereOf q.part q.ctx none l = none ∧ u = s)

/-- n bytes at a location of device memory lie together at a physical address, outside every view range. -/
def Lies (s : State) (l : Loc) (n a : Nat) : Prop := ∃ p g, l = .dram p g ∧ ∀ j, j < n → s.physOf p (g + j) = some (a + j) ∧ (s.part p).windowAt (g + j) = none

/-- A step of a unit that leaves the running thread as it is. -/
def Quiet (o : Out) (s : State) (post : State → Prop) : Prop := ∃ t : State, o = .next t ∧ t.cur = s.cur ∧ post t

/-- The request delivers n bytes: they stand at the destination, no other byte changes, and its counts move on; after the last it ends. -/
def Delivers (o : Out) (s : State) (q : Req) (bs : List Byte) (a n : Nat) (last : Bool) : Prop :=
  Quiet o s fun t => (∀ x, t.mem.read x = if a ≤ x ∧ x < a + n then bs.getD (x - a) 0 else s.mem.read x) ∧ t.hostMem = s.hostMem ∧
    (∃ y, t.req? q.id = some y ∧ y.pos = q.pos + 1 ∧ y.done = q.done + n ∧ y.stage = (if last then 1 else 0) ∧ y.endKind = none) ∧
    Move.unit (if last then .engineDone else .lineDeliver) q.id 0 0 ∈ t.agenda

/-- The request ends early, with a kind and a faulting address, and moves nothing. -/
def EndsWith (o : Out) (s : State) (q : Req) (kind : Nat) (faddr : Word) : Prop :=
  UnitStep o s fun t => ∃ y, t.req? q.id = some y ∧ y.endKind = some kind ∧ y.faddr = faddr ∧ y.done = q.done ∧ y.stage = 1

/-- A request that delivers now: no umbra, no write pointer, no parent, nothing awaited and nothing read ahead; no request has written
ahead. -/
structure Delivering (s : State) (q : Req) (kind : ReqKind) : Prop where
  there : s.req? q.id = some q
  kind  : q.kind = kind
  stage : q.stage = 0
  free  : q.token = none ∧ q.belay = false ∧ q.waits = false ∧ q.ahead = [] ∧ q.parent = none ∧ q.umbra = none ∧ q.endKind = none ∧ q.aborted = false
  others : ∀ x ∈ s.reqs, ∀ a ∈ x.ahead, a.dst = none
  block : q.blk.length = 8
  wpe   : (bd q.blk 5).getLsbD 3 = false

/-- The address of the line that a `COPY` moves next: base, stride field. -/
def copyVa (q : Req) (base stride : Nat) : Word :=
  let per := (bd q.blk 3).toNat / 2 ^ 32 / 64
  bd q.blk base + BitVec.ofInt 64 (signedOf ((bd q.blk 2).toNat / 2 ^ stride % 2 ^ 32) 32 * ((q.pos / per : Nat) : Int)) +
    BitVec.ofNat 64 (q.pos % per * 64)

/-- R202, R203, R206, R207, R215, R322: a `COPY` moves its next line, in row order, a `GATHER` the element that its next index names, an `RCOPY` sends
its next line, with its poison, to the peer, and after the last one waits for the peer's answer; a poisoned source ends the request with 0x10 unless
`RAW` is set; a misaligned element ends a `GATHER` with 0x02; a `COPYP` starts its loader program on its memory core with the block's address in `g1`,
or ends with 0x06 where none is registered. When the peer answers, and whether it refuses a range without a publication, is free (log 20). -/
def EnginesDeliver : Prop :=
  ∀ (s u v : State) (q : Req), Canonical s → s.faults = [] →
    (Delivering s q .copy → ∀ (l m : Loc) (a : Nat), EngineAt s u q (copyVa q 0 0) false l → 64 ≤ (bd q.blk 3).toNat / 2 ^ 32 →
      ((bd q.blk 5).getLsbD 0 = true ∨ s.poisonedAt l 64 = false → EngineAt u v q (copyVa q 1 32) true m → Lies s m 64 a →
        Delivers (exec (.engineLineDeliver q.id) s) s q (s.bytesAt l 64) a 64
          (decide ((bd q.blk 3).toNat % 2 ^ 32 * ((bd q.blk 3).toNat / 2 ^ 32 / 64) ≤ q.pos + 1))) ∧
      ((bd q.blk 5).getLsbD 0 = false → s.poisonedAt l 64 = true →
        EndsWith (exec (.engineLineDeliver q.id) s) s q 0x10 (copyVa q 0 0))) ∧
    (Delivering s q .gather → ∀ (i l : Loc) (c o : Nat),
      let isz := if (bd q.blk 5).getLsbD 11 then 8 else 4
      let n := (bd q.blk 3).toNat / 2 ^ 32
      let iva := bd q.blk 0 + BitVec.ofNat 64 (q.pos * isz)
      let raw := leNat (s.bytesAt i isz)
      let index : Word := if (bd q.blk 5).getLsbD 12 then BitVec.ofInt 64 (signedOf raw (8 * isz)) else BitVec.ofNat 64 raw
      let va := bd q.blk 1 + index * BitVec.ofNat 64 n
      n ≠ 0 → iva.toNat % isz = 0 → EngineAt s u q iva false i → s.poisonedAt i isz = false →
      (va.toNat % n ≠ 0 → EndsWith (exec (.engineLineDeliver q.id) s) s q 0x02 va) ∧
      (va.toNat % n = 0 → EngineAt u v q va false l → s.poisonedAt l n = false →
        s.place q.part q.cl (bd q.blk 2 + BitVec.ofNat 64 (q.pos * n)) = .at (.scratch c o) →
        s.elsewhereOf q.part q.ctx none (.scratch c o) = none →
        ∃ t : State, exec (.engineLineDeliver q.id) s = .next t ∧ t.cur = s.cur ∧ t.mem = s.mem ∧
          (∀ x, (t.cluster c).scratch.read x =
            if o ≤ x ∧ x < o + n then (s.bytesAt l n).getD (x - o) 0 else (s.cluster c).scratch.read x) ∧
          ∃ y, t.req? q.id = some y ∧ y.pos = q.pos + 1 ∧ y.done = q.done + n ∧
            y.stage = (if (bd q.blk 3).toNat % 2 ^ 32 ≤ q.pos + 1 then 1 else 0))) ∧
    (Delivering s q .rcopy → ∀ (l : Loc), EngineAt s u q (bd q.blk 0 + BitVec.ofNat 64 (64 * q.pos)) false l →
      q.pos < (bd q.blk 2).toNat / 64 →
      ((bd q.blk 5).getLsbD 0 = true ∨ s.poisonedAt l 64 = false →
        UnitStep (exec (.engineLineDeliver q.id) s) s fun t =>
          t.sent = s.sent ++ [.rcopy q.peer (bd q.blk 1 + BitVec.ofNat 64 (64 * q.pos)) (s.bytesAt l 64)
            ((List.range 8).map fun k => s.dwordPoisoned (l.shift (8 * k))) (bd q.blk 3) ((bd q.blk 5).getLsbD 10) (bd q.blk 2).toNat] ∧
          ∃ y, t.req? q.id = some y ∧ y.pos = q.pos + 1 ∧ y.done = q.done + 64 ∧ y.stage = 0) ∧
      ((bd q.blk 5).getLsbD 0 = false → s.poisonedAt l 64 = true →
        EndsWith (exec (.engineLineDeliver q.id) s) s q 0x10 (bd q.blk 0 + BitVec.ofNat 64 (64 * q.pos)))) ∧
    (Delivering s q .rcopy → (bd q.blk 2).toNat / 64 ≤ q.pos →
      UnitStep (exec (.engineLineDeliver q.id) s) s fun t => t.sent = s.sent ∧ ∃ y, t.req? q.id = some y ∧
        ((y.stage = 0 ∧ y.done = q.done ∧ Move.unit .lineDeliver q.id 0 0 ∈ t.agenda) ∨
         (y.stage = 1 ∧ y.done = q.done ∧ y.endKind = none) ∨
         (y.stage = 1 ∧ y.done = 0 ∧ bd q.blk 3 = 0 ∧ y.endKind = some 0x03 ∧ y.faddr = bd q.blk 1))) ∧
    (Delivering s q .copyp → q.started = false →
      (q.entry = 0 → EndsWith (exec (.engineLineDeliver q.id) s) s q 0x06 0) ∧
      (q.entry ≠ 0 → (∀ th ∈ s.cur :: s.others, th.id.kind ≠ .memory) →
        UnitStep (exec (.engineLineDeliver q.id) s) s fun t => (∃ y, t.req? q.id = some y ∧ y.started = true ∧ y.stage = 0) ∧
          ∃ th ∈ t.others, th.id = { kind := .memory, unit := q.core, slot := 0 } ∧ th.wait = .ready ∧ th.regs.pc = q.entry ∧
            (∀ r : Reg, th.regs.readG r = if r = 1 then q.va else 0) ∧
            ∃ k, th.task = some k ∧ k.loader = some q.id ∧ k.part = q.part ∧ k.ctx = q.ctx ∧ k.cls = .free))

/-- The 64 bytes of a completion record stand at an address (08 R200). -/
def RecordAt (t : State) (a : Nat) (q : Req) (cref : Bool) : Prop :=
  t.mem.readNat a 8 = (q.endKind.getD 0) % 256 + q.sid % 256 * 2 ^ 16 + q.elem % 256 * 2 ^ 24 + (if cref then 2 ^ 32 else 0) ∧
  t.mem.readNat (a + 8) 8 = (if q.kind = .strm then 0 else q.done % 2 ^ 64) ∧
  t.mem.readNat (a + 0x10) 8 = (if q.endKind = none then 0 else q.faddr.toNat) ∧ t.mem.readNat (a + 0x18) 8 = q.va.toNat ∧
  ∀ i, i < 4 → t.mem.readNat (a + 0x20 + 8 * i) 8 = (if q.kind = .strm then (bd q.cnts i).toNat else 0)

/-- A request that has ended and has no write pointer, residency, umbra or parent. -/
structure Ending (s : State) (q : Req) : Prop where
  there  : s.req? q.id = some q
  ended  : q.stage = 1 ∧ q.token = none ∧ q.children = 0 ∧ q.waits = false
  plain  : q.parent = none ∧ q.umbra = none ∧ q.ordered = false ∧ q.aborted = false
  block  : q.blk.length = 8
  flags  : (bd q.blk 5).getLsbD 3 = false ∧ (bd q.blk 5).getLsbD 1 = false
  record : q.noRecord = false ∧ q.noAction = false ∧ q.recorded = false
  fabric : q.kind = .strm → s.streamFabric q.cl q.id = none ∧ s.streamSaved q.id = false

/-- The request is over. -/
def Closed (t : State) (q : Req) : Prop := ∀ x ∈ t.reqs, x.id ≠ q.id

/-- R200, R201: a request that has ended, and whose writes are acknowledged, writes its record, if it names one, then performs its completion action,
and is over: a rope loses the declared bytes, a future that is not resolved is resolved with the block's value, or poisoned with the record's status
or, without a record, with the kind; a future already resolved is left, and `CREF` is set. -/
def RequestsComplete : Prop :=
  ∀ (s u : State) (q : Req), Ending s q → Canonical s → s.faults = [] →
    let released := s.releasePrt q.id
    let acting := released.mapReq q.id fun x => { x with stage := 2 }
    let act := (bd q.blk 5).toNat / 2 ^ 8 % 4
    let rec_ := bd q.blk 4
    let va := bd q.blk 6
    (act = 0 → rec_ = 0 → UnitStep (exec (.engineComplete q.id) s) s fun t => Closed t q) ∧
    (act = 0 → rec_ ≠ 0 → ∀ m a, EngineAt released u q rec_ true m → Lies s m 64 a →
      ∃ t : State, exec (.engineComplete q.id) s = .next t ∧ t.cur = s.cur ∧ Closed t q ∧ RecordAt t a q false ∧
        ∀ x, x < a ∨ a + 64 ≤ x → t.mem.read x = s.mem.read x) ∧
    (act = 2 → rec_ = 0 → va.toNat % 8 = 0 → ∀ p g a, EngineAt acting u q va true (.dram p g) → Lies s (.dram p g) 8 a →
      (s.biv = [] → (s.part p).queues = [] → (s.readD p g).toNat / 2 ^ 62 < 2 →
        ∃ t : State, exec (.engineComplete q.id) s = .next t ∧ t.cur = s.cur ∧ Closed t q ∧
          (t.readD p g).toNat = (match q.endKind with
            | none => 2 * 2 ^ 62 + (bd q.blk 7).toNat % 2 ^ 62
            | some k => 3 * 2 ^ 62 + k % 2 ^ 62) ∧ ∀ x, x < a ∨ a + 8 ≤ x → t.mem.read x = s.mem.read x) ∧
      (2 ≤ (s.readD p g).toNat / 2 ^ 62 → ∃ t : State, exec (.engineComplete q.id) s = .next t ∧ t.cur = s.cur ∧ Closed t q ∧
        t.mem = s.mem)) ∧
    (act = 2 → rec_ ≠ 0 → va.toNat % 8 = 0 → ∀ (v : State) (m : Loc) (r p g a : Nat), EngineAt released u q rec_ true m → Lies s m 64 r →
      EngineAt (u.mapReq q.id fun x => { x with stage := 2 }) v q va true (.dram p g) → Lies s (.dram p g) 8 a → a + 8 ≤ r ∨ r + 64 ≤ a →
      (s.biv = [] → (s.part p).queues = [] → (s.readD p g).toNat / 2 ^ 62 < 2 →
        ∃ t : State, exec (.engineComplete q.id) s = .next t ∧ t.cur = s.cur ∧ Closed t q ∧ RecordAt t r q false ∧
          (t.readD p g).toNat = (match q.endKind with
            | none => 2 * 2 ^ 62 + (bd q.blk 7).toNat % 2 ^ 62
            | some k => 3 * 2 ^ 62 + (k % 256 + q.sid % 256 * 2 ^ 16 + q.elem % 256 * 2 ^ 24))) ∧
      (2 ≤ (s.readD p g).toNat / 2 ^ 62 → ∃ t : State, exec (.engineComplete q.id) s = .next t ∧ t.cur = s.cur ∧ Closed t q ∧
        RecordAt t r q true ∧ t.readD p g = s.readD p g)) ∧
    (act = 1 → rec_ = 0 → va.toNat % 16 = 0 → ∀ p g a, EngineAt acting u q va true (.dram p g) → Lies s (.dram p g) 16 a →
      let n := (match q.kind with
        | .copy => (bd q.blk 3).toNat % 2 ^ 32 * ((bd q.blk 3).toNat / 2 ^ 32)
        | .gather => (bd q.blk 3).toNat % 2 ^ 32 * ((bd q.blk 3).toNat / 2 ^ 32)
        | .rcopy => (bd q.blk 2).toNat
        | _ => (bd q.blk 7).toNat)
      n < 2 ^ 64 → ¬ brokenOf (s.readD p g) → n < (s.readD p (g + 8)).toNat →
        ∃ t : State, exec (.engineComplete q.id) s = .next t ∧ t.cur = s.cur ∧ Closed t q ∧
          (t.readD p (g + 8)).toNat + n = (s.readD p (g + 8)).toNat ∧ t.readD p g = s.readD p g ∧
          ∀ x, x < a ∨ a + 16 ≤ x → t.mem.read x = s.mem.read x)

/-- R213, R214: with no request of the umbra outstanding the waiting `PUBLISH` retires: the umbra is closed, and from then on an address in a
written chunk reaches its shadow, in any other chunk, and after a discard, its old backing; while a request is outstanding nothing happens. -/
def FlipsSwitchTheBacking : Prop :=
  ∀ (p u : Nat) (s : State) (k : Task) (discard : Bool) (x : Umbra), s.cur.task = some k → k.part = p → s.cur.wait = .flip u discard →
    (s.part p).umbras.find? (fun y => y.id == u) = some x → (s.part p).select = [] →
    (x.chunks.map fun c => c.gpa).Nodup → (∀ c ∈ x.chunks, ∀ d ∈ x.chunks, c.shadow ≠ d.gpa) →
    ((∃ q ∈ s.reqs, q.part = p ∧ q.umbra = some u) → exec (.publishFlip p u) s = .next s) ∧
    ((∀ q ∈ s.reqs, q.part = p → q.umbra ≠ some u) → ∃ t : State, exec (.publishFlip p u) s = .next t ∧ t.cur.wait = .ready ∧
      t.pc = s.pc + 4 ∧ t.mem = s.mem ∧ (∀ y ∈ (t.part p).umbras, y.id ≠ u) ∧
      ∀ c o : Nat, o < 2 ^ 16 →
        ((∀ y ∈ x.chunks, y.gpa = c → y.written = true → discard = false → t.selected p (c * 2 ^ 16 + o) = y.shadow * 2 ^ 16 + o)) ∧
        ((∀ y ∈ x.chunks, y.gpa = c → y.written = false ∨ discard = true) → t.selected p (c * 2 ^ 16 + o) = c * 2 ^ 16 + o))

end Sys2Proof.Claims

namespace Sys2Proof.Claims

/-! ### Fabrics: firing (11 R271 to R283) -/

/-- A port takes a token at a firing of a call-mode image. -/
def Takes (p : Pattern) (n : Nat) : Prop := p.port n = .arc ∨ ∃ j, p.port n = .arg j

/-- The token that a port supplies in call mode (11 R272). -/
def Supplies (g : Fabric) (p : Pattern) (e n : Nat) (t : Token) : Prop :=
  (Takes p n → (g.fifo e n).head? = some t) ∧
  (¬ Takes p n → t.gf = false ∧ t.dims = 0 ∧ t.eoi = false ∧ t.poi = false ∧ t.packet = 0 ∧ t.data = if p.port n = .const then p.const else 0)

/-- A port of the pattern takes a token. -/
def Fed (p : Pattern) : Prop := ∃ n, n < 3 ∧ Takes p n

/-- A configured element of a loaded call-mode image without inner controllers can fire: its operands are there and its output has room. -/
structure FireReady (g : Fabric) (i : Image) (p : Pattern) (e : Nat) : Prop where
  image : g.image = some i
  pat   : i.pat? e = some p
  mode  : i.call = true ∧ i.ctls = [] ∧ g.draining = false ∧ g.stream = none
  ports : ∀ n, n < 3 → Takes p n → g.fifo e n ≠ []
  room  : ∀ r ∈ i.routes, r.src = e → 80 ≤ r.dst ∨ (g.fifo r.dst r.port).length < 4
  ids   : ∀ r ∈ i.routes, r.port < 3

/-- Whether a pattern takes a token from a port. -/
def takes? (p : Pattern) (port : Nat) : Bool :=
  match p.port port with
  | .arc => true
  | .arg _ => true
  | _ => false

/-- The queues of the ports after a firing: an operand has left each port that takes one. -/
def takenFrom (g : Fabric) (p : Pattern) (e x port : Nat) : List Token :=
  if x = e ∧ takes? p port = true then (g.fifo x port).drop 1 else g.fifo x port

/-- A firing has put the token t at every destination of the element, and of every packet's results at the slots. -/
def Placed (g h : Fabric) (i : Image) (p : Pattern) (e : Nat) (t : Token) : Prop :=
  (∀ x port : Nat, x < 64 → port < 3 → h.fifo x port = takenFrom g p e x port ++
    ((i.routes.filter fun r => r.src == e && r.dst == x && r.port == port).map fun _ => t)) ∧
  h.packets = g.packets.map fun (q : Packet) => if q.id = t.packet then
    { q with results := q.results ++ ((i.routes.filter fun r => r.src == e && decide (80 ≤ r.dst)).map fun r => (r.dst - 80, t)) } else q

/-- A firing has taken its operands and put no token anywhere. -/
def OnlyTaken (g h : Fabric) (p : Pattern) (e : Nat) : Prop :=
  (∀ x port : Nat, x < 64 → port < 3 → h.fifo x port = takenFrom g p e x port) ∧ h.packets = g.packets

/-- A step changes only a fabric of a cluster, and what is due. -/
def OnFabric (o : Out) (s : State) (cl f : Nat) (post : Fabric → Prop) : Prop :=
  ∃ t : State, o = .next t ∧ t = { s with clusters := t.clusters, agenda := t.agenda } ∧ SameBytes s t ∧
    (∀ c n, c ≠ cl ∨ n ≠ f → t.fabric c n = s.fabric c n) ∧ post (t.fabric cl f)

/-- The marks that a result takes from three inputs (11 R274). -/
def Joined (a b c t : Token) : Prop :=
  t.dims = Nat.lor (Nat.lor a.dims b.dims) c.dims ∧ t.eoi = (a.eoi || b.eoi || c.eoi) ∧
  (∀ k, (a.packet = k ∨ b.packet = k ∨ c.packet = k) → (∀ x, x = a ∨ x = b ∨ x = c → x.packet = k ∨ x.packet = 0) → t.packet = k ∨ k = 0)

/-- The low half of a word. -/
def low32 (w : Word) : Word := BitVec.ofNat 64 (w.toNat % 2 ^ 32)

/-- One row of 11 R275 for the compute elements. -/
def elemRow (op : Nat) (A B C v : Word) : Prop :=
  let arith (f : FpFmt) (a b c : Word) (x : ℚ → ℚ → ℚ → ℚ) : Prop := ∀ n m k qa qb qc, IsNum f a n qa → IsNum f b m qb → IsNum f c k qc →
    x qa qb qc ≠ 0 → RoundsTo (specOf f) .rne (exactly (x qa qb qc)) v.toNat
  (op = 0x01 → v = A) ∧ (op = 0x02 → v.toNat = (A.toNat + B.toNat) % 2 ^ 64) ∧ (op = 0x03 → (v.toNat + B.toNat) % 2 ^ 64 = A.toNat) ∧
  (op = 0x04 → v.toNat = A.toNat * B.toNat % 2 ^ 64) ∧
  (op = 0x05 → ∀ i, i < 64 → v.getLsbD i = (A.getLsbD i && B.getLsbD i)) ∧
  (op = 0x06 → ∀ i, i < 64 → v.getLsbD i = (A.getLsbD i || B.getLsbD i)) ∧
  (op = 0x07 → ∀ i, i < 64 → v.getLsbD i = (A.getLsbD i != B.getLsbD i)) ∧
  (op = 0x08 → v.toNat = A.toNat * 2 ^ (B.toNat % 64) % 2 ^ 64) ∧ (op = 0x09 → v.toNat = A.toNat / 2 ^ (B.toNat % 64)) ∧
  (op = 0x0A → v.toInt = A.toInt / 2 ^ (B.toNat % 64)) ∧ (op = 0x0B → v.toInt = min A.toInt B.toInt) ∧
  (op = 0x0C → v.toInt = max A.toInt B.toInt) ∧ (op = 0x0D → v = if A = B then 1 else 0) ∧
  (op = 0x0E → v = if A.toInt < B.toInt then 1 else 0) ∧ (op = 0x0F → v = if A.toNat < B.toNat then 1 else 0) ∧
  (op = 0x10 → arith .f32 (low32 A) (low32 B) 0 fun a b _ => a + b) ∧ (op = 0x11 → arith .f32 (low32 A) (low32 B) 0 fun a b _ => a * b) ∧
  (op = 0x12 → arith .f32 (low32 A) (low32 B) (low32 C) fun a b c => a * b + c) ∧
  (op = 0x13 → arith .f64 A B 0 fun a b _ => a + b) ∧ (op = 0x14 → arith .f64 A B 0 fun a b _ => a * b) ∧
  (op = 0x15 → arith .f64 A B C fun a b c => a * b + c) ∧
  (op = 0x16 → ∀ n m qa qb, IsNum .f32 (low32 A) n qa → IsNum .f32 (low32 B) m qb → qa < qb → v = low32 A) ∧
  (op = 0x17 → ∀ n m qa qb, IsNum .f32 (low32 A) n qa → IsNum .f32 (low32 B) m qb → qa < qb → v = low32 B) ∧
  (op = 0x18 → ∀ n q, IsNum .f32 (low32 A) n q → IsNum .f64 v n q) ∧
  (op = 0x19 → ∀ n q, IsNum .f64 A n q → q ≠ 0 → RoundsTo (specOf .f32) .rne (exactly q) v.toNat) ∧
  (op = 0x1A → v = (philox A B C).1) ∧
  (op = 0x1B → RoundsTo (specOf .f64) .rz (exactly ((2 * (A.toNat / 2 ^ 11 : Nat) + 1) * (2 : ℚ) ^ (-54 : Int))) v.toNat)

/-- R271 to R278, R281 to R283: an element that can fire takes the heads of its ports and puts one result token at every destination: the
row's value for a compute element, the chosen arm with its guard for a switch element, the table's entry for a table element; a poisoned input gives a
poisoned token with the largest kind. An accumulator folds its operand into its register and emits it on its mark. A memory element's access and a delay
element's token join its queue. An element with an empty port does not fire. -/
def ElementsFire : Prop :=
  ∀ (cl f e : Nat) (s : State) (i : Image) (p : Pattern) (a b c : Token), FireReady (s.fabric cl f) i p e → Fed p → e < 64 →
    Supplies (s.fabric cl f) p e 0 a → Supplies (s.fabric cl f) p e 1 b → Supplies (s.fabric cl f) p e 2 c →
    let g := s.fabric cl f
    let o := exec (.elementFire cl f e) s
    let clean : Prop := a.poi = false ∧ b.poi = false ∧ c.poi = false
    let compute : Prop := elemKind e = .ce32 ∨ elemKind e = .ce64
    (compute → p.acc = false → clean → p.op ≠ 0 → p.op ≤ 0x1B → OnFabric o s cl f fun h => ∃ t : Token, Placed g h i p e t ∧ t.poi = false ∧
      Joined a b c t ∧ t.gf = (a.gf || b.gf || c.gf) ∧ elemRow p.op a.data b.data c.data t.data) ∧
    (elemKind e = .sge → p.acc = false → clean → OnFabric o s cl f fun h => ∃ t : Token, Placed g h i p e t ∧ t.poi = false ∧ Joined a b c t ∧
      (p.op = 0x01 → t.data = a.data) ∧
      (p.op = 0x30 → if c.data = 0 then t.data = b.data ∧ t.gf = b.gf else t.data = a.data ∧ t.gf = a.gf) ∧
      (p.op = 0x31 → t.data = a.data ∧ t.gf = (a.gf || decide (b.data = 0))) ∧
      (p.op = 0x32 → if a.gf = false then t.data = a.data ∧ t.gf = false else t.data = b.data ∧ t.gf = b.gf)) ∧
    (elemKind e = .te → p.acc = false → clean → OnFabric o s cl f fun h => ∃ t : Token, Placed g h i p e t ∧ Joined a b c t ∧
      let table := g.tables.getD e []
      (p.aux = 0 → t.data.toNat = table.readNat (8 * (a.data.toNat % 2 ^ 9)) 8) ∧
      (p.aux = 1 → p.sx = false → t.data.toNat = table.readNat (4 * (a.data.toNat % 2 ^ 10)) 4) ∧
      (p.aux = 1 → p.sx = true → t.data.toInt = signedOf (table.readNat (4 * (a.data.toNat % 2 ^ 10)) 4) 32)) ∧
    (compute ∨ elemKind e = .sge ∨ elemKind e = .te → p.acc = false → ¬ clean → OnFabric o s cl f fun h => ∃ t : Token, Placed g h i p e t ∧
      t.poi = true ∧ Joined a b c t ∧ (∃ x, (x = a ∨ x = b ∨ x = c) ∧ x.poi = true ∧ t.data = x.data) ∧
      ∀ x, x = a ∨ x = b ∨ x = c → x.poi = true → x.data.toNat ≤ t.data.toNat) ∧
    (compute → p.acc = true → p.op ≠ 0x12 → p.op ≠ 0x15 → a.poi = false → b.poi = false → ∀ r, g.accs.getD e (p.const, false) = (r, false) →
      ∃ v : Word, elemRow p.op a.data r 0 v ∧
        (a.dims.testBit (p.aux % 4) = false → a.eoi = false → OnFabric o s cl f fun h => OnlyTaken g h p e ∧ h.accs.getD e (p.const, false) = (v, false)) ∧
        (a.dims.testBit (p.aux % 4) = true ∨ a.eoi = true → OnFabric o s cl f fun h =>
          Placed g h i p e { a with data := v, its := mergeIts a.its b.its } ∧ h.accs.getD e (p.const, false) = (p.const, false))) ∧
    (compute → p.acc = true → p.op = 0x12 ∨ p.op = 0x15 → a.poi = false → b.poi = false → ∀ r, g.accs.getD e (p.const, false) = (r, false) →
      a.dims.testBit (p.aux % 4) = false → a.eoi = false →
      OnFabric o s cl f fun h => OnlyTaken g h p e ∧ ∃ v : Word, h.accs.getD e (p.const, false) = (v, false) ∧ elemRow p.op a.data b.data r v) ∧
    (elemKind e = .age → (g.ages.filter fun x => x.elem == e).length < 16 → OnFabric o s cl f fun h => OnlyTaken g h p e ∧
      ∃ x : AgeAccess, h.ages = g.ages ++ [x] ∧ x.elem = e ∧ x.store = decide (0x42 ≤ p.op) ∧ x.value = c.data ∧ x.sx = p.sx ∧ x.fired = s.tick ∧ x.queued = false ∧
        x.lsz = (if p.op = 0x40 ∨ p.op = 0x42 then 2 else 3) ∧ Joined a b c x.tok ∧
        let va := (a.data.toNat + b.data.toNat * p.aux) % 2 ^ 64
        (p.aux < 2 ^ 64 → x.va.toNat = va / 2 ^ x.lsz * 2 ^ x.lsz)) ∧
    (elemKind e = .de → (g.delays.getD e []).length < 32 → OnFabric o s cl f fun h => OnlyTaken g h p e ∧
      h.delays.getD e [] = g.delays.getD e [] ++ [a]) ∧
    ∀ (x : Nat) (q : Pattern) (n : Nat), i.pat? x = some q → n < 3 → Takes q n → g.fifo x n = [] → exec (.elementFire cl f x) s = .next s

/-- R271, R272, R273: a compute element of a call-mode image whose ports are all constant or unused fires once for each packet that has
entered, in their order, with that packet's mark (log 74). -/
def ConstantElementsFire : Prop :=
  ∀ (cl f e : Nat) (s : State) (i : Image) (p : Pattern) (a b c : Token), FireReady (s.fabric cl f) i p e → ¬ Fed p → e < 64 →
    Supplies (s.fabric cl f) p e 0 a → Supplies (s.fabric cl f) p e 1 b → Supplies (s.fabric cl f) p e 2 c →
    let g := s.fabric cl f
    let due (y : Packet) : Bool := y.entered && y.free.contains e
    (∀ q, g.packets.find? due = some q → elemKind e = .ce32 ∨ elemKind e = .ce64 → p.acc = false → p.op ≠ 0 → p.op ≤ 0x1B →
      OnFabric (exec (.elementFire cl f e) s) s cl f fun h => ∃ t : Token, t.packet = q.id ∧ t.poi = false ∧ t.gf = false ∧
        elemRow p.op a.data b.data c.data t.data ∧ (∀ y ∈ h.packets, y.id = q.id → e ∉ y.free) ∧
        ∀ x port : Nat, x < 64 → port < 3 → h.fifo x port = g.fifo x port ++
          ((i.routes.filter fun r => r.src == e && r.dst == x && r.port == port).map fun _ => t)) ∧
    (g.packets.find? due = none → exec (.elementFire cl f e) s = .next s)

/-- No element of the fabric's stream had passed `EOI` before a restart (08 R210). -/
def NoneOver (g : Fabric) : Prop := ∀ y, g.stream = some y → y.ended = []

/-- R279, R280, R282, R283, R192: the oldest access of a memory element of a call is made for its caller when the element's output has room: a load
gives its bytes as the result token, a store stands in memory and gives a token of 0; a store under a guard, and any access of a poisoned token, is
not made; an address that can never be reached poisons the token with kind 3 and is recorded for the packet; the oldest token of a delay element moves
on. -/
def ElementsComplete : Prop :=
  (∀ (cl f e : Nat) (s u : State) (i : Image) (x : AgeAccess) (rest : List AgeAccess) (q : Packet) (k : Task),
    let g := s.fabric cl f
    g.image = some i → i.call = true → g.stream = none → g.draining = false → g.ages = x :: rest → x.elem = e → x.waits = none → x.queued = false → e < 64 →
    (∀ r ∈ i.routes, r.src = e → r.dst < 64 ∧ (g.fifo r.dst r.port).length < 4) → (∀ r ∈ i.routes, r.port < 3) →
    (g.packets.find? fun p => p.id == x.tok.packet) = some q → q.t = s.cur.id → s.cur.task = some k → k.uid = q.uid → q.fault = none →
    x.lsz = 2 ∨ x.lsz = 3 → s.speculative = false → Warm s → k.host = none → s.cur.id.kind = .barrel → s.curCluster = cl →
    let o := exec (.ageAccessComplete cl f e) s
    let n := 2 ^ x.lsz
    let emits (h : Fabric) (t : Token) : Prop := h.ages = rest ∧ ∀ d port : Nat, d < 64 → port < 3 → h.fifo d port = g.fifo d port ++
      ((i.routes.filter fun r => r.src == e && r.dst == d && r.port == port).map fun _ => t)
    (x.tok.poi = true → OnFabric o s cl f fun h => emits h x.tok) ∧
    (x.tok.poi = false → x.store = true → x.tok.gf = true → OnFabric o s cl f fun h => emits h { x.tok with data := 0 }) ∧
    (x.tok.poi = false → x.store = false → ∀ y l, s.place k.part cl x.va = .paged → s.ageFatal k.part cl (s.quietGpa k.part k.ctx x.va) x = none →
      (s.tlbHit cl none false k.part (s.asid k.part k.ctx) x.va.toNat = some y ∧ y.r = true ∧ (s.mode = 0 → y.u = true)) →
      l = .dram k.part (s.selected k.part (y.gpaOf x.va)) → l.offset % 8 = 0 → s.cachedLine cl l = none → s.agentHome l false = .granted u → s.poisonedAt l n = false →
      ∃ (t : State) (v : Word), o = .next t ∧ t.cur = s.cur ∧ SameBytes s t ∧ emits (t.fabric cl f) { x.tok with data := v } ∧
        (x.lsz = 3 ∨ x.sx = false → v.toNat = leNat (s.bytesAt l n)) ∧
        (x.lsz = 2 → x.sx = true → v.toInt = signedOf (leNat (s.bytesAt l n)) 32)) ∧
    (x.tok.poi = false → x.tok.gf = false → x.store = true → ∀ y p h, s.place k.part cl x.va = .paged → s.ageFatal k.part cl (s.quietGpa k.part k.ctx x.va) x = none →
      (s.tlbHit cl none false k.part (s.asid k.part k.ctx) x.va.toNat = some y ∧ y.w = true ∧ y.d = true ∧ (s.mode = 0 → y.u = true)) →
      p = k.part → h = s.selected k.part (y.gpaOf x.va) → s.agentHome (.dram p h) true = .granted u → Canonical s → s.faults = [] →
      k.cls = .free → Backed s (.dram p h) → h % 8 = 0 →
      ∃ t : State, o = .next t ∧ t.cur = s.cur ∧ Stored s t (.dram p h) n x.value.toNat ∧ emits (t.fabric cl f) { x.tok with data := 0 }) ∧
    (x.tok.poi = false → x.tok.gf = false ∨ x.store = false → s.place k.part cl x.va = .unmapped → OnFabric o s cl f fun h =>
      emits h { x.tok with data := 3, poi := true } ∧ ∃ z ∈ h.packets, z.id = q.id ∧
        z.fault = some { kind := 3, elem := e, va := x.va, store := x.store, lsz := x.lsz, akind := 0x04, summit := false, away := false, fired := x.fired })) ∧
  (∀ (cl f e : Nat) (s : State) (i : Image) (t : Token) (rest : List Token),
    let g := s.fabric cl f
    g.image = some i → NoneOver g → g.draining = false → g.delays.getD e [] = t :: rest → (∀ r ∈ i.routes, r.port < 3) →
    (∀ r ∈ i.routes, r.src = e → r.dst < 64 ∧ (g.fifo r.dst r.port).length < 4) →
    OnFabric (exec (.delayEmit cl f e) s) s cl f fun h => h.delays.getD e [] = rest ∧ ∀ d port : Nat, d < 64 → port < 3 →
      h.fifo d port = g.fifo d port ++ ((i.routes.filter fun r => r.src == e && r.dst == d && r.port == port).map fun _ => t))

/-- The point of a nest's walk at a position: its counters, innermost first (11 R285). -/
def walkAt (n : Nest) (pos : Nat) (k : Nat) : Nat := pos / ((List.range k).map fun j => n.cnts.getD j 1).prod % n.cnts.getD k 1

/-- R284, R285, R288: a stream engine emits the next point of its walk, base plus counters times strides, with its dimension marks and `EOI` on the
last point, at every destination but the elements that had passed `EOI` before a restart (08 R210), when all have room, the limit admits it and the
belay has given leave; otherwise nothing. -/
def StreamEnginesWalk : Prop :=
  ∀ (cl f e : Nat) (s : State) (i : Image) (x : Stream) (n : Nest),
    let g := s.fabric cl f
    g.image = some i → g.stream = some x → (i.nests.find? fun y => y.eng == e) = some n → n.ndim ≤ 4 → n.cnts.length = 4 → n.strs.length = 4 →
    (∀ j, j < n.ndim → n.cnts.getD j 0 ≠ 0) → (∀ r ∈ i.routes, r.port < 3) →
    let pos := x.pos.getD e 0
    let used : Nat := if g.window = s.tick / 1024 then g.admitted else 0
    let total := ((List.range n.ndim).map fun j => n.cnts.getD j 1).prod
    let room : Prop := ∀ r ∈ i.routes, r.src = 72 + e → r.dst ∉ x.ended → r.dst < 64 ∧ (g.fifo r.dst r.port).length < 4
    let leave : Prop := ∃ y ∈ (s.die (dieOfCluster cl)).granted, y.id = x.req
    (pos < total → room → leave → used < g.limit → g.draining = false →
      OnFabric (exec (.streamEngineEmit cl f e) s) s cl f fun h => ∃ t : Token,
        (∀ d port : Nat, d < 64 → port < 3 → h.fifo d port = g.fifo d port ++
          ((i.routes.filter fun r => r.src == 72 + e && r.dst == d && r.port == port && !x.ended.contains r.dst).map fun _ => t)) ∧
        h.admitted = used + 1 ∧ h.window = s.tick / 1024 ∧ (∃ y, h.stream = some y ∧ y.pos.getD e 0 = pos + 1 ∧ y.req = x.req ∧ y.args = x.args) ∧
        t.data = (if n.bsrc = 0xFF then n.base else x.args.getD n.bsrc 0) +
          ((List.range n.ndim).map fun j => BitVec.ofNat 64 (walkAt n pos j) * n.strs.getD j 0).sum ∧
        t.poi = false ∧ t.gf = false ∧ (t.eoi = true ↔ pos + 1 = total) ∧
        ∀ k, k < n.ndim → (t.dims.testBit k = true ↔ ∀ j, j ≤ k → walkAt n pos j + 1 = n.cnts.getD j 1)) ∧
    (total ≤ pos ∨ ¬ leave ∨ g.limit ≤ used ∨ g.draining = true → exec (.streamEngineEmit cl f e) s = .next s)

end Sys2Proof.Claims

namespace Sys2Proof.Claims

/-- R190, R273, R288: the next packet enters when the limit admits it and every destination of its arguments has room: one token of each argument,
with `EOI`, at each destination; otherwise nothing. R190, R194: a packet that has all its results leaves, and its waiting caller gets them in
consecutive registers and goes on; a fatal fault traps with the record of R194, and a poisoned result traps poisoned data. -/
def PacketsPass : Prop :=
  (∀ (cl f : Nat) (s : State) (i : Image) (q : Packet) (rest : List Packet),
    let g := s.fabric cl f
    g.image = some i → NoneOver g → g.packets = q :: rest → q.entered = false → (∀ y ∈ rest, y.id ≠ q.id) → (∀ r ∈ i.routes, r.port < 3) →
    (∀ r ∈ i.routes, 64 ≤ r.src → r.src < 64 + i.nargs → r.dst < 64 ∧ (g.fifo r.dst r.port).length < 4) →
    (∀ r ∈ i.routes, ∀ r' ∈ i.routes, r.dst = r'.dst → r.port = r'.port → r = r') → i.routes.Nodup →
    let used : Nat := if g.window = s.tick / 1024 then g.admitted else 0
    (used < g.limit → g.draining = false → ∃ t : State, exec (.packetEntry cl f) s = .next t ∧ t.cur = s.cur ∧ SameBytes s t ∧
      (t.fabric cl f).admitted = used + 1 ∧ (t.fabric cl f).window = s.tick / 1024 ∧ (t.fabric cl f).packets = { q with entered := true } :: rest ∧
      ∀ r ∈ i.routes, ∀ n, n < i.nargs → r.src = 64 + n → ∃ x : Token, (t.fabric cl f).fifo r.dst r.port = g.fifo r.dst r.port ++ [x] ∧
        x.data = q.args.getD n 0 ∧ x.eoi = true ∧ x.packet = q.id ∧ x.poi = false ∧ x.gf = false ∧ x.dims = 0) ∧
    (g.limit ≤ used ∨ g.draining = true → exec (.packetEntry cl f) s = .next s)) ∧
  (∀ (cl f : Nat) (s : State) (i : Image) (q : Packet) (rest : List Packet) (k : Task) (res : Nat → Token),
    let g := s.fabric cl f
    g.image = some i → g.packets = q :: rest → q.entered = true → q.free = [] → g.holdsPacket q.id = false → q.t = s.cur.id → s.cur.task = some k →
    k.uid = q.uid → s.cur.wait = .serve q.id → i.nres ≤ 8 →
    (∀ n, n < i.nres → (q.results.find? fun e => e.1 == n) = some (n, res n)) →
    let o := exec (.serveResultsReturn cl f) s
    (q.fault = none → (∀ n, n < i.nres → (res n).poi = false) → ∃ t : State, o = .next t ∧ SameBytes s t ∧ t.cur.wait = .ready ∧ t.pc = s.pc + 4 ∧
      (t.fabric cl f).packets = rest ∧ (∀ r, t.x r = s.x r) ∧ t.cur.regs.status = s.cur.regs.status ∧
      ∀ r : Reg, (∀ n, n < i.nres → r = q.d + BitVec.ofNat 5 n → r ≠ 0 → t.g r = (res n).data) ∧
        ((∀ n, n < i.nres → r ≠ q.d + BitVec.ofNat 5 n) → t.g r = s.g r)) ∧
    (∀ x, q.fault = some x → x.kind = 3 → Enters s → ∃ t : State, o = .next t ∧ (t.fabric cl f).packets = rest ∧ (∀ r, t.g r = s.g r) ∧
      t.cur.wait = .ready ∧ t.cur.regs.pc = s.cur.regs.tvec ∧ t.cur.regs.tpc = s.pc ∧ t.cur.regs.tkind = 0x05 ∧ t.cur.regs.taddr = x.va ∧
      t.cur.regs.tinfo = BitVec.ofNat 64 (2 ^ 32 + x.elem % 256 * 2 ^ 24 + q.sid % 256 * 2 ^ 16 + x.akind * 2 ^ 8 + x.lsz * 2 ^ 4 +
        (if x.store then 1 else 0)) ∧ t.cur.regs.tnest = 0) ∧
    (q.fault = none → (∃ n, n < i.nres ∧ (res n).poi = true) → k.cls = .free → Enters s → ∃ t : State, o = .next t ∧
      (∀ r, t.g r = s.g r) ∧ t.cur.regs.pc = s.cur.regs.tvec ∧ t.cur.regs.tpc = s.pc ∧ t.cur.regs.tkind = 0x10 ∧ t.cur.regs.taddr = 0)) ∧
  (∀ (cl f : Nat) (s : State) (i : Image) (q : Packet) (rest : List Packet), (s.fabric cl f).image = some i → (s.fabric cl f).packets = q :: rest →
    (∃ n, n < i.nres ∧ ∀ e ∈ q.results, e.1 ≠ n) ∨ q.free ≠ [] → exec (.serveResultsReturn cl f) s = .next s)

/-- R208, R209, R285, R288, R294: a stream whose elements have all passed `EOI` and whose stores are confirmed ends its request; a stream
stopped by a fault loads the drain image and its record is due; a drained fabric is released, empty, after that record, and the request's completion
action is due; the step of a window leaves every fabric but its count of the window as it was. -/
def StreamsEnd : Prop :=
  (∀ (cl f : Nat) (s : State) (i : Image) (x : Stream) (q : Req),
    let g := s.fabric cl f
    g.image = some i → g.stream = some x → s.req? x.req = some q → g.draining = false → (∀ th ∈ s.cur :: s.others, ∀ n, th.wait ≠ .image n) →
    ((∀ e ∈ i.elems, e.1 ∈ x.ended ∨ 1 ≤ unitCount g.finished e.1 4) → g.ages = [] → ∃ t : State, exec (.streamComplete cl f) s = .next t ∧ t.cur = s.cur ∧
      SameBytes s t ∧ (t.fabric cl f).stream = none ∧ (∃ y, t.req? x.req = some y ∧ y.stage = 1 ∧ y.endKind = none) ∧
      Move.unit .engineDone x.req 0 0 ∈ t.agenda) ∧
    (g.ages ≠ [] ∨ (∃ e ∈ i.elems, e.1 ∉ x.ended ∧ unitCount g.finished e.1 4 = 0) → exec (.streamComplete cl f) s = .next s) ∧
    (q.endKind ≠ none → ∃ t : State, exec (.streamFatalStop cl f) s = .next t ∧ t.cur = s.cur ∧ SameBytes s t ∧
      (t.fabric cl f).draining = true ∧ Move.unit .engineDone x.req 0 0 ∈ t.agenda ∧
      ∃ y, t.req? x.req = some y ∧ y.cnts = g.streamCounters i ∧ y.endKind = q.endKind ∧ y.stage = 1) ∧
    (q.endKind = none → exec (.streamFatalStop cl f) s = .next s)) ∧
  (∀ (cl f : Nat) (s : State),
    let g := s.fabric cl f
    (∀ th ∈ s.cur :: s.others, ∀ n, th.wait ≠ .image n) →
    let recorded : Prop := ∀ x q, g.stream = some x → s.req? x.req = some q → q.recorded = true
    (g.draining = true → recorded → ∃ t : State, exec (.fabricRelease cl f) s = .next t ∧ t.cur = s.cur ∧ SameBytes s t ∧ (t.fabric cl f).image = none ∧
      (t.fabric cl f).occupancy = 0 ∧ (t.fabric cl f).stream = none ∧ (t.fabric cl f).packets = [] ∧ (t.fabric cl f).draining = false ∧
      ∀ x q, g.stream = some x → s.req? x.req = some q → (∃ y, t.req? x.req = some y ∧ y.stage = 1) ∧ Move.unit .engineDone x.req 0 0 ∈ t.agenda) ∧
    (g.draining = false ∨ ¬ recorded → exec (.fabricRelease cl f) s = .next s)) ∧
  (∀ (s : State), UnitStep (exec .rateWindow s) s fun t => ∀ cl f,
    t.fabric cl f = { s.fabric cl f with admitted := (t.fabric cl f).admitted, window := (t.fabric cl f).window } ∧
    (t.fabric cl f).admittedAt s.tick = (s.fabric cl f).admittedAt s.tick)

/-- R191: a fetched binary stands in the config cache and raises `IMGFETCH`; an image that the checks accept is loaded after
belay leave and raises `IMGLOAD`, and its callers issue again; one that the config cache has lost is fetched again (15 R337); a rejected one leaves the
fabric empty and traps its callers with cause 2. -/
def ImagesAreLoaded : Prop :=
  ∀ (cl f : Nat) (s : State) (x : Fetch) (k : Task), (s.cluster cl).fetches = [x] → x.fabric = f → x.sid < 256 →
    s.cur.task = some k → s.curCluster = cl → s.cur.wait = .image x.sid → k.part = x.part → (s.server x.part x.sid).img = x.img →
    s.others = [] →
    (x.fetched = false → ∀ head rest u w, s.imageRead cl x x.img 1 = .bytes head u → field head 0x2C 4 ≤ 16384 →
      u.imageRead cl x (x.img + 64) ((field head 0x2C 4 + 63) / 64 - 1) = .bytes rest w → (w.cluster cl).fetches = [x] → head.length = 64 →
      ∃ t : State, exec (.imageFetchDone cl f) s = .next t ∧ t.cur = w.cur ∧ (t.cluster cl).imgFetch = (w.cluster cl).imgFetch + 1 ∧
        (∃ e ∈ (t.cluster cl).cfgCache, e.2.img = x.img ∧ e.2.binary = head ++ rest) ∧ (t.cluster cl).fetches = [{ x with fetched := true }]) ∧
    (x.fetched = false → s.imageRead cl x x.img 1 = .reject → Enters s →
      ∃ t : State, exec (.imageFetchDone cl f) s = .next t ∧ t.cur.regs.tkind = 0x06 ∧ t.cur.regs.taddr = x.img ∧
        t.cur.regs.tinfo = causeWord 2 x.sid ∧ t.cur.regs.pc = s.cur.regs.tvec ∧ t.cur.regs.tpc = s.pc ∧ (t.cluster cl).fetches = [] ∧ (t.fabric cl f).image = none) ∧
    (x.fetched = true → ((s.cluster cl).cfgCache.find? fun e => e.2.img == x.img) = none →
      UnitStep (exec (.imageLoadDone cl f) s) s fun t => (t.cluster cl).fetches = [{ x with fetched := false }] ∧
        Move.unit .imageFetch cl f 0 ∈ t.agenda) ∧
    (x.fetched = true → ∀ n slot, ((s.cluster cl).cfgCache.find? fun e => e.2.img == x.img) = some (n, slot) →
      (parseImage x.img slot.binary = none → Enters s → ∃ t : State, exec (.imageLoadDone cl f) s = .next t ∧ t.cur.regs.tkind = 0x06 ∧
        t.cur.regs.taddr = x.img ∧ t.cur.regs.tinfo = causeWord 2 x.sid ∧ t.cur.regs.tpc = s.pc ∧ (t.cluster cl).fetches = [] ∧
        (t.fabric cl f).loading = none ∧ (t.fabric cl f).image = none) ∧
      (∀ i, parseImage x.img slot.binary = some i →
        let id := 2 ^ 48 + cl * 4 + f
        let die := dieOfCluster cl
        ((∀ b ∈ (s.die die).granted ++ (s.die die).belayQ, b.id ≠ id) → UnitStep (exec (.imageLoadDone cl f) s) s fun t =>
          (t.die die).belayQ = (s.die die).belayQ ++ [{ id := id, milli := 200, part := x.part }]) ∧
        ((∃ b ∈ (s.die die).granted, b.id = id) → (∀ e ∈ i.elems, ∀ p, i.pats[e.2]? = some p → p.op ≠ 0x50) →
          ∃ t : State, exec (.imageLoadDone cl f) s = .next t ∧ SameBytes s t ∧ t.cur = { s.cur with wait := .ready, mid := true } ∧
            (t.fabric cl f).image = some i ∧ (t.fabric cl f).loading = none ∧ (t.cluster cl).fetches = [] ∧
            (t.cluster cl).imgLoad = (s.cluster cl).imgLoad + 1 ∧ ∀ b ∈ (t.die die).granted, b.id ≠ id)))

/-- R289 to R293: an accepted image obeys its header, its elements hold ops that they accept, no element stands twice, every arc has exactly one
route into it and every constant port none, no source has more than 8 routes, and its declared latency covers the computed one. -/
def AcceptedImagesObeyTheChecks : Prop :=
  ∀ (img : Word) (bs : List Byte) (i : Image), parseImage img bs = some i →
    field bs 0 4 = 0x5A58494D ∧ field bs 4 2 = 1 ∧ (field bs 6 2 = 1 ∨ field bs 6 2 = 2) ∧ (i.call = true ↔ field bs 6 2 = 1) ∧
    i.img = img ∧ i.nargs = field bs 0x12 1 ∧ i.nres = field bs 0x13 1 ∧ i.nargs ≤ 8 ∧ i.nres ≤ 8 ∧ (i.call = false → i.nres = 0) ∧
    64 ≤ field bs 0x2C 4 ∧ field bs 0x2C 4 ≤ 16384 ∧ field bs 0x2C 4 ≤ bs.length ∧
    (i.elems.map fun x => x.1).Nodup ∧
    (∀ x ∈ i.elems, x.1 < 64 ∧ ∃ p, i.pats[x.2]? = some p ∧ p.op ≠ 0 ∧ acceptsOp (elemKind x.1) p.op = true ∧
      ∀ n, n < 3 → (p.port n = .arc → (i.routes.filter fun r => r.dst == x.1 && r.port == n).length = 1) ∧
        (∀ j, p.port n = .arg j → ∃ r, (i.routes.filter fun r => r.dst == x.1 && r.port == n) = [r] ∧ r.src = 64 + j) ∧
        (p.port n = .const ∨ p.port n = .none → ∀ r ∈ i.routes, ¬ (r.dst = x.1 ∧ r.port = n))) ∧
    (∀ r ∈ i.routes, r.port < 3 ∧ (r.dst < 64 ∨ (80 ≤ r.dst ∧ r.dst < 88)) ∧
      (i.routes.filter fun y => y.src == r.src).length ≤ 8) ∧ i.latency ≤ i.lat

/-- R424, R425: the head of a die's queue is granted when it fits under 1000 A and no stretch is to be ended; one that does not fit stays the head, and
nothing is granted; a stretch above S of 66,000 ticks stops every grant until the current falls. -/
def BelayGrants : Prop :=
  (∀ (die : Nat) (s : State) (b : Belay) (rest : List Belay), (s.die die).belayQ = b :: rest →
    let sum := ((s.die die).granted.map fun x => x.milli).sum
    let long : Prop := ∃ since, (s.die die).aboveSince = some since ∧ since + 66000 ≤ s.tick
    ((s.die die).stretch = false → ¬ long → sum + b.milli ≤ 1000000 → (s.part b.part).shed = 0 →
      UnitStep (exec (.belayGrant die) s) s fun t => (t.die die).belayQ = rest ∧ (t.die die).granted = (s.die die).granted ++ [b]) ∧
    ((s.die die).stretch = true ∨ long ∨ 1000000 < sum + b.milli → exec (.belayGrant die) s = .next s)) ∧
  (∀ (die : Nat) (s : State), (s.die die).belayQ = [] → exec (.belayGrant die) s = .next s) ∧
  (∀ (die since : Nat) (s : State), (s.die die).aboveSince = some since →
    UnitStep (exec (.belayStretchLimit die) s) s fun t =>
      t.die die = { s.die die with stretch := (s.die die).stretch || decide (since + 66000 ≤ s.tick) })

end Sys2Proof.Claims

namespace Sys2Proof.Claims

/-! ### Host queues (21 R374 to R395) -/

/-- Eight bytes of the packet at the head of a queue's ring. -/
def packetD (s : State) (p q off : Nat) : Nat := s.hostMem.readNat ((s.queue p q).qcb.base.toNat + (s.queue p q).qcb.head.toNat + off) 8

/-- The size of a queue's ring. -/
def ringSize (s : State) (p q : Nat) : Nat := 2 ^ ((s.queue p q).qcb.ctrl.toNat % 32)

/-- The context of a queue. -/
def queueCtx (s : State) (p q : Nat) : Nat := (s.queue p q).qcb.ctrl.toNat / 2 ^ 16 % 8

/-- An enabled queue in a state has something to read, no update of its control block is under way, and no switch-out waits for it
(21 R377, R385 to R387). -/
structure Readable (s : State) (p q st : Nat) : Prop where
  enabled : (s.queue p q).qcb.ctrl.getLsbD 63 = true
  state   : (s.queue p q).qcb.state.toNat % 256 = st
  more    : (s.queue p q).qcb.head.toNat ≠ (s.queue p q).tail
  whole   : (s.queue p q).writing = []
  stays   : ∀ e ∈ s.events, ¬ (e.word.toNat / 2 ^ 56 = 3 ∧ e.part = p ∧ e.q = q)

/-- No home serves an earlier request: no engine request holds a line, and no thread's instruction waits at a home or has its turn
there (07 R151, 08 R201). -/
def HomesFree (s : State) : Prop := (∀ x ∈ s.reqs, x.holds = none) ∧ ∀ th ∈ s.cur :: s.others, th.arrivedAt = none

/-- The first doubleword of the header at the head (21 R378). -/
def HeaderIs (s : State) (p q type len seq : Nat) (irq : Bool) : Prop :=
  type < 256 ∧ len < 2 ^ 16 ∧ seq < 2 ^ 32 ∧
  ∃ r, r < 128 ∧ packetD s p q 0 = type + (if irq then 2 ^ 8 else 0) + r * 2 ^ 9 + len * 2 ^ 16 + seq * 2 ^ 32

/-- A packet that passes the checks of 21 R380 stands at the head of a queue in a state; its reserved header bits are zero. -/
structure PacketAt (s : State) (p q st type len seq : Nat) (irq : Bool) : Prop where
  reads  : Readable s p q st
  homes  : HomesFree s
  header : type < 256 ∧ len < 2 ^ 16 ∧ seq < 2 ^ 32 ∧
    packetD s p q 0 = type + (if irq then 2 ^ 8 else 0) + len * 2 ^ 16 + seq * 2 ^ 32
  rest   : packetD s p q 8 = 0
  type   : 1 ≤ type ∧ type ≤ 6
  fits   : 1 ≤ len ∧ (s.queue p q).qcb.head.toNat + len * 16 ≤ ringSize s p q
  next   : seq = (s.queue p q).qcb.nseq.toNat % 2 ^ 32

/-- An update of a queue's control block begins, behind those under way, with its fields; the queue, the interrupts and the other
queues are otherwise as before (21 R386). -/
def Begins (s t : State) (p q : Nat) (w : QcbWrite) : Prop :=
  t.queue p q = { s.queue p q with writing := (s.queue p q).writing ++ [w] } ∧ t.irqs = s.irqs ∧
  ((s.queue p q).writing = [] → Move.unit .packet p q 7 ∈ t.agenda) ∧ ∀ j, j ≠ q → t.queue p j = s.queue p j

/-- The update that changes `STATE` alone, before its first write: `core` says that a command core makes it, `irq` that it raises the vector. -/
def stateUpdate (state : Word) (core irq : Bool) : QcbWrite :=
  { step := 0, patch := { head := none, nseq := none, state := some state, lasterr := none, tshad := none }, core := core, packet := false,
    irq := irq }

/-- The update of a queue's control block for the packet at its head (21 R378, R381, R382, R385, R386), before its first write: `HEAD` past
the packet, its number as the last processed and the next one expected, `STATE` running, and a refusal's code in `LASTERR`. -/
def updateFor (s : State) (p q len seq : Nat) (irq : Bool) (err : Option Nat) : QcbWrite :=
  let c := (s.queue p q).qcb
  { step := 0
    patch :=
      { head := some (BitVec.ofNat 64 ((c.head.toNat + 16 * len) % ringSize s p q))
        nseq := some (BitVec.ofNat 64 (seq * 2 ^ 32 + (seq + 1) % 2 ^ 32))
        state := some 0
        lasterr := err.map fun x => BitVec.ofNat 64 (x * 2 ^ 32 + seq)
        tshad := none }
    core := true
    packet := true
    irq := irq }

/-- The packet at the head has had its effect, and the update of the control block for it begins; the queue is otherwise as before,
and so are the other queues. -/
def Processed (s t : State) (p q len seq : Nat) (irq : Bool) (err : Option Nat) : Prop :=
  Begins s t p q (updateFor s p q len seq irq err)

/-- The fields of a copy of the control block once an update is written to it (21 R386). -/
def written (c : QcbFields) (w : QcbWrite) (seqw : Word) : QcbFields :=
  { c with
    head := w.patch.head.getD c.head, nseq := w.patch.nseq.getD c.nseq, state := w.patch.state.getD c.state
    lasterr := w.patch.lasterr.getD c.lasterr, tshad := w.patch.tshad.getD c.tshad, seqw := seqw }

/-- R378, R386: every update of a control block is written in six steps, three to the primary and the same three to the shadow: `SEQW` is made odd,
the fields are written, `SEQW` is made even again. With the primary complete a packet's number stands in `PROGRESS`, and the vector is raised if
the update asks; the shadow is whole while the primary is written, and the primary while the shadow is. Behind the last write a core that works on
the queue goes on with it. -/
def UpdatesAreSplit : Prop :=
  ∀ (s : State) (p q : Nat) (w : QcbWrite), (s.queue p q).writing = [w] → w.step = 0 →
    let x := s.queue p q
    let y (n : Nat) : Queue := (((fun t : State => t.writeQcb p q)^[n]) s).queue p q
    let irqs (n : Nat) : List Irq := (((fun t : State => t.writeQcb p q)^[n]) s).irqs
    (y 1).qcb = { x.qcb with seqw := x.qcb.seqw + 1 } ∧
    (y 2).qcb = written x.qcb w (x.qcb.seqw + 1) ∧
    (∀ n, n ≤ 2 → (y n).progress = x.progress ∧ irqs n = s.irqs) ∧
    (∀ n, 3 ≤ n → n ≤ 6 → (y n).qcb = written x.qcb w (x.qcb.seqw + 2) ∧ (y n).progress = (if w.packet then (written x.qcb w 0).nseq.toNat / 2 ^ 32 else x.progress) ∧
      (y n).performed = (x.performed && !w.packet) ∧ irqs n = s.irqs ++ (if w.irq then [.vf p q] else [])) ∧
    (∀ n, n ≤ 3 → (y n).shadow = x.shadow) ∧
    (y 4).shadow = { x.shadow with seqw := x.shadow.seqw + 1 } ∧
    (y 5).shadow = written x.shadow w (x.shadow.seqw + 1) ∧
    (y 6).shadow = written x.shadow w (x.shadow.seqw + 2) ∧
    (∀ n, n < 6 → (y n).writing = [{ w with step := n }]) ∧ (y 6).writing = [] ∧
    ((s.coreOfQueue p q).isSome = true → Move.unit .packet p q 0 ∈ ((fun t : State => t.writeQcb p q)^[6] s).agenda)

/-- A queue halts before the packet at its head, with a code: the update of its control block that says so begins, and will raise its
vector; nothing outside its control block changes (21 R380, R386). -/
def Halts (o : Out) (s : State) (p q code : Nat) : Prop :=
  UnitStep o s fun t => t.hostMem = s.hostMem ∧
    Begins s t p q (stateUpdate (BitVec.ofNat 64 ((s.queue p q).now.head.toNat % 2 ^ 32 * 2 ^ 32 + code * 2 ^ 8 + 2)) false true)

/-- The rows of the table that process the packet at the head of a queue. -/
def packetRow (p q : Nat) (i : Instr) : Prop :=
  i = .pad p q ∨ i = .nopPacket p q ∨ i = .launch p q ∨ i = .signalResolve p q ∨ i = .signalRopeBytes p q ∨ i = .signalBadKind p q ∨
  i = .waitf p q ∨ i = .reply p q

/-- R377, R380, R387, R393: a header that fails a check halts its queue with the code of the first; so does an ill-placed tail, code 6.
A good tail moves the live tail and rings, or is latched while the queue is switched out; an ill-placed one halts at once there too (log 11). -/
def BadPacketsHaltTheQueue : Prop :=
  (∀ (s : State) (p q type len seq : Nat) (irq : Bool) (i : Instr), packetRow p q i → Readable s p q 0 → HeaderIs s p q type len seq irq →
    let h := (s.queue p q).qcb.head.toNat
    let n := ringSize s p q
    let want := (s.queue p q).qcb.nseq.toNat % 2 ^ 32
    (len = 0 → Halts (exec i s) s p q 1) ∧ (len ≠ 0 → n < len * 16 → Halts (exec i s) s p q 2) ∧
    (len ≠ 0 → len * 16 ≤ n → n < h + len * 16 → Halts (exec i s) s p q 3) ∧
    (len ≠ 0 → h + len * 16 ≤ n → seq ≠ want → Halts (exec i s) s p q 4) ∧
    (len ≠ 0 → h + len * 16 ≤ n → seq = want → type = 0 ∨ 6 < type → Halts (exec i s) s p q 5)) ∧
  (∀ (s : State) (p q : Nat) (v : Word),
    let x := s.queue p q
    let o := exec (.tailDoorbell p q v) s
    let good : Prop := v.toNat % 16 = 0 ∧ v.toNat < ringSize s p q
    let st := x.now.state.toNat % 256
    (x.qcb.ctrl.getLsbD 63 = false → o = .next s) ∧
    (x.qcb.ctrl.getLsbD 63 = true → ¬ good → st ≠ 2 → Halts o s p q 6) ∧
    (x.qcb.ctrl.getLsbD 63 = true → good → st = 3 → UnitStep o s fun t =>
      Begins s t p q { step := 0, patch :=
        { head := none, nseq := none, state := none, lasterr := none, tshad := some (BitVec.ofNat 64 (v.toNat + 2 ^ 63)) }, core := false, packet := false, irq := false } ∧ t.events = s.events) ∧
    (x.qcb.ctrl.getLsbD 63 = true → good → st = 0 → UnitStep o s fun t => t.queue p q = { x with tail := v.toNat } ∧
      ∃ e ∈ t.events, e.part = p ∧ e.q = q ∧ e.word.toNat / 2 ^ 56 = 1) ∧
    (x.qcb.ctrl.getLsbD 63 = true → good → st = 1 → UnitStep o s fun t => t.queue p q = { x with tail := v.toNat } ∧ t.events = s.events))

/-- R381, R382, R384, R386: a sound packet is processed with its own effect: `PAD` and `NOP` have none, a `SIGNAL` resolves its future or lowers its
rope's `BYTES` and is counted afterwards, `WAITF` waits for its future, `REPLY` ends the `SYSC` of its token; a packet that breaks its row is refused with
its code, and acts on nothing. -/
def PacketsAreProcessed : Prop :=
  ∀ (s : State) (p q len seq : Nat) (irq : Bool),
    let c := queueCtx s p q
    let va : Word := BitVec.ofNat 64 (packetD s p q 16)
    let v := packetD s p q 24
    let kind := packetD s p q 32
    let Done (o : Out) (err : Option Nat) : Prop := UnitStep o s fun t => Processed s t p q len seq irq err ∧ t.hostMem = s.hostMem
    let signal (i : Instr) : Prop := (i = .signalResolve p q ∧ kind = 0) ∨ (i = .signalRopeBytes p q ∧ kind = 1) ∨
      (i = .signalBadKind p q ∧ 2 ≤ kind)
    (PacketAt s p q 0 1 len seq irq → Done (exec (.pad p q) s) none) ∧
    (PacketAt s p q 0 2 len seq irq → Done (exec (.nopPacket p q) s) (if len = 1 then none else some 20)) ∧
    (PacketAt s p q 0 4 len seq irq → ∀ i, signal i →
      (len ≠ 3 → Done (exec i s) (some 20)) ∧ (len = 3 → packetD s p q 40 ≠ 0 → Done (exec i s) (some 16)) ∧
      (len = 3 → packetD s p q 40 = 0 → 2 ≤ kind → Done (exec i s) (some 23)) ∧
      (len = 3 → packetD s p q 40 = 0 → kind < 2 → (s.queue p q).performed = true → Done (exec i s) none)) ∧
    (PacketAt s p q 0 4 3 seq irq → len = 3 → packetD s p q 40 = 0 → (s.queue p q).performed = false →
      let Acts (o : Out) (u : State) (g n w : Nat) : Prop := ∃ t : State, o = .next t ∧ t.cur = u.cur ∧ Stored u t (.dram p g) n w ∧
        (t.queue p q).performed = true ∧ (t.queue p q).qcb = (s.queue p q).qcb ∧ Move.unit .packet p q 0 ∈ t.agenda
      (kind = 0 → s.packetWord p c va 8 1 8 = none → Done (exec (.signalResolve p q) s) (some 22)) ∧
      (kind = 0 → ∀ g u, s.packetWord p c va 8 1 8 = some (g, u) → g % 8 = 0 → (∃ a, u.physOf p g = some a) → (∀ j < 8, (u.part p).windowAt (g + j) = none) → Canonical u →
        (2 ≤ (u.readD p g).toNat / 2 ^ 62 → Done (exec (.signalResolve p q) s) (some 22)) ∧
        ((u.readD p g).toNat / 2 ^ 62 < 2 → NoneWaits u p g → Acts (exec (.signalResolve p q) s) u g 8 (2 * 2 ^ 62 + v % 2 ^ 62))) ∧
      (kind = 1 → s.packetWord p c va 16 1 16 = none → Done (exec (.signalRopeBytes p q) s) (some 22)) ∧
      (kind = 1 → ∀ g u, s.packetWord p c va 16 1 16 = some (g, u) → g % 16 = 0 → (∃ a, u.physOf p g = some a) → (∀ j < 16, (u.part p).windowAt (g + j) = none) → Canonical u →
        ¬ brokenOf (u.readD p g) → v ≤ (u.readD p (g + 8)).toNat → ¬ (pendOf (u.readD p g) = 0 ∧ (u.readD p (g + 8)).toNat = v) →
        Acts (exec (.signalRopeBytes p q) s) u (g + 8) 8 ((u.readD p (g + 8)).toNat - v))) ∧
    (∀ i st, (i = .waitf p q ∧ st = 0 ∧ len = 2 ∧ v = 0) ∨ (i = .waitfResolved p q ∧ st = 1) → PacketAt s p q st 5 len seq irq →
      (s.packetWord p c va 8 0 8 = none → Done (exec i s) (some 22)) ∧
      (∀ g u, s.packetWord p c va 8 0 8 = some (g, u) →
        (2 ≤ (u.readD p g).toNat / 2 ^ 62 → UnitStep (exec i s) u fun t => Processed s t p q len seq irq none) ∧
        ((u.readD p g).toNat / 2 ^ 62 < 2 → UnitStep (exec i s) u fun t => Begins s t p q (stateUpdate 1 true false)))) ∧
    (PacketAt s p q 0 5 len seq irq → len ≠ 2 → Done (exec (.waitf p q) s) (some 20)) ∧
    (PacketAt s p q 0 6 len seq irq → (len ≠ 2 → Done (exec (.reply p q) s) (some 20)) ∧
      (len = 2 → (∀ x ∈ s.syscs, x.token = va → x.part ≠ p) → Done (exec (.reply p q) s) (some 21)) ∧
      (len = 2 → ∀ (x : Sysc) (cl : Nat) (k : Parked) (d : Reg), x ∈ s.syscs → x.token = va → x.part = p → (∀ y ∈ s.syscs, y.token = va → y = x) →
        s.clusters.findSome? (fun e => (e.2.store.find? (fun z => z.isTask x.uid)).map fun z => (e.1, z)) = some (cl, k) →
        (∃ y ∈ s.allTasks, y.uid = x.uid) → k.thread.task ≠ none → k.resume = .sysc d → d ≠ 0 →
        UnitStep (exec (.reply p q) s) s fun t => Processed s t p q len seq irq none ∧ x ∉ t.syscs ∧ (t.cluster cl).l1 = [] ∧
          ∃ e ∈ (t.cluster cl).readyQ, ∃ th, e.job = .saved th k.inArea ∧ th.regs.readG d = BitVec.ofNat 64 v ∧
            th.regs.pc = k.thread.regs.pc + word k.len))

/-- The fields of a `LAUNCH` at the head of a queue (21 R388). -/
structure LaunchAt (s : State) (p q seq : Nat) (irq : Bool) (base store mode nent nhdr len : Nat) : Prop where
  packet : PacketAt s p q 0 3 len seq irq
  ctl    : packetD s p q 16 = base + store * 2 ^ 8 + mode * 2 ^ 16 + nent * 2 ^ 32 + nhdr * 2 ^ 48
  zero   : packetD s p q 24 = 0
  small  : base < 256 ∧ store < 256 ∧ mode < 256 ∧ nent < 2 ^ 16 ∧ nhdr < 2 ^ 16
  alone  : (s.part p).pending = none ∧ (s.part p).drain = [] ∧ ∀ th ∈ s.cur :: s.others, ∀ n, th.wait ≠ .image n

/-- The configuration that a `LAUNCH` starts from (21 R389). -/
def launchBase (s : State) (p base : Nat) : PConf := if base = 0 then (s.part p).conf else (s.part p).confs.getD base PConf.reset

/-- R381, R388 to R390: a `LAUNCH` whose fields, length, entry or window is illegal is refused with its code; it changes no configuration and starts
nothing. -/
def BadLaunchesAreRefused : Prop :=
  ∀ (s : State) (p q seq : Nat) (irq : Bool) (base store mode nent nhdr len : Nat), LaunchAt s p q seq irq base store mode nent nhdr len →
    let Refused (code : Nat) : Prop := UnitStep (exec (.launch p q) s) s fun t => Processed s t p q len seq irq (some code) ∧
      t.hostMem = s.hostMem ∧ (t.part p).conf = (s.part p).conf ∧ (t.part p).confs = (s.part p).confs ∧ t.regs = s.regs ∧
      (t.part p).pending = none
    let head := packetD s p q 32
    let payload (i : Nat) : Nat := packetD s p q (40 + 8 * i)
    (15 < base ∨ 15 < store ∨ 2 ≤ mode ∨ (mode = 1 ∧ nhdr ≠ 0) → Refused 16) ∧
    (base ≤ 15 → store ≤ 15 → mode = 0 → len ≠ 2 + 4 * nent + (nhdr + 1) / 2 → Refused 20) ∧
    (base ≤ 15 → store ≤ 15 → mode = 1 → nhdr = 0 → len ≠ 2 + 4 * nent + 2 → Refused 20) ∧
    (base ≤ 15 → store ≤ 15 → mode = 0 → nent = 1 → nhdr = 0 → len = 6 →
      (2 ^ 24 ≤ head → Refused 16) ∧
      (head < 2 ^ 24 → head % 256 = 0 ∨ 5 < head % 256 → Refused 17) ∧
      (head % 256 = 1 → 256 * 256 ≤ head → head < 2 ^ 24 → Refused 17) ∧
      (head % 256 = 1 → head < 256 * 256 → payload 1 % 2 = 1 → payload 1 < 4 → payload 0 % 64 ≠ 0 → (∀ i, 2 ≤ i → i < 7 → payload i = 0) →
        Refused 17) ∧
      (head % 256 = 1 → head < 256 * 256 → (4 ≤ payload 1 ∨ ∃ i, 2 ≤ i ∧ i < 7 ∧ payload i ≠ 0) → Refused 16) ∧
      (head % 256 = 2 → head < 16 * 256 → payload 4 / 2 ^ 12 % 2 = 1 → (∀ i, 5 ≤ i → i < 7 → payload i = 0) →
        payload 0 % 4096 ≠ 0 → Refused 19) ∧
      (head % 256 = 1 → head < 256 * 256 → payload 1 = 3 → payload 0 % 64 = 0 → (∀ i, 2 ≤ i → i < 7 → payload i = 0) →
        (launchBase s p base).windows = [] →
        3 < (((launchBase s p base).servers.put (head / 256) { img := BitVec.ofNat 64 (payload 0), ctl := 3 }).filter fun e =>
          bit e.2.ctl 0 && bit e.2.ctl 1).length → Refused 18))

/-- R388 to R392: a `LAUNCH` with one entry applies it to the configuration that it starts from, stores the result where it asks and, where no
cluster holds an affected image, is processed at once; one with a header registers it as `SPAWN` would, and one whose header is refused records code 17. -/
def LaunchesApplyAndStart : Prop :=
  ∀ (s : State) (p q seq : Nat) (irq : Bool) (base store : Nat), base ≤ 15 → store ≤ 15 →
    (LaunchAt s p q seq irq base store 0 1 0 6 →
      let c := launchBase s p base
      let head := packetD s p q 32
      let n := head / 256
      let payload (i : Nat) : Nat := packetD s p q (40 + 8 * i)
      let Applied (d : PConf) : Prop := UnitStep (exec (.launch p q) s) s fun t => Processed s t p q 6 seq irq none ∧ t.regs = s.regs ∧
        (t.part p).conf = d ∧ (t.part p).pending = none ∧ (store ≠ 0 → (t.part p).confs.getD store PConf.reset = d) ∧
        (store = 0 → (t.part p).confs = (s.part p).confs)
      c.windows = [] → (s.part p).conf.windows = [] → (∀ cl, (s.cluster cl).fabrics = [] ∧ (s.cluster cl).cfgCache = []) →
      (head % 256 = 1 → n < 256 → payload 1 < 4 → (payload 1 % 2 = 1 → payload 0 % 64 = 0) → (∀ i, 2 ≤ i → i < 7 → payload i = 0) →
        let d := { c with servers := c.servers.put n { img := BitVec.ofNat 64 (payload 0), ctl := BitVec.ofNat 64 (payload 1) } }
        (d.servers.filter fun e => bit e.2.ctl 0 && bit e.2.ctl 1).length ≤ 3 → Applied d) ∧
      ((c.servers.filter fun e => bit e.2.ctl 0 && bit e.2.ctl 1).length ≤ 3 →
        (head % 256 = 4 → n < 256 → (∀ i, 1 ≤ i → i < 7 → payload i = 0) →
          Applied { c with loaders := c.loaders.put n (BitVec.ofNat 64 (payload 0)) }) ∧
        (head % 256 = 5 → n < 64 → payload 2 < 2 ^ 12 → (∀ i, 3 ≤ i → i < 7 → payload i = 0) →
          Applied { c with peers := c.peers.put n [BitVec.ofNat 64 (payload 0), BitVec.ofNat 64 (payload 1), BitVec.ofNat 64 (payload 2)] }))) ∧
    (LaunchAt s p q seq irq 0 0 0 0 1 3 → packetD s p q 40 = 0 → (s.part p).conf.windows = [] →
      ((s.part p).conf.servers.filter fun e => bit e.2.ctl 0 && bit e.2.ctl 1).length ≤ 3 →
      let r := (s.part p).clusterList.foldl (fun u cl => u.emptyL1 cl) (s.mapPart p fun t => { t with pending := none, drain := [] })
      let hdr : Word := BitVec.ofNat 64 (packetD s p q 32)
      let ctx := queueCtx s p q
      (r.packetWord p ctx hdr 64 0 64 = none → UnitStep (exec (.launch p q) s) s fun t => Processed s t p q 3 seq irq (some 17) ∧ t.regs = s.regs) ∧
      (∀ (g g' : Nat) (v w : State), r.packetWord p ctx hdr 64 0 64 = some (g, v) → v.packetWord p ctx (hdr + 64) 64 0 64 = some (g', w) →
        let bs := w.bytesAt (.dram p g) 64 ++ w.bytesAt (.dram p g') 64
        let registered := s.regs.any fun x => x.part == p && x.gpa == g
        (headerFails bs registered 1 none ≠ none → UnitStep (exec (.launch p q) s) s fun t =>
          Processed s t p q 3 seq irq (some 17) ∧ t.regs = s.regs) ∧
        (headerFails bs registered 1 none = none → depsOf bs = 0 ∨ TableRoom w (w.homeDie p g) → UnitStep (exec (.launch p q) s) w fun t =>
          Processed s t p q 3 seq irq none ∧ ∃ x ∈ t.regs, x ∉ s.regs ∧ x.part = p ∧ x.ctx = ctx ∧ x.va = hdr ∧ x.gpa = g ∧ x.range = false ∧ x.live = 1 ∧
            (x.held = true ↔ depsOf bs ≠ 0) ∧ x.hdr.entry.toNat = field bs 0 8 ∧ x.hdr.arg.toNat = field bs 8 8 ∧ x.hdr.ctrl.toNat = ctrlOf bs)))

/-- R380, R386, R387, R393 to R395: an idle core takes the first event whose lock is free, its thread is ready and reads its word; at switch-out the
queue stops with its `PROGRESS` kept, at switch-in, of a resident context, the latched tail is applied, and each waits for the updates under way; an
event that has taken 2^20 ticks is ended, its core reset and a recovery event queued for its queue, whose second expiry halts it with code 7; a halted
queue that is re-armed runs again from `HEAD`. -/
def EventsRunOnCommandCores : Prop :=
  (∀ (core : Nat) (s : State) (e : CmdEvent) (l r : List CmdEvent), s.boot = .running → core < 12 → (s.cmd core).event = none →
    let lockOf (x : CmdEvent) : Option Nat := if x.word.getLsbD 55 then some (x.word.toNat / 2 ^ 45 % 2 ^ 10) else none
    let held (x : CmdEvent) : Prop := lockOf x ≠ none ∧ ∃ c ∈ s.cmds, ∃ y, c.2.event = some y ∧ lockOf y = lockOf x
    s.events = l ++ e :: r → (∀ x ∈ l, held x) → ¬ held e →
    ∃ t : State, exec (.eventHandoff core) s = .next t ∧ SameBytes s t ∧ t.events = l ++ r ∧
      (t.cmd core).event = some e ∧ (t.cmd core).since = s.tick ∧
      (let tid : Tid := { kind := .command, unit := core, slot := 0 }
       ∃ th, t.thread? tid = some th ∧ th.wait = .ready ∧ th.regs.event = e.word ∧ th.regs.status.toNat / 2 ^ 11 % 4 = 2 ∧
        ∀ old, s.thread? tid = some old → th.regs.pc = old.regs.pc) ∧
      (∀ n, (n = 1 ∨ n = 2 ∨ n = 3 ∨ n = 4 ∨ n = 6) → e.word.toNat / 2 ^ 56 = n →
        Move.unit .packet e.part e.q (if n = 1 then 0 else n) ∈ t.agenda)) ∧
  (∀ (core : Nat) (s : State), s.boot ≠ .running ∨ 12 ≤ core ∨ (s.cmd core).event ≠ none → exec (.eventHandoff core) s = .next s) ∧
  (∀ (p q : Nat) (s : State),
    let x := s.queue p q
    let st := x.now.state.toNat % 256
    let resident : Prop := (s.part p).vacant = false ∧ (s.part p).resident = queueCtx s p q
    (x.writing = [] → st = 0 ∨ st = 1 → UnitStep (exec (.queueSwitchOut p q) s) s fun t => Begins s t p q (stateUpdate 3 true false)) ∧
    (x.writing = [] → st = 3 → resident → UnitStep (exec (.queueSwitchIn p q) s) s fun t =>
      t.queue p q = { x with
        tail := if x.qcb.tshad.getLsbD 63 then x.qcb.tshad.toNat % 2 ^ 63 else x.tail
        writing := [{ step := 0, patch :=
          { head := none, nseq := none, state := some 0, lasterr := none, tshad := some (BitVec.ofNat 64 (x.qcb.tshad.toNat % 2 ^ 63)) }, core := true, packet := false, irq := false }] } ∧
      Move.unit .packet p q 7 ∈ t.agenda) ∧
    (x.writing ≠ [] → ∀ i n, (i = .queueSwitchOut p q ∧ n = 3) ∨ (i = .queueSwitchIn p q ∧ n = 4) → UnitStep (exec i s) s fun t =>
      t.queue p q = x ∧ Move.unit .packet p q n ∈ t.agenda) ∧
    (x.writing = [] → st = 3 → ¬ resident → UnitStep (exec (.queueSwitchIn p q) s) s fun t => t.queue p q = x) ∧
    (st = 2 → UnitStep (exec (.queueRearm p q) s) s fun t => (resident → Begins s t p q (stateUpdate 0 false false)) ∧
      (¬ resident → Begins s t p q (stateUpdate 3 false false)) ∧
      (resident → x.now.head.toNat ≠ x.tail → ∃ e ∈ t.events, e.part = p ∧ e.q = q ∧ e.word.toNat / 2 ^ 56 = 1)) ∧
    (st ≠ 2 → exec (.queueRearm p q) s = .next s)) ∧
  (∀ (core : Nat) (s : State) (e : CmdEvent), (s.cmd core).event = some e →
    let tid : Tid := { kind := .command, unit := core, slot := 0 }
    (s.tick < (s.cmd core).since + 2 ^ 20 → exec (.watchdogExpire core) s = .next s) ∧
    ((s.cmd core).since + 2 ^ 20 ≤ s.tick → s.cur.id ≠ tid → e.word.toNat / 2 ^ 56 = 1 →
      (e.recovery = false → UnitStep (exec (.watchdogExpire core) s) s fun t => (t.cmd core).event = none ∧
        (∃ x ∈ t.events, x.recovery = true ∧ x.part = e.part ∧ x.q = e.q ∧ x.word.toNat / 2 ^ 56 = 6 ∧ x.word.toNat % 2 ^ 56 = e.word.toNat % 2 ^ 56) ∧
        (∃ th, t.thread? tid = some th ∧ th.wait = .idle ∧ th.regs.pc = 0 ∧ (∀ r : Reg, th.regs.readG r = 0) ∧ th.regs.event = 0) ∧
        (t.queue e.part e.q).writing = ((s.queue e.part e.q).writing.filter fun w => !w.core).map (fun w => { w with step := 0 }) ∧
        ((s.queue e.part e.q).qcb.seqw.getLsbD 0 = true → (t.queue e.part e.q).qcb = (s.queue e.part e.q).shadow) ∧
        ((s.queue e.part e.q).qcb.seqw.getLsbD 0 = false → (s.queue e.part e.q).shadow.seqw.getLsbD 0 = true →
          (t.queue e.part e.q).shadow = (s.queue e.part e.q).qcb))) ∧
    (e.recovery = true → e.word.toNat / 2 ^ 56 = 6 → (s.cmd core).since + 2 ^ 20 ≤ s.tick → s.cur.id ≠ tid → ∃ t : State,
      exec (.watchdogExpire core) s = .next t ∧ t.cur = s.cur ∧ t.mem = s.mem ∧
        (∃ w ∈ (t.queue e.part e.q).writing, w.irq = true ∧ ∃ v, w.patch.state = some v ∧ v.toNat % 2 ^ 16 = 7 * 2 ^ 8 + 2) ∧
        ∃ x ∈ t.pf.errors, x.kind = .queueHalted ∧ x.unit = e.part) ∧
    (e.recovery = true → (s.part e.part).vacant = false → (s.part e.part).resident = queueCtx s e.part e.q →
      ∃ t : State, exec (.watchdogRecovery core) s = .next t ∧ t = { s with agenda := t.agenda } ∧
        ∀ n, (n, (s.queue e.part e.q).now.state.toNat % 256) ∈ [(0, 0), (2, 1), (4, 3)] → Move.unit .packet e.part e.q n ∈ t.agenda) ∧
    (e.recovery = false → exec (.watchdogRecovery core) s = .next s))

/-- R375, R383, R322, R215, R407, R412: a host access that an HDM decoder leads to a populated address reads or writes the line's home, and a read's
bytes go to the host; behind one that waits, or at a home that serves others first, it waits; the host's advance of `SVCHEAD` lets the waiting request
enter the ring; a page response wakes the thread that waits for the page, by a retry or with the trap; data of a peer land, with their poison, at the
rope's context, the last of them counted at the rope and acknowledged; without a rope the data wait for the last, and the whole range has to lie in an
open umbra. What an access that no decoder leads to a populated address does is the model's choice (log 51), and that the data wait is too (log 20).
-/
def HostAndPeerAccesses : Prop :=
  (∀ (s : State) (n ha : Nat) (d : HdmDecoder), s.pf.hdm = [(n, d)] →
    let pa := d.target + (ha - d.base)
    let reached : Prop := d.base ≤ ha ∧ ha < d.base + d.len ∧ pa < 2 ^ 41 ∧ pa % 2 ^ 35 < 20 * 2 ^ 30
    (reached → s.decodeHdm ha = some pa) ∧ (¬ reached → s.decodeHdm ha = none)) ∧
  (∀ (s : State) (ha size : Nat) (v : Word), size ≤ 8 → s.inbound = [] → HomesFree s →
    (s.decodeHdm ha = none → exec (.hostCxlMemAccess true ha size v) s = .next s ∧
      ∃ (t : State) (bs : List Byte), exec (.hostCxlMemAccess false ha size v) s = .next t ∧
        t = { s with sent := s.sent ++ [.hostData ha bs false], fresh := t.fresh } ∧ bs.length = size) ∧
    (∀ pa, s.decodeHdm ha = some pa →
      (∃ poison : Bool, exec (.hostCxlMemAccess false ha size v) s =
        .next { s with sent := s.sent ++ [.hostData ha ((List.range size).map fun i => s.mem.read (pa + i)) poison] }) ∧
      (Canonical s → (∀ e ∈ s.parts, e.2.enabled = false) → ∃ t : State, exec (.hostCxlMemAccess true ha size v) s = .next t ∧
        t.cur = s.cur ∧ Stored s t (.phys pa) size v.toNat))) ∧
  (∀ (s : State) (write : Bool) (ha size : Nat) (v : Word),
    s.inbound ≠ [] ∨ (∃ pa, s.decodeHdm ha = some pa ∧ s.agentWaits (s.hostLoc pa) 0 = true) →
    ∃ t : State, exec (.hostCxlMemAccess write ha size v) s = .next t ∧ Move.unit .inbound 0 0 0 ∈ t.agenda ∧
      t = { s with inbound := s.inbound ++ [.access write ha size v], agenda := t.agenda }) ∧
  (∀ (s : State) (p : Nat) (v : Word),
    (s.syscs = [] → UnitStep (exec (.svcheadWrite p v) s) s fun t => t.part p = { s.part p with svcHead := v.toNat } ∧ t.hostMem = s.hostMem) ∧
    (∀ x u, s.syscs = [x] → x.part = p → x.sent = false → (s.mapPart p fun t => { t with svcHead := v.toNat }).putService x = some u →
      ∃ t : State, exec (.svcheadWrite p v) s = .next t ∧ t.cur = s.cur ∧ t.hostMem = u.hostMem ∧ t.irqs = u.irqs ∧
        t.syscs = [{ x with sent := true }])) ∧
  (∀ (s : State) (n : Word) (trap : TrapRec) (k : Task), s.cur.wait = .fault n trap → s.cur.task = some k → k.host ≠ none →
    (∃ t : State, exec (.atsPageResponse s.cur.id 0) s = .next t ∧ t.cur = { s.cur with wait := .ready, mid := true } ∧ SameBytes s t) ∧
    (Enters s → trap.kind ≠ 0x05 → trap.kind ≠ 0x06 → ∀ j : BitVec 2, j = 1 ∨ j = 2 →
      ∃ t : State, exec (.atsPageResponse s.cur.id j) s = .next t ∧ SameBytes s t ∧ t.cur.regs.tpc = s.pc ∧
        t.cur.regs.pc = s.cur.regs.tvec ∧ t.cur.regs.tkind = (if j = 1 then 0x04 else 0x03) ∧ t.cur.regs.taddr = trap.taddr ∧
        t.cur.wait = .ready) ∧
    exec (.atsPageResponse s.cur.id 3) s = .next s) ∧
  (∀ (s u : State) (p : Nat) (rdst rtgt len : Word) (data : List Byte) (poison : List Bool) (pub : Bool) (g : Nat), rtgt ≠ 0 → s.inbound = [] → HomesFree s → Canonical u →
    u.faults = [] →
    let c := (s.part p).resident
    s.packetWord p c rdst 1 1 0 = some (g, u) → (∃ a, u.physOf p g = some a ∧ a % 64 + data.length ≤ 64) →
    (∀ j < data.length, (u.part p).windowAt (g + j) = none) →
    (∃ t : State, exec (.rcopyRemoteArrival p rdst ⟨data, poison⟩ false rtgt pub len) s = .next t ∧ t.cur = u.cur ∧
      (data.length = 64 → poison.length = 8 → g % 64 = 0 → ∀ j < 8, t.dwordPoisoned (.dram p (g + 8 * j)) = poison.getD j false) ∧
      ∀ a, u.physOf p g = some a → ∀ x, t.mem.read x = if a ≤ x ∧ x < a + data.length then data.getD (x - a) 0 else u.mem.read x) ∧
    ∀ g' v, ((u.writeBy 0 (.dram p g) data poison).releasePrt 0).packetWord p c rtgt 16 1 16 = some (g', v) → (∃ a, v.physOf p g' = some a) → g' % 16 = 0 →
      (∀ j < 16, (v.part p).windowAt (g' + j) = none) →
      ¬ brokenOf (v.readD p g') → len.toNat ≤ (v.readD p (g' + 8)).toNat → ¬ (pendOf (v.readD p g') = 0 ∧ (v.readD p (g' + 8)).toNat = len.toNat) →
      Canonical v → ∃ t : State, exec (.rcopyRemoteArrival p rdst ⟨data, poison⟩ true rtgt pub len) s = .next t ∧ t.cur = v.cur ∧
        Stored v t (.dram p (g' + 8)) 8 ((v.readD p (g' + 8)).toNat - len.toNat) ∧
        .rcopyAck p (rdst + BitVec.ofNat 64 data.length - len) rtgt len.toNat 0 ∈ t.sent) ∧
  (∀ (s : State) (p : Nat) (rdst len : Word) (data : List Byte) (poison : List Bool) (pub : Bool),
    let base := rdst + BitVec.ofNat 64 data.length - len
    let last := exec (.rcopyRemoteArrival p rdst ⟨data, poison⟩ true 0 pub len) s
    exec (.rcopyRemoteArrival p rdst ⟨data, poison⟩ false 0 pub len) s =
      .next { s with arrivals := s.arrivals ++ [{ part := p, va := rdst, data := data, poison := poison }] } ∧
    ((∀ u ∈ (s.part p).umbras, u.ctx ≠ (s.part p).resident ∨ u.cut = true ∨ base.toNat < u.base ∨ u.base + u.len < base.toNat + len.toNat) →
      UnitStep last s fun t => t.mem = s.mem ∧ t.sent = s.sent ++ [.rcopyAck p base 0 len.toNat 3]) ∧
    (∀ u, (s.part p).umbras = [u] → u.ctx = (s.part p).resident → u.cut = false → u.base ≤ base.toNat → base.toNat + len.toNat ≤ u.base + u.len →
      ∃ t : State, last = .next t ∧ t.cur = s.cur ∧
        (pub = false → .rcopyAck p base 0 len.toNat 0 ∈ t.sent) ∧
        (pub = true → (∃ y ∈ (t.part p).umbras, y.id = u.id ∧ y.cut = true ∧ y.remote = some (base, len.toNat)) ∧
          Move.unit .flip p u.id 0 ∈ t.agenda)))

end Sys2Proof.Claims

namespace Sys2Proof.Claims

/-! ### Partitions (22 R396 to R421) -/

/-- The bits of a `PDESC` word that name fields (22 R396). -/
def pdescFields (v : Word) : Nat :=
  v.toNat / 2 ^ 59 * 2 ^ 59 + v.toNat / 2 ^ 48 % 2 ^ 6 * 2 ^ 48 + v.toNat / 2 ^ 8 % 2 ^ 6 * 2 ^ 8 + v.toNat % 2 ^ 6

/-- The first and last column and the `VMID` that a `PDESC` word names. -/
def firstOf (v : Word) : Nat := v.toNat % 2 ^ 6
def lastOf (v : Word) : Nat := v.toNat / 2 ^ 8 % 2 ^ 6
def vmidOf (v : Word) : Nat := v.toNat / 2 ^ 48 % 2 ^ 6

/-- A `PDESC` word may create a partition (22 R397): its columns are free, none of their frames is owned, and its `VMID` is in no other use. -/
def Creates (s : State) (p : Nat) (v : Word) : Prop :=
  firstOf v ≤ lastOf v ∧
  (∀ e ∈ s.parts, e.1 ≠ p → e.2.enabled = true → (lastOf v < firstOf e.2.pdesc ∨ lastOf e.2.pdesc < firstOf v) ∧ vmidOf e.2.pdesc ≠ vmidOf v) ∧
  ∀ e ∈ s.frames, firstOf v ≤ e.1 / 640 → e.1 / 640 ≤ lastOf v → ∀ m, e.2 ≠ .owned m

/-- A queue as the driver assigns it (21 R377, R385): a ring of 4 KiB to 1 MiB, aligned to its size, empty, and for its VF; a queue of a context other
than the first, which a new partition runs, is switched out (21 R387). Which ring, and whether the queue is enabled, is the driver's choice (log 52).
-/
def Assigned (x : Queue) (p : Nat) : Prop :=
  let size := x.qcb.ctrl.toNat % 32
  12 ≤ size ∧ size ≤ 20 ∧ x.qcb.base.toNat % 2 ^ size = 0 ∧ x.qcb.ctrl.toNat / 2 ^ 8 % 2 ^ 8 = p ∧ x.qcb.head = 0 ∧ x.tail = 0 ∧
  x.qcb.state = (if x.qcb.ctrl.toNat / 2 ^ 16 % 2 ^ 3 = 0 then 0 else 3) ∧ x.shadow = x.qcb

/-- R397: a write of `PDESC` with `EN` creates the partition, with its clusters running and its queues assigned, or is refused. -/
def PartitionsAreCreated : Prop :=
  ∀ (p : Nat) (v : Word) (s : State), p < 64 → (s.part p).enabled = false → v.getLsbD 63 = true →
    (∀ e ∈ s.parts, e.2.enabled = true → firstOf e.2.pdesc ≤ lastOf e.2.pdesc) →
    (Creates s p v → ∃ t : State, exec (.pdescWrite p v) s = .next t ∧ t.cur = s.cur ∧ t.mem = s.mem ∧ (t.part p).pdesc.toNat = pdescFields v ∧
      (t.part p).running = true ∧ (t.part p).resident = 0 ∧ (t.part p).vacant = false ∧
      (∀ l, l < 8 * (lastOf v + 1 - firstOf v) → (t.cluster (8 * firstOf v + l)).stopped = false) ∧
      (∀ q, q < 16 → Assigned (t.queue p q) p) ∧ ∀ j, j ≠ p → t.part j = s.part j) ∧
    (¬ Creates s p v → exec (.pdescWrite p v) s = .next s)

/-- R397: a write of `PDESC` of an enabled partition destroys it while it is stopped, and else changes nothing. -/
def PartitionsAreDestroyed : Prop :=
  ∀ (p : Nat) (v : Word) (s : State), p < 64 → (s.part p).enabled = true →
    (pdescFields v + 2 ^ 63 ≠ (s.part p).pdesc.toNat ∨ (s.part p).stopped = false → exec (.pdescWrite p v) s = .next s) ∧
    (pdescFields v + 2 ^ 63 = (s.part p).pdesc.toNat → (s.part p).stopped = true → ∃ t : State, exec (.pdescWrite p v) s = .next t ∧
      t.cur = s.cur ∧ t.mem = s.mem ∧ (t.part p).enabled = false ∧ ∀ r ∈ t.regs, r.part ≠ p)

/-- R396, R398: `PSHARE` takes a mask of a legal population, and `UMBPOOL` changes while no umbra is open. -/
def ShareAndPool : Prop :=
  ∀ (p : Nat) (v : Word) (s : State), p < 64 →
    let mask := v.toNat / 2 ^ 48
    let k := ((List.range 16).filter fun i => v.getLsbD (48 + i)).length
    let share : Word := BitVec.ofNat 64 ((if k = 1 ∨ k = 2 ∨ k = 4 ∨ k = 8 ∨ k = 16 then mask else 0) * 2 ^ 48 + v.toNat % 2 ^ 8)
    let pool : Word := BitVec.ofNat 64 (v.toNat / 2 ^ 32 % 2 ^ 10 * 2 ^ 32 + v.toNat % 2 ^ 10)
    (UnitStep (exec (.pshareWrite p v) s) s fun t => t.part p = { s.part p with pshare := share }) ∧
    ((s.part p).umbras = [] → UnitStep (exec (.umbpoolWrite p v) s) s fun t => t.part p = { s.part p with umbpool := pool }) ∧
    ((s.part p).umbras ≠ [] → exec (.umbpoolWrite p v) s = .next s)

/-- R410: a shoot-down takes the next number and goes to every TLB of the partition. -/
def ShootDownsAreIssued : Prop :=
  ∀ (p : Nat) (v : Word) (s : State), (s.part p).enabled = true → firstOf (s.part p).pdesc ≤ lastOf (s.part p).pdesc →
    UnitStep (exec (.sdctlShootdown p v) s) s fun t =>
      (t.part p).sdIssued = ((s.part p).sdIssued + 1) % 2 ^ 32 ∧ (t.part p).sdDone = (s.part p).sdDone ∧
      ∃ d tlbs, (t.part p).sdPend = (s.part p).sdPend ++ [(d, tlbs)] ∧ d.num = (t.part p).sdIssued ∧ d.part = p ∧
        (d.all = true ↔ v.getLsbD 63 = true) ∧ (d.any = true ↔ v.getLsbD 62 = true) ∧ d.asid = v.toNat % 2 ^ 16 ∧
        d.first = (s.part p).sdva.toNat / 2 ^ 16 ∧ d.pages = v.toNat / 2 ^ 32 % 2 ^ 16 + 1 ∧
        (∀ l, l < 8 * (lastOf (s.part p).pdesc + 1 - firstOf (s.part p).pdesc) → 8 * firstOf (s.part p).pdesc + l ∈ tlbs ∧
          Move.unit .shootdown p (8 * firstOf (s.part p).pdesc + l) 0 ∈ t.agenda) ∧
        ∀ base col, base < 16 → firstOf (s.part p).pdesc ≤ col → col ≤ lastOf (s.part p).pdesc → base / 4 = col / 16 → base % 2 = col % 16 / 8 →
          512 + base ∈ tlbs ∧ Move.unit .shootdown p (512 + base) 0 ∈ t.agenda

/-- R410, R411: a TLB removes what a shoot-down covers, and the last TLB completes it. -/
def ShootDownsAreReceived : Prop :=
  ∀ (p cl : Nat) (d : Shootdown) (left : List Nat) (s : State), (s.part p).sdPend = [(d, left)] → cl ∈ left → cl < 512 → d.part = p →
    let covers (vmid asid : Nat) (glob : Bool) (page n : Nat) : Prop := vmid = (s.part p).vmid ∧
      (d.all = true ∨ ((d.any = true ∨ glob = true ∨ asid = d.asid) ∧ page < d.first + d.pages ∧ d.first < page + n))
    UnitStep (exec (.shootdownReceive p cl) s) s fun t =>
      (∀ e : TlbEntry, e.host = false → (e ∈ (t.cluster cl).tlb ↔
        e ∈ (s.cluster cl).tlb ∧ ¬ covers e.vmid e.asid e.glob (e.va / 2 ^ e.bits * 2 ^ e.bits / 2 ^ 16) (2 ^ (e.bits - 16)))) ∧
      (∀ k, ∀ e ∈ (t.cluster cl).utlb.getD k [], e.host = false → ¬ covers e.vmid e.asid e.glob (e.va / 2 ^ e.bits * 2 ^ e.bits / 2 ^ 16) (2 ^ (e.bits - 16))) ∧
      d ∈ (t.cluster cl).shots ∧
      ((∀ x ∈ left, x = cl) → (t.part p).sdDone = d.num ∧ (t.part p).sdPend = []) ∧
      ((∃ x ∈ left, x ≠ cl) → (t.part p).sdDone = (s.part p).sdDone ∧ (t.part p).sdPend = [(d, left.filter fun x => x != cl)]) ∧
      (t.part p).sdIssued = (s.part p).sdIssued

/-- R396 to R398, R410, R411: a write of `PDESC` creates or destroys its partition where R397 lets it, and otherwise changes nothing; `PSHARE` takes a
mask of a legal population; `UMBPOOL` changes while no umbra is open; a shoot-down takes the next number, goes to every TLB, removes what it covers from
each at its receipt, and is complete when the last has received it. -/
def PartitionRegisters : Prop :=
  PartitionsAreCreated ∧ PartitionsAreDestroyed ∧ ShareAndPool ∧ ShootDownsAreIssued ∧ ShootDownsAreReceived

/-- The fields of a stage-2 command that lie in range (22 R404). -/
structure S2Fields (s : State) (p : Nat) (v : Word) (col guest frame : Nat) : Prop where
  part   : p < 64 ∧ (s.part p).s2busy = false ∧ (s.part p).enabled = true
  column : col = firstOf (s.part p).pdesc + v.toNat / 2 ^ 48 % 2 ^ 6 ∧ col ≤ lastOf (s.part p).pdesc
  guest  : guest = v.toNat / 2 ^ 32 % 2 ^ 10 ∧ guest < 640
  frame  : frame = v.toNat % 2 ^ 10

/-- A stage-2 command has only recorded a result. -/
def S2Refuses (o : Out) (s : State) (p code : Nat) : Prop :=
  UnitStep o s fun t => t = { s with parts := t.parts } ∧ t.part p = { s.part p with s2res := code }

/-- R404: a busy partition ignores its commands; an unassigned or out-of-range one is refused. -/
def StageTwoStops : Prop :=
  ∀ (p : Nat) (v : Word) (s : State), p < 64 →
    ((s.part p).s2busy = true → exec (.s2Install p v) s = .next s ∧ exec (.s2Free p v) s = .next s ∧ exec (.s2Protect p v) s = .next s ∧
      exec (.s2cmdUnassigned p v) s = .next s) ∧
    ((s.part p).s2busy = false → S2Refuses (exec (.s2cmdUnassigned p v) s) s p 5) ∧
    ((s.part p).s2busy = false → (s.part p).enabled = true → lastOf (s.part p).pdesc < firstOf (s.part p).pdesc + v.toNat / 2 ^ 48 % 2 ^ 6 ∨
        640 ≤ v.toNat / 2 ^ 32 % 2 ^ 10 →
      S2Refuses (exec (.s2Install p v) s) s p 4 ∧ S2Refuses (exec (.s2Free p v) s) s p 4 ∧ S2Refuses (exec (.s2Protect p v) s) s p 4)

/-- R404 to R406: what install, free and protect do. -/
def StageTwoActs : Prop :=
  ∀ (p : Nat) (v : Word) (s : State) (col guest frame : Nat), S2Fields s p v col guest frame →
    let key := col * 640 + guest
    let phys := col * 640 + frame
    let state := s.frames.getD phys .clean
    (640 ≤ frame → S2Refuses (exec (.s2Install p v) s) s p 4) ∧
    (frame < 640 → state ≠ .clean → S2Refuses (exec (.s2Install p v) s) s p 1) ∧
    (frame < 640 → state = .clean → s.s2map.get? key ≠ none → S2Refuses (exec (.s2Install p v) s) s p 2) ∧
    (frame < 640 → state = .clean → s.s2map.get? key = none → ∃ t : State, exec (.s2Install p v) s = .next t ∧ t.cur = s.cur ∧ t.mem = s.mem ∧
      t.s2map.get? key = some { w := v.getLsbD 61, frame := frame } ∧ (∀ k, k ≠ key → t.s2map.get? k = s.s2map.get? k) ∧
      t.frames.getD phys .clean = .owned (vmidOf (s.part p).pdesc) ∧ (∀ k, k ≠ phys → t.frames.getD k .clean = s.frames.getD k .clean) ∧
      (t.part p).s2res = 0 ∧ (t.part p).s2busy = false) ∧
    (s.s2map.get? key = none → S2Refuses (exec (.s2Free p v) s) s p 3 ∧ S2Refuses (exec (.s2Protect p v) s) s p 3) ∧
    (∀ e, s.s2map.get? key = some e →
      (∃ t : State, exec (.s2Free p v) s = .next t ∧ t.cur = s.cur ∧ t.mem = s.mem ∧ t.s2map.get? key = none ∧
        (∀ k, k ≠ key → t.s2map.get? k = s.s2map.get? k) ∧ t.frames.getD (col * 640 + e.frame) .clean = .dirty ∧
        (t.part p).s2busy = true ∧ (t.part p).s2res = 0 ∧ (t.part p).scrub = some (col, e.frame) ∧ Move.unit .scrubDone p 0 0 ∈ t.agenda ∧
        let inFrame (m line : Nat) : Prop := s.frames.getD (col * 640 + e.frame) .clean = .owned m ∧ line / 2 ^ 19 = (v.toNat / 2 ^ 48 % 2 ^ 6) * 2 ^ 10 + guest
        (∀ x ∈ t.l2, ¬ inFrame x.vmid x.line) ∧ (∀ c, ∀ x ∈ (t.cluster c).l1, ¬ inFrame x.vmid x.line) ∧
        ∀ c, ∀ x ∈ (t.die c).rdc, ¬ inFrame x.vmid x.line) ∧
      (∃ t : State, exec (.s2Protect p v) s = .next t ∧ t.cur = s.cur ∧ t.mem = s.mem ∧
        t.s2map.get? key = some { e with w := v.getLsbD 61 } ∧ (∀ k, k ≠ key → t.s2map.get? k = s.s2map.get? k) ∧ (t.part p).s2res = 0 ∧
        (v.getLsbD 61 = true → (t.part p).s2busy = false) ∧
        (v.getLsbD 61 = false → (t.part p).s2busy = true ∧ Move.unit .writebackDone p 0 0 ∈ t.agenda)))

/-- R406: the scrub zeroes the frame. -/
def FramesAreScrubbed : Prop :=
  ∀ (p col frame : Nat) (s : State), (s.part p).scrub = some (col, frame) → Canonical s →
    ∃ t : State, exec (.frameScrubDone p) s = .next t ∧ t.cur = s.cur ∧ t.frames.getD (col * 640 + frame) .clean = .clean ∧
      (t.part p).s2busy = false ∧ (t.part p).scrub = none ∧
      (∀ x, t.mem.read x = if col * 2 ^ 35 + frame * 2 ^ 25 ≤ x ∧ x < col * 2 ^ 35 + (frame + 1) * 2 ^ 25 then 0 else s.mem.read x)

/-- R405: the write-backs of a protect clear the marks. -/
def WriteBacksEnd : Prop :=
  ∀ (p col guest : Nat) (s : State), (s.part p).writeback = some (col, guest) → firstOf (s.part p).pdesc ≤ col → guest < 640 →
    UnitStep (exec (.protectWritebackDone p) s) s fun t => (t.part p).s2busy = false ∧ (t.part p).writeback = none ∧
      ∀ x ∈ t.l2, x.vmid = (s.part p).vmid → x.line / 2 ^ 19 = (col - firstOf (s.part p).pdesc) * 2 ^ 10 + guest → x.mark = false ∧ x.dirty = false

/-- R406: without a scrub under way nothing changes. -/
def ScrubsOnlyOnce : Prop :=
  ∀ (p : Nat) (s : State), (s.part p).scrub = none → exec (.frameScrubDone p) s = .next s

/-- R405, R408: `S2WAKE` ends the wait of its token, and a stale token does nothing. -/
def WakesOfStageTwo : Prop :=
  ∀ (p : Nat) (v : Word) (s : State) (f : FaultTok) (trap : TrapRec),
    (v.toNat % 4 = 3 ∨ (∀ x ∈ s.faults, x.part = p → x.token ≠ (s.part p).s2tok) → exec (.s2wakeWrite p v) s = .next s) ∧
    (s.faults = [f] → f.token = (s.part p).s2tok → f.part = p → f.waiters = [.thread s.cur.id] → s.cur.wait = .fault f.token trap →
      (v.toNat % 4 = 0 → ∃ t : State, exec (.s2wakeWrite p v) s = .next t ∧ SameBytes s t ∧ t.cur = { s.cur with wait := .ready, mid := true } ∧
        t.faults = []) ∧
      (∀ k, v.toNat % 4 = k → k = 1 ∨ k = 2 → Enters s → trap.kind ≠ 0x05 → trap.kind ≠ 0x06 →
        ∃ t : State, exec (.s2wakeWrite p v) s = .next t ∧ SameBytes s t ∧ t.faults = [] ∧ t.cur.wait = .ready ∧ t.cur.regs.pc = s.cur.regs.tvec ∧
          t.cur.regs.tpc = s.pc ∧ t.cur.regs.tkind = (if k = 1 then 0x04 else 0x03) ∧ t.cur.regs.taddr = trap.taddr))

/-- R404 to R406: install maps a clean frame to an unmapped guest frame and makes it the partition's; free unmaps it, purges its lines, and reads busy
until the scrub has zeroed it; protect sets the write permission, with 0 busy until the write-backs are done; each command is refused with its code,
and ignored while another is busy. -/
def StageTwoCommands : Prop :=
  StageTwoStops ∧ StageTwoActs ∧ FramesAreScrubbed ∧ WriteBacksEnd ∧ ScrubsOnlyOnce ∧ WakesOfStageTwo

/-- A sweep of a partition has begun, from logical cluster 0 (22 R415). -/
def SweepBegins (t : State) (p : Nat) (inc : Option Nat) : Prop :=
  (t.part p).sweep = some inc ∧ (t.part p).swept = 0 ∧ (t.part p).switching = [] ∧ Move.unit .token p 0 0 ∈ t.agenda

/-- A save area's bytes in memory (22 R417): the scratchpad at 0x120000 and the n-th tile at 0x0A0000 + 16 KiB × n. -/
def AreaHolds (m : Memory) (at_ : Nat) (k : Cluster) : Prop :=
  (∀ o, o < 768 * 1024 → m.read (at_ + 0x120000 + o) = k.scratch.read o) ∧
  ∀ n x, k.tiles[n]? = some x → ∀ o, o < 16384 → m.read (at_ + 0xA0000 + n * 16384 + o) = x.data.read o

/-- R414 to R418, R421: a slice end starts the token, which stops each cluster and passes on; a stopped cluster marks its save area and then saves its
outgoing context and loads the incoming one, the scratchpad and the tiles through memory where stage 2 maps the area; when the last has resumed, the
incoming context is resident; a stop saves and loads none, then the final report stands and the partition reads stopped; the report has one bit for
each 64 KiB written. What of an area stands in no layout of the spec is kept beside memory (log 17). -/
def ContextsAreSwitched : Prop :=
  (∀ (p : Nat) (v : Word) (s : State),
    let x := s.part p
    let c := v.toNat / 2 ^ 8 % 8
    (x.enabled = true → x.sweep = none → x.stopReq = false → x.resetting = false → x.evictedAt = none → c ≤ x.pdesc.toNat / 2 ^ 59 % 8 →
      UnitStep (exec (.ctxcmdSliceEnd p v) s) s fun t => SweepBegins t p (some c)) ∧
    (x.sweep ≠ none → exec (.ctxcmdSliceEnd p v) s = .next s) ∧
    (x.enabled = true → x.stopped = false → x.resetting = false → x.sweep = none →
      UnitStep (exec (.ctxcmdStop p v) s) s fun t => (t.part p).stopReq = true ∧
        (x.vacant = false → SweepBegins t p none) ∧ (x.vacant = true → Move.unit .token p x.clusters 0 ∈ t.agenda)) ∧
    exec (.ctxcmdIgnored p v) s = .next s ∧
    (∃ t : State, exec (.ctxcmdDirtyReport p v) s = .next t ∧ t.cur = s.cur ∧ t.mem = s.mem ∧ (t.part p).dirty = [] ∧
      (s.hostMem.wf = true → (∀ col n, col ≤ lastOf x.pdesc - firstOf x.pdesc → n < 40 * 1024 → firstOf x.pdesc ≤ lastOf x.pdesc →
        ∀ j, j < 8 → (t.hostMem.read (x.dirtylog.toNat + col * (40 * 1024) + n)).getLsbD j =
          decide (col * 2 ^ 19 + n * 8 + j ∈ x.dirty)) ∧
        ∀ a, a < x.dirtylog.toNat ∨ x.dirtylog.toNat + 40 * 1024 * (lastOf x.pdesc + 1 - firstOf x.pdesc) ≤ a →
          t.hostMem.read a = s.hostMem.read a))) ∧
  (∀ (p l : Nat) (inc : Option Nat) (s : State), (s.part p).enabled = true → (s.part p).sweep = some inc →
    let x := s.part p
    let o := exec (.terminatorTokenArrive p l) s
    let cl := 8 * firstOf x.pdesc + l
    let c := x.resident
    (l < x.clusters → l = x.swept → UnitStep o s fun t => (t.part p).swept = l + 1 ∧ (t.part p).switching = x.switching ++ [l] ∧
      (t.cluster cl).stopped = true ∧ Move.unit .token p (l + 1) 0 ∈ t.agenda ∧ Move.unit .token p l 0 ∈ t.agenda) ∧
    let at_ (d : Nat) : Nat := x.savebase.toNat + (8 * l + d) * 2 ^ 22
    (l < x.clusters → l < x.swept → l ∈ x.switching → x.vacant = false → s.canSwitch p l c = true →
      ((∀ y ∈ x.saves, ¬ (y.l = l ∧ y.c = c ∧ y.valid = 1)) → ∃ t : State, o = .next t ∧ t.cur = s.cur ∧ (t.part p).switching = x.switching ∧
        (∃ y ∈ (t.part p).saves, y.l = l ∧ y.c = c ∧ y.valid = 1) ∧ Move.unit .token p l 0 ∈ t.agenda ∧
        (Canonical s → x.conf.windows = [] → x.savebase.toNat % 2 ^ 22 = 0 → t.physOf p (at_ c) ≠ none → t.readD p (at_ c) = 1)) ∧
      ((∃ y ∈ x.saves, y.l = l ∧ y.c = c ∧ y.valid = 1) →
       ∃ t : State, o = .next t ∧ l ∉ (t.part p).switching ∧ ((∀ y ∈ x.switching, y = l) → Move.unit .token p x.clusters 0 ∈ t.agenda) ∧
        (inc ≠ some c → ∃ a ∈ (t.part p).saves, a.l = l ∧ a.c = c ∧ a.valid = 2 ∧
          (s.physOf p (at_ c) = none → a.cluster.scratch = (s.cluster cl).scratch ∧ a.cluster.tiles = (s.cluster cl).tiles) ∧
          (inc = none → Canonical s → x.conf.windows = [] → (∀ y ∈ (s.cluster cl).tiles, y.data.wf = true) → (s.cluster cl).tiles.length ≤ 32 →
            x.savebase.toNat % 2 ^ 22 = 0 → ∀ m, s.physOf p (at_ c) = some m → AreaHolds t.mem m (s.cluster cl) ∧ t.readD p (at_ c) = 2) ∧
          a.cluster.sets = (s.cluster cl).sets ∧ a.cluster.wps = (s.cluster cl).wps ∧
          (∀ e ∈ (s.cluster cl).readyQ, e.part = p → e.ctx = c → e ∈ a.cluster.readyQ) ∧
          ∀ th ∈ s.cur :: s.others, th.id.kind = .barrel → th.id.unit = cl → th.wait ≠ .free → (∃ k, th.task = some k ∧ k.part = p ∧ k.ctx = c) →
            ∃ u ∈ a.threads, u.id = th.id ∧ u.regs = th.regs ∧ u.task = th.task ∧ u.tq = th.tq) ∧
        (inc = none → ((s.cur :: s.others).map fun th => th.id).Nodup → (t.cluster cl).scratch = [] ∧ (t.cluster cl).tiles = [] ∧
          ∀ th ∈ t.cur :: t.others, th.id.kind = .barrel → th.id.unit = cl → th.wait ≠ .free → ∀ k, th.task = some k → ¬ (k.part = p ∧ k.ctx = c)))) ∧
    (l < x.clusters → l < x.swept → l ∈ x.switching → x.vacant = true → ∀ d a, inc = some d → s.savedAt p l d = some a → a.hosts = [] → a.cluster.tiles.length ≤ 32 →
      (∀ b ∈ x.inboxes, b.items = []) → (∀ th ∈ a.threads, ∀ k r, th.wait ≠ .woken k r) →
      ∃ t : State, o = .next t ∧ l ∉ (t.part p).switching ∧
        (s.physOf p (at_ d) = none → (t.cluster cl).scratch = a.cluster.scratch ∧ (t.cluster cl).tiles = a.cluster.tiles) ∧
        (Canonical s → x.conf.windows = [] → x.savebase.toNat % 2 ^ 22 = 0 → ∀ m, s.physOf p (at_ d) = some m → AreaHolds s.mem m (t.cluster cl) ∧
          (t.cluster cl).tiles.map (fun y => (y.owner, y.shape)) = a.cluster.tiles.map fun y => (y.owner, y.shape)) ∧
        (t.cluster cl).sets = a.cluster.sets ∧ (t.cluster cl).wps = a.cluster.wps ∧ (∀ e ∈ a.cluster.readyQ, e ∈ (t.cluster cl).readyQ) ∧
        ((a.threads.map fun th => th.id).Nodup → ∀ th ∈ a.threads, ∃ u ∈ t.cur :: t.others,
          u.id = th.id ∧ u.regs = th.regs ∧ u.task = th.task)) ∧
    (x.clusters ≤ l → x.swept = x.clusters + 1 → x.switching = [] → x.stopReq = false → x.shed = 0 → s.pf.pcapLate = none →
      inc ≠ none ∨ x.evictedAt = none →
      UnitStep o s fun t => (t.part p).sweep = none ∧ (∀ d, inc = some d → (t.part p).resident = d ∧ (t.part p).vacant = false) ∧
        (inc = none → (t.part p).vacant = true))) ∧
  (∀ (p l : Nat) (s : State), (s.part p).sweep = none → (s.part p).stopReq = true → (s.part p).vacant = true →
    ((∀ q ∈ s.reqs, q.part ≠ p) → ∃ t : State, exec (.terminatorTokenArrive p l) s = .next t ∧ t.cur = s.cur ∧ t.mem = s.mem ∧
      (t.part p).stopped = true ∧ (t.part p).running = false ∧ (t.part p).dirty = []) ∧
    ((∃ q ∈ s.reqs, q.part = p ∧ q.kind ≠ .strm) → exec (.terminatorTokenArrive p l) s = .next s))

/-- R419, R294, R420: a drain command loads the drain image unless the fabric runs a stream of a context that is not resident, and a stream that it
cuts off ends, with its record due; a fabric that holds tokens and fires nothing for 2^20 ticks is reported, by an error record that names the fabric
(log 46); a function-level reset ends every task and disables every queue of its partition and leaves its frames and maps; the partition is then ready
again. -/
def DrainsAndResets : Prop :=
  (∀ (p : Nat) (v : Word) (s : State), (s.part p).enabled = true →
    let l := v.toNat / 2 ^ 16 % 2 ^ 9
    let f := v.toNat / 2 ^ 26 % 4
    let cl := 8 * firstOf (s.part p).pdesc + l
    let g := s.fabric cl f
    l < (s.part p).clusters → g.image ≠ none → g.loading = none → g.draining = false →
    (g.stream = none → UnitStep (exec (.ctxcmdFabricDrain p v) s) s fun t => (t.fabric cl f).draining = true ∧ (t.fabric cl f).packets = [] ∧
      Move.unit .fabRelease cl f 0 ∈ t.agenda) ∧
    (∀ x q, g.stream = some x → s.req? x.req = some q → (s.part p).sweep = none → (s.part p).vacant = false → (s.part p).resident ≠ q.ctx →
      exec (.ctxcmdFabricDrain p v) s = .next s) ∧
    (∀ x q, g.stream = some x → s.req? x.req = some q → (s.part p).sweep = none → (s.part p).vacant = false → (s.part p).resident = q.ctx →
      q.endKind = none → UnitStep (exec (.ctxcmdFabricDrain p v) s) s fun t => (t.fabric cl f).draining = true ∧
        (∃ r, t.req? x.req = some r ∧ r.endKind ≠ none ∧ r.stage = 1) ∧ Move.unit .engineDone x.req 0 0 ∈ t.agenda ∧
        Move.unit .fabRelease cl f 0 ∈ t.agenda)) ∧
  (∀ (cl f : Nat) (s : State),
    let g := s.fabric cl f
    (g.occupancy = 0 ∨ s.tick < g.firedAt + 2 ^ 20 → exec (.fabricHangReport cl f) s = .next s) ∧
    (g.occupancy ≠ 0 → g.firedAt + 2 ^ 20 ≤ s.tick → ∃ t : State, exec (.fabricHangReport cl f) s = .next t ∧ t.cur = s.cur ∧ t.mem = s.mem ∧
      (∃ x, t.pf.errors = s.pf.errors ++ [x] ∧ x.kind = .hang ∧ x.unit = cl * 4 + f) ∧ t.pf.errProd = s.pf.errProd + 1 ∧
      ∃ e ∈ t.events, e.word.toNat / 2 ^ 56 = 7)) ∧
  (∀ (p : Nat) (s : State),
    ((s.part p).enabled = false → exec (.functionLevelReset p) s = .next s) ∧
    ((s.part p).enabled = true → s.pf.pcapLate = none → ((s.cur :: s.others).map fun th => th.id).Nodup → ∃ t : State, exec (.functionLevelReset p) s = .next t ∧
      (∀ th ∈ t.cur :: t.others, ∀ k, th.task = some k → k.part ≠ p) ∧ t.frames = s.frames ∧ t.s2map = s.s2map ∧
      (∀ q x, (q, x) ∈ (t.part p).queues → x.qcb.ctrl.getLsbD 63 = false) ∧ (t.part p).abandoned = true ∧ (t.part p).running = false ∧
      (t.part p).pdesc = (s.part p).pdesc ∧ (∀ x ∈ t.faults, x.part ≠ p) ∧ (∀ x ∈ t.regs, x.part ≠ p) ∧ (t.part p).saves = [] ∧
      (∀ l c, (s.part p).clusters = l + 1 → (s.part p).pdesc.toNat / 2 ^ 59 % 8 = c → Canonical s → (s.part p).conf.windows = [] → (s.part p).savebase.toNat % 2 ^ 22 = 0 →
        t.physOf p ((s.part p).savebase.toNat + (8 * l + c) * 2 ^ 22) ≠ none → t.readD p ((s.part p).savebase.toNat + (8 * l + c) * 2 ^ 22) = 3)) ∧
    ((s.part p).resetting = true → (s.part p).stopReq = false → (s.part p).shed = 0 → (s.part p).evictedAt = none →
      UnitStep (exec (.vfResetComplete p) s) s fun t => (t.part p).resetting = false ∧ (t.part p).running = true) ∧
    ((s.part p).resetting = false → exec (.vfResetComplete p) s = .next s))

end Sys2Proof.Claims

namespace Sys2Proof.Claims

/-! ### The fleet (23 R422 to R434; 00 R7) -/

/-- The depth that a shedding entry names for a cap (23 R426): 3 evicted, 2 paused, 1 slowed, 0 none. -/
def shedDepth (w : Word) (cap : Nat) : Nat :=
  let evict := w.toNat % 2 ^ 12
  let pause := w.toNat / 2 ^ 12 % 2 ^ 12
  let slow := w.toNat / 2 ^ 24 % 2 ^ 12
  if w.getLsbD 63 = false ∨ pause ≤ evict ∨ slow ≤ pause then 0
  else if cap < evict then 3 else if cap < pause then 2 else if cap < slow then 1 else 0

/-- R423, R425, R426: a cap from 400 to 2000 W is taken and the shedding order evaluated at once: the named partition is slowed, its fabrics' limit
following its share, paused, its clusters no longer dispatching, or evicted by a sweep; another cap is ignored. -/
def CapsShedLoad : Prop :=
  ∀ (v : Word) (s : State),
    let cap := v.toNat % 2 ^ 12
    (cap < 400 ∨ 2000 < cap → exec (.pcapWrite v) s = .next s) ∧
    (400 ≤ cap → cap ≤ 2000 → (∀ e ∈ s.parts, ¬ (e.2.sweep ≠ none ∧ e.2.evictedAt ≠ none)) →
      UnitStep (exec (.pcapWrite v) s) s fun t => t.pf.pcap = cap ∧
        ∀ (p k : Nat) (x : Part) (w : Word), s.parts = [(p, x)] → x.enabled = true → s.pf.shedding = [(k, w)] → k < 64 →
          let d := if w.toNat / 2 ^ 56 % 2 ^ 6 = p then shedDepth w cap else 0
          let share := if d = 0 then 256 else w.toNat / 2 ^ 36 % 2 ^ 8
          (t.part p).shed = d ∧ (t.part p).share = share ∧
          (∀ l f, l < x.clusters → f < 4 → (t.fabric (8 * firstOf x.pdesc + l) f).limit = if d = 0 then 1024 else max 1 (1024 * share / 256)) ∧
          (∀ l, l < x.clusters → 2 ≤ d → (t.cluster (8 * firstOf x.pdesc + l)).stopped = true) ∧
          (∀ l, l < x.clusters → d < 2 → x.switching = [] → x.drain = [] → (t.cluster (8 * firstOf x.pdesc + l)).stopped = false) ∧
          (d = 3 → x.vacant = false → x.evictedAt = none → x.sweep = none → x.stopReq = false → x.stopped = false →
            SweepBegins t p none ∧ (t.part p).evictedAt = some x.resident))

/-- R427, R428: every armed entry is sampled; one whose sample crosses its threshold in its direction decrements its header's counter once and is
disarmed, fired, with the underflow marked if the counter was 0; any other keeps its sample. -/
def WatchesFire : Prop :=
  ∀ (s : State) (n unit : Nat) (w : Watch), s.pf.watches = [(n, w)] → w.wctl.getLsbD 63 = true → unit < 512 →
    w.wctl.toNat % 2 ^ 32 = 6 * 2 ^ 28 + unit * 2 ^ 16 →
    let v := (s.cluster unit).readyQ.length
    let p := w.wctl.toNat / 2 ^ 40 % 2 ^ 6
    let at_ := w.whdr.toNat + 0x18
    let ctrl := (s.readD p at_).toNat
    let rises (b : Nat) : Prop := if w.wctl.getLsbD 60 then w.wthr.toNat ≤ v ∧ b < w.wthr.toNat else v < w.wthr.toNat ∧ w.wthr.toNat ≤ b
    v < 2 ^ 32 →
    ((∀ b, w.last = some b → ¬ rises b) → UnitStep (exec .watchSample s) s fun t => t.pf.watches = [(n, { w with last := some v })]) ∧
    (∀ b, w.last = some b → rises b →
      (ctrl / 2 ^ 16 % 2 ^ 16 = 0 → UnitStep (exec .watchSample s) s fun t => ∃ x, t.pf.watches = [(n, x)] ∧ x.wctl.getLsbD 63 = false ∧
        x.wctl.getLsbD 62 = true ∧ x.wctl.getLsbD 61 = true ∧ x.wthr = w.wthr ∧ x.whdr = w.whdr) ∧
      (2 ≤ ctrl / 2 ^ 16 % 2 ^ 16 → Canonical s → w.whdr.toNat % 64 = 0 → (∃ a, s.physOf p at_ = some a) →
        (∀ j < 8, (s.part p).windowAt (at_ + j) = none) → ∃ t : State, exec .watchSample s = .next t ∧ t.cur = s.cur ∧ Stored s t (.dram p at_) 8 (ctrl - 2 ^ 16) ∧
          ∃ x, t.pf.watches = [(n, x)] ∧ x.wctl.getLsbD 63 = false ∧ x.wctl.getLsbD 62 = true ∧ x.wctl.getLsbD 61 = w.wctl.getLsbD 61))

/-- R429 to R431: the scrubber counts a corrected word and poisons an uncorrectable line or scratchpad doubleword, and records either; a fault that is
detected before an instruction retires traps poisoned data there; a corrected flit changes nothing; a late datapath error ends the tasks of its
cluster and is recorded. What the scrub of a word outside memory does is the model's choice (log 55), and so is what a record names (log 46). -/
def ErrorsAreReported : Prop :=
  (∀ (s : State) (pa : Nat), populated pa = true →
    exec (.patrolScrub (.memory pa) .clean) s = .next s ∧
    (∃ t : State, exec (.patrolScrub (.memory pa) .corrected) s = .next t ∧ t.cur = s.cur ∧ t.mem = s.mem ∧ t.poison = s.poison ∧
      (t.die (pa / 2 ^ 35 / 16)).corrected = ((s.die (pa / 2 ^ 35 / 16)).corrected + 1) % 2 ^ 64 ∧
      ∃ x, t.pf.errors = s.pf.errors ++ [x] ∧ x.kind = .corrected ∧ x.addr = pa ∧ x.unit = pa / 2 ^ 35 / 16) ∧
    (∃ t : State, exec (.patrolScrub (.memory pa) .uncorrectable) s = .next t ∧ t.cur = s.cur ∧ t.mem = s.mem ∧
      (∀ a, a ∈ t.poison ↔ a ∈ s.poison ∨ a / 8 = pa / 64) ∧
      ∃ x, t.pf.errors = s.pf.errors ++ [x] ∧ x.kind = .poisoned ∧ x.addr = pa)) ∧
  (∀ (s : State) (w : ScrubWord), exec (.patrolScrub w .clean) s = .next s) ∧
  (∀ (s : State) (cl off : Nat), ∃ t : State, exec (.patrolScrub (.scratch cl off) .uncorrectable) s = .next t ∧ t.cur = s.cur ∧ SameBytes s t ∧
    (∀ a, a ∈ (t.cluster cl).scrPoison ↔ a ∈ (s.cluster cl).scrPoison ∨ a = off / 8) ∧
    ∃ x, t.pf.errors = s.pf.errors ++ [x] ∧ x.kind = .poisoned ∧ x.unit = cl) ∧
  (∀ (s : State) (k : Task), s.cur.task = some k → k.cls = .free → s.cur.wait = .ready → Enters s →
    ∃ t : State, exec (.patrolScrub (.thread s.cur.id) .uncorrectable) s = .next t ∧ SameBytes s t ∧ t.cur.regs.tkind = 0x10 ∧
      t.cur.regs.tpc = s.pc ∧ t.cur.regs.pc = s.cur.regs.tvec ∧ ∃ x, t.pf.errors = s.pf.errors ++ [x] ∧ x.kind = .poisoned) ∧
  (∀ (s : State) (l : FlitLink), exec (.flitCrcReplay l) s = .next s) ∧
  (∀ (s : State) (cl : Nat) (k : Task), s.cur.id.kind = .barrel → s.cur.id.unit = cl → s.cur.task = some k → s.cur.wait ≠ .free → k.cls = .free →
    s.others = [] → (s.cluster cl).store = [] → (s.cluster cl).readyQ = [] →
    ∃ t : State, exec (.datapathErrorLate cl) s = .next t ∧ t.cur.id = s.cur.id ∧ t.cur.task = none ∧ t.cur.wait = .free ∧
      (∀ x ∈ (t.cluster cl).tiles, x.owner ≠ k.uid) ∧ ∃ x, t.pf.errors = s.pf.errors ++ [x] ∧ x.kind = .datapath ∧ x.unit = cl)

/-- R374, R432: a device reset leaves everything in the device at reset; a verified image is measured in register 0 and starts the command cores, a
bad one leaves only the recovery function, which checks a new image, and no other step of the host acts; an SPDM request of a running device is
answered with the measurements; link training records width and rate. -/
def BootAndAttestation : Prop :=
  ∀ (s : State) (image : BootImage) (nonce : Word) (width : LinkWidth) (rate : LinkRate),
    (∃ t : State, exec (.deviceResetBoot image) s = .next t ∧ t.cur = State.reset.cur ∧ t.others = [] ∧ t.mem = [] ∧ t.poison = [] ∧
      t.clusters = [] ∧ t.parts = [] ∧ t.reqs = [] ∧ t.frames = [] ∧ t.s2map = [] ∧ t.cmds = [] ∧ t.pf.pcap = 2000 ∧ t.hostMem = s.hostMem ∧
      (image.verifies = true → t.boot = .running ∧ t.pf.measure[0]? = some image.digest) ∧
      (image.verifies = false → t.boot = .recovery ∧ t.pf.measure[0]? = some 0)) ∧
    (s.boot = .recovery → s.pf.measure.length = 8 → UnitStep (exec (.recoveryImageWrite image) s) s fun t =>
      (image.verifies = true → t.boot = .running ∧ t.pf.measure[0]? = some image.digest ∧ t.pf.measure.length = 8) ∧
      (image.verifies = false → t.boot = .recovery ∧ t.pf = s.pf)) ∧
    (s.boot ≠ .recovery → exec (.recoveryImageWrite image) s = .next s) ∧
    (s.boot = .running → UnitStep (exec (.spdmRequest nonce) s) s fun t => ∃ sig, t.sent = s.sent ++ [.spdm nonce s.pf.measure sig]) ∧
    (s.boot ≠ .running → exec (.spdmRequest nonce) s = .next s) ∧
    exec (.cxlLinkTraining width rate) s = .next { s with link := some (width, rate) } ∧
    (∀ i : Instr, s.boot = .recovery → (∀ x, i ≠ .deviceResetBoot x) → (∀ x, i ≠ .recoveryImageWrite x) → (∀ x y, i ≠ .cxlLinkTraining x y) →
      (∀ x, i ≠ .flitCrcReplay x) → (∀ x y, i ≠ .patrolScrub x y) → s.runMove (.event i) = .next s)

/-- A word with its low n bits cleared. -/
def cleared (v : Word) (n : Nat) : Word := BitVec.ofNat 64 (v.toNat / 2 ^ n * 2 ^ n)

/-- One register of a partition's block and the state of the partition after a write of it (22 R396). -/
def partRow (x : Part) (v : Word) (off : Nat) (y : Part) : Prop :=
  (off = 0x50 ∧ y = { x with ctxdesc := cleared v 9 }) ∨ (off = 0x58 ∧ y = { x with savebase := cleared v 22 }) ∨
  (off = 0x60 ∧ y = { x with fscb := cleared v 6, fsSeq := 0 }) ∨ (off = 0x68 ∧ y = { x with sdva := cleared v 16 }) ∨
  (off = 0x90 ∧ y = { x with s2tok := v }) ∨ (off = 0xB0 ∧ y = { x with dirtylog := cleared v 12 }) ∨
  ∃ i, i < 8 ∧ off = 0x10 + 8 * i ∧ x.pretok.length = 8 ∧ y = { x with pretok := x.pretok.set i v }

/-- One register of the PF and what a write of it leaves (22 R405; 23 R426, R427, R431). -/
def pfRow (x : Pf) (v : Word) (off : Nat) (y : Pf) : Prop :=
  (off = 0x8000 ∧ y = { x with s2base := v }) ∨ (off = 0x8008 ∧ y = { x with s2size := v }) ∨ (off = 0x8018 ∧ y = { x with s2cons := v.toNat }) ∨
  (off = 0x8100 ∧ y = { x with errBase := v }) ∨ (off = 0x8108 ∧ y = { x with errSize := v }) ∨ (off = 0x8118 ∧ y = { x with errCons := v.toNat }) ∨
  (off = 0x9800 ∧ y = { x with telidx := v }) ∨
  (∃ k, k < 64 ∧ off = 0x9100 + 8 * k ∧ ∃ w : Word, y = { x with shedding := x.shedding.put k w } ∧
    w.toNat = v.toNat / 2 ^ 63 * 2 ^ 63 + v.toNat / 2 ^ 56 % 2 ^ 6 * 2 ^ 56 + v.toNat % 2 ^ 44)

/-- R7, R376, R396: a write of a register without behaviour of its own sets its fields and nothing else; a write of a read-only or unlisted offset, of a
misaligned one, or of a VF's, changes nothing; a write-only or unlisted offset of a partition's block reads 0. That an address register keeps only the
bits above its alignment, and what a misaligned offset does, is the model's choice (log 18). -/
def RegistersTakeTheirFields : Prop :=
  ∀ (s : State) (off : Nat) (v : Word),
    (∀ p, exec (.registerWrite (.vf p) off v) s = .next s) ∧
    (off % 8 ≠ 0 → exec (.registerWrite .pf off v) s = .next s) ∧
    (∀ p y, p < 64 → partRow (s.part p) v off y → UnitStep (exec (.registerWrite .pf (0x10000 + 256 * p + off) v) s) s fun t =>
      t.part p = y ∧ t.pf = s.pf ∧ ∀ j, j ≠ p → t.part j = s.part j) ∧
    (∀ p, p < 64 → off = 0x78 ∨ off = 0x88 ∨ off = 0xA8 ∨ off = 0xB8 ∨ off = 0xC0 ∨ (0xD0 ≤ off ∧ off < 256 ∧ off % 8 = 0) →
      UnitStep (exec (.registerWrite .pf (0x10000 + 256 * p + off) v) s) s fun t => t.pf = s.pf ∧ ∀ j, t.part j = s.part j) ∧
    (∀ y, pfRow s.pf v off y → exec (.registerWrite .pf off v) s = .next { s with pf := y }) ∧
    (∀ p, p < 64 → off < 256 → off % 8 ≠ 0 ∨ off = 0x70 ∨ off = 0x80 ∨ off = 0x98 ∨ off = 0xA0 ∨ 0xD0 ≤ off →
      s.readPf (0x10000 + 256 * p + off) = (0, s)) ∧
    (off = 0x8010 ∨ off = 0x8110 ∨ off = 0x9008 ∨ off = 0x9010 ∨ off = 0x9808 → exec (.registerWrite .pf off v) s = .next s) ∧
    (∀ n, n < 256 →
      let at_ (t : State) : Watch := t.pf.watches.getD n { wctl := 0, wthr := 0, whdr := 0, last := none }
      (UnitStep (exec (.registerWrite .pf (0xA000 + 32 * n) v) s) s fun t => (at_ t).last = none ∧ (at_ t).wthr = (at_ s).wthr ∧
        (at_ t).wctl.toNat = v.toNat / 2 ^ 60 * 2 ^ 60 + v.toNat / 2 ^ 40 % 2 ^ 6 * 2 ^ 40 + v.toNat % 2 ^ 32) ∧
      (UnitStep (exec (.registerWrite .pf (0xA000 + 32 * n + 8) v) s) s fun t => at_ t = { at_ s with wthr := v }) ∧
      (UnitStep (exec (.registerWrite .pf (0xA000 + 32 * n + 16) v) s) s fun t => at_ t = { at_ s with whdr := cleared v 6 }))

end Sys2Proof.Claims

namespace Sys2Proof.Claims

/-! ### Decoding, the step and reset -/

/-- Words that the spec writes out from its encodings (03 R79, R92, R101; 05 R116, R119, R120, R132, R134; 06 R145, R148, R150; 07; 08; 09; 10), one
or two of each format, and the instruction that the spec says each is. -/
def DecodedWords : Prop :=
  decode32 (0b11000000#8 ++ 0b00101#5 ++ 0b00110#5 ++ 0b00111#5 ++ 0b000000011#9) = .ok (.mulh 5 6 7) ∧
  decode32 (0b11000001#8 ++ 0b00101#5 ++ 0b00110#5 ++ 0b00001111101000#14) = .ok (.addi 5 6 1000) ∧
  decode32 (0b11001011#8 ++ 0b01100#5 ++ 0b0010010001101000101#19) = .ok (.li 12 0x12345) ∧
  decode32 (0b11001101#8 ++ 0b00101#5 ++ 0b00011#5 ++ 0#5 ++ 1#9) = .ok (.movgx 5 3) ∧
  decode32 (0b11010000#8 ++ 0b00111#5 ++ 0b00110#5 ++ 0b110#3 ++ 0b01#2 ++ 0b000000010#9) = .ok (.ldd 7 6 .acqRel 2) ∧
  decode32 (0b11010001#8 ++ 0b00111#5 ++ 0b00110#5 ++ 0b110#3 ++ 0b10#2 ++ 0b000000001#9) = .ok (.std 7 6 .direct 1) ∧
  decode32 (0b11010011#8 ++ 0b00101#5 ++ 0b00110#5 ++ 0b00111#5 ++ 0b1001#4 ++ 1#1 ++ 0b11#2 ++ 0b10#2) = .ok (.cas 5 6 7 .d .ar .prt) ∧
  decode32 (0b11011010#8 ++ 0#5 ++ 0b01001#5 ++ 0#5 ++ 1#9) = .ok (.jlr 9) ∧
  decodeFirst (0b00#2 ++ 0b1110#4 ++ 0#4 ++ 0b1001#4 ++ 0b01#2) = .done (.ok (.jlr16 9)) 0x3825 ∧
  decode32 (0b11011101#8 ++ 0b00011#5 ++ 0b00100#5 ++ 0b11111111111010#14) = .ok (.blt 3 4 (-6)) ∧
  decode32 (0b11100100#8 ++ 0b01000#5 ++ 0b01001#5 ++ 0b01010#5 ++ 0b000110111#9) = .ok (.fdiv 8 9 10 .f32 .ru) ∧
  decode32 (0b11101000#8 ++ 0b00110#5 ++ 0b00111#5 ++ 0b01000#5 ++ 0b011000000#9) = .ok (.pdot 6 7 8 .b8) ∧
  decode32 (0b11101101#8 ++ 0b00101#5 ++ 0b00011#5 ++ 0b00110#5 ++ 0b000001000#9) = .ok (.waitwp 5 3 6) ∧
  decode32 (0b11110000#8 ++ 0b01010#5 ++ 0b00100#5 ++ 0#6 ++ 0b00000111#8) = .ok (.serve 10 4 0 0 7) ∧
  decode32 (0xF1194C05) = .ok (.umbra 3 5 6) ∧
  decode32 (0b11110100#8 ++ 0b00010#5 ++ 0#5 ++ 1#5 ++ 0b000000111#9) = .ok (.tmma 2 0 1) ∧
  decode32 (0b11110101#8 ++ 0b00001#5 ++ 0#5 ++ 1#5 ++ 0b000000001#9) = .ok (.cstep 1 0 1) ∧
  decode32 (0b11111000#8 ++ 0b00101#5 ++ 0#5 ++ 0b00011#5 ++ 0b000000011#9) = .ok (.mfs 5 3)

/-- The instruction at the PC of a running thread: its halfwords are fetched and decoded. -/
structure FetchesAs (s t : State) (i : Instr) : Prop where
  idle   : s.agenda = []
  ready  : s.cur.wait = .ready ∧ s.cur.ckpt = false
  legal  : s.fetchFaultKind s.pc = none
  bytes  : (∃ b0 b1, s.fetchHalf s.pc = .ok (halfOf b0 b1) t ∧ decodeBytes [b0, b1] = some (i, [])) ∨
           (∃ b0 b1 b2 b3 u, s.fetchHalf s.pc = .ok (halfOf b0 b1) u ∧ decodeBytes [b0, b1] = none ∧ u.fetchFaultKind (u.pc + 2) = none ∧
             u.fetchHalf (u.pc + 2) = .ok (halfOf b2 b3) t ∧ decodeBytes [b0, b1, b2, b3] = some (i, []))

/-- R77, R78, R113, R124: when the bytes at the PC of the running thread decode to an instruction, a step is exec of it, and its end lets time pass
and turns to another ready thread if there is one; the ready thread that has waited longest has its turn in the end, and so has the oldest move of the
units; a halfword that the L1 does not hold comes from its home. -/
def StepRunsTheDecodedInstruction : Prop :=
  (∀ (s t : State) (i : Instr), FetchesAs s t i → step s = finishStep true (exec i t)) ∧
  (∀ (u : State), finishStep true (.next u) = .next u.endStep ∧ u.tick < u.endStep.tick ∧ SameBytes u u.endStep ∧
    ((∀ th ∈ u.others, th.wait ≠ .ready) → u.endStep.cur = u.cur ∧ u.endStep.others = u.others) ∧
    (∀ th, u.others.find? (fun x => decide (x.wait = .ready)) = some th → u.rotation = 0 → u.endStep.cur.id = th.id)) ∧
  (∀ (s : State) (m : Move) (rest : List Move), s.agenda = m :: rest → s.patience = 0 → s.retiring m = none →
    ∃ t : State, step s = finishStep m.turns (t.runMove m) ∧ t = { s with agenda := rest, fresh := t.fresh, patience := t.patience }) ∧
  (∀ (s : State) (va : Word) (p g : Nat), (∀ r, s.locate va 2 r = .ok (.dram p g) s) → s.cachedLine s.curCluster (.dram p g) = none →
    s.askHome (.dram p g) false = .granted s → (s.cluster s.curCluster).oldCode = [] → s.speculative = false → g % 2 = 0 →
    ∃ t : State, s.fetchHalf va = .ok (halfOf (s.byteAt (.dram p g)) (s.byteAt (.dram p (g + 1)))) t ∧ t.cur = s.cur ∧ SameBytes s t)

/-- R78, R104 to R109: decoding the bytes of a well-formed instruction that has an encoding gives it back, with whatever follows left over. -/
def DecodingInvertsEncoding : Prop :=
  ∀ (i : Instr) (rest : List Byte), i.wf = true → i.len ≠ 0 → decodeBytes (encode i ++ rest) = some (i, rest)

/-- R110, R111: whatever is decoded is well-formed or the illegal encoding, with the number of bytes that its length says. -/
def DecodingGivesWellFormed : Prop :=
  ∀ (bs rest : List Byte) (i : Instr), decodeBytes bs = some (i, rest) →
    (i.wf = true ∧ bs = encode i ++ rest) ∨ ∃ c w, i = .illegalEncoding c w

/-- Device memory, host memory and the scratchpads, saved ones among them, are in canonical form: addresses rise, and no entry
equals what an unlisted address reads as. -/
def MemoriesCanonical (s : State) : Prop :=
  s.mem.wf = true ∧ s.hostMem.wf = true ∧ (∀ e ∈ s.clusters, e.2.scratch.wf = true) ∧
  (∀ e ∈ s.parts, ∀ a ∈ e.2.saves, a.cluster.scratch.wf = true)

/-- R376, R396, R405, R423: the registers of the device hold after reset the values that the tables of 21 to 23 state, and its memories are in
canonical form. -/
def ResetLeavesTheStatedValues : Prop :=
  let s := State.reset
  MemoriesCanonical s ∧ s.pf.pcap = 2000 ∧ (s.readPf 0x9008).1 = 0 ∧ (s.readPf 0x9010).1 = 0 ∧ s.boot ≠ .running ∧
  ∀ p, (s.part p).pdesc = 0 ∧ (s.part p).pshare = 0 ∧ (s.part p).ctxdesc = 0 ∧ (s.part p).savebase = 0 ∧ (s.part p).fscb = 0 ∧ (s.part p).sdva = 0 ∧
    (s.part p).sdIssued = 0 ∧ (s.part p).sdDone = 0 ∧ (s.part p).s2busy = false ∧ (s.part p).s2tok = 0 ∧ (s.part p).dirtylog = 0 ∧
    (s.part p).umbpool = 0 ∧ (∀ q, (s.queue p q).progress = 0) ∧ (s.part p).svcHead = 0 ∧ (s.part p).running = false

/-- Every step keeps device memory, host memory and the scratchpads in canonical form. -/
def StepsKeepMemoriesCanonical : Prop := ∀ s t : State, MemoriesCanonical s → step s = .next t → MemoriesCanonical t

end Sys2Proof.Claims

/-- R118 and R119: the immediate majors and `LI` complete in every state, write g[d] with the value of their row, and leave everything else alone.
R119 and R120: `LIX` shifts x[k] left by 21 and takes imm21 below; `XMOV`, `MOVGX` and `XCLR` move between the register files. Each completes in every
state and leaves everything else alone. -/
def Obligations.ImmediatesAndExtensionRegisters : Prop :=
  Sys2Proof.Claims.ImmediatesGiveTheirRow ∧ Sys2Proof.Claims.ExtensionRegisterMoves

/-- R139 and R140: exact zeros, infinities and the invalid operations. A zero sum is −0 when both addends are −0, or under RD when addends of opposite
sign cancel; a zero product or quotient takes the exclusive OR of the signs; x/±0 gives ±∞ and `DZ`; 0/0, ∞/∞, ∞ × 0, ∞ − ∞ and the root of a negative
number give the canonical NaN and `NV`. R48 and R49: an arithmetic instruction with a NaN operand writes the canonical NaN of its format and sets `NV`
exactly when an operand is a signalling NaN; of a fused one with a NaN factor the same holds. `FMAD` and `FNMAD`: an exact zero sum takes the sign of
the sum rule over the exact product (negated in `FNMAD`) and D; a finite product with an infinite D gives D; an infinite product gives itself with a
finite D or one of its sign, and NaN with `NV` against the opposite infinity; a NaN in D alone gives the canonical NaN, with `NV` for a signalling one;
∞ × 0 is invalid whatever D holds. -/
def Obligations.ZeroInfinityAndNanResults : Prop :=
  Sys2Proof.Claims.ZeroAndInfiniteResults ∧ Sys2Proof.Claims.FusedZerosInfinitiesAndNans ∧
  Sys2Proof.Claims.NanOperandsGiveTheCanonicalNan

/-- R50, R51: `FMIN` and `FMAX` are minimumNumber and maximumNumber, with −0 below +0; the comparisons write 1 or 0, and 0 with a NaN, `FEQ` setting
`NV` for a signalling one and `FLT` and `FLE` for any. R141 and R142: `FNEG`, `FABS` and `FCPYS` keep every bit but the sign, round nothing and set no
flag, a NaN in A gives the canonical NaN, and only the sign bit of B counts; `FCLASS` sets exactly the bit of A's class and no flag. -/
def Obligations.ComparisonsAndSignOperations : Prop :=
  Sys2Proof.Claims.MinimumMaximumAndComparison ∧ Sys2Proof.Claims.SignOperationsAndClass

/-- R52, R143 and R144: `FTOI` and `FTON` round to an integer, saturate outside their range with `NV`, and give 0 with `NV` for a NaN; `ITOF` and
`NTOF` round a nonzero integer into the format; `FCVT` rounds, and an exact widening keeps the value; `FRND` gives the integer nearest in the mode,
without `NX`. R55, R56 and R145: with `P` from 1 to 7, `B8TOF` into f32 or f64 writes exactly the number of the binary8 byte and no flag, into f16 or
bf16 that number rounded once in RNE with its flags, an infinity for an infinity and the canonical NaN for the NaN code; with `P` = 0 it writes the
canonical NaN, `FTOB8` writes the NaN code, and both set `NV`. R57, R146: `FTOB8` writes the code of its operand rounded in the mode of `x7` to P
significant bits, with `NX` and `UF`; one beyond the largest number gives that with `OF` and `NX`, or by `OVF` the infinity or the NaN code; NaN,
zero, infinities and negative numbers into an unsigned format as R57 lists them. How RNE resolves a tie with P = 1 is read from R46 by inference (log
67, DEDUCED).
Where the spec leaves a point open, what it says is the model's own choice: log 67. -/
def Obligations.ConversionsGiveTheirValue : Prop :=
  Sys2Proof.Claims.Conversions ∧ Sys2Proof.Claims.BinaryEightConversions

/-- R147 and R148: every lane-by-lane instruction of the `PK` major completes in every state, writes each lane of g[d] with the value of its row, and
touches no flag and nothing else. R149: `PDOT` adds the exact sum of the signed lane products to the old g[d] and keeps the low 64 bits. -/
def Obligations.PackedLanesAndDotProducts : Prop :=
  Sys2Proof.Claims.PackedLanesGiveTheirRow ∧ Sys2Proof.Claims.DotProductIsExact

/-- R132 and R79: a conditional branch completes in every state; it goes to PC + sext(off14) × 2 when its condition holds and to PC + 4 otherwise, and
writes no register and nothing else. R133, R134 and R79: `J` and `JL` go to PC + sext(off24) × 2, `JR` and `JLR` to an even g[a]; the linking ones
write g31 with PC + 4, from the old g[a] when a is 31. They complete and change nothing else. -/
def Obligations.BranchesAndJumps : Prop :=
  Sys2Proof.Claims.BranchesCompareAndGo ∧ Sys2Proof.Claims.JumpsAndLinks

/-- R262, R110, R111, R257: the instructions whose effect is a trap take it in every state: `TRAP` in both lengths, `BRK`, `UDF` and an illegal
encoding with their records, and a fetch that cannot be served with kind unmapped or access, the address of its halfword and the fetch layout. R262,
R111, R112, R134, R257: the instructions whose effect is a trap, with their records, in a thread that takes it into its handler: `TRAP` in both
lengths, `BRK`, `UDF`, an illegal encoding, `HALT` on a core that is not a command core, a register jump to an odd address, and a fetch that no page
can serve: access for a PC in a scratchpad window, holes and all (log 19), unmapped for any other one; of a second halfword with its own address.
R252, R254, R260: a privileged instruction below its mode, a system register below its mode and a write of a read-only register trap privilege with
the causes 1, 2 and 3 and the func or the register's number, and have no other effect. A write of a read-only register below its mode has cause 2 (log
31).
Where the spec leaves a point open, what it says is the model's own choice: log 19 and 31. -/
def Obligations.TrappingInstructions : Prop :=
  Sys2Proof.Claims.TrapFormsTakeTheirTrap ∧ Sys2Proof.Claims.InstructionsThatTrap ∧ Sys2Proof.Claims.PrivilegeTraps

/-- R254: `MFS` of a register that the mode reaches writes g[d] with its value and nothing else; `CLUSTER`, `PART` and `THREAD` of a barrel core are
its numbers, `KEY` is 0 in a free task, and `ELAPSED` counts the task's time in units of 1024 ticks. On another core than a barrel core those three
are free values (log 2), and without a task `KEY` and `ELAPSED` read 0 (log 71). R253 and R254: `MTS` of a register that the mode reaches writes that
register and nothing else: of `STATUS` the bits that the mode allows, bit 0 of `TVEC` as 0, of `TKIND` bits 7:0.
Where the spec leaves a point open, what it says is the model's own choice: log 2 and 71. -/
def Obligations.SystemRegisters : Prop :=
  Sys2Proof.Claims.SystemRegistersRead ∧ Sys2Proof.Claims.SystemRegistersWritten

/-- R261, R264: `NOP` only advances the PC; `CYC` writes the device tick counter; `PERF` writes the counter of its id, 0 for an id of no counter, and
for a stall counter a value that is free (log 3). R156, R159, R160, R265, R266: `FENCE` with an acquire from `.die` on empties the caller's L1 and no
other, with a release from `.prt` on leaves no copy of a line of its stores whose invalidation was pending in an RDC (what its acquire then waits for
is log 68); `FENCEI` and a `CINV` of length 0 empty the L1, a `CINV` of a range drops only lines that overlap it; `TLBINV` removes what its selector
names from the caller's cluster TLB. No memory and no register but the PC changes. R267 and R268: `WAKE` with kind 3 traps access with cause 23; with
a token that names no waiter it writes 0 and does nothing else; with a token of the caller's partition it ends that wait and writes 1. `HALT` on a
command core in firmware mode leaves the core idle, and ends its event once the work that the rules give the event is over. R267, R32, R202: `WAKE`
ends the wait of what its token names and writes 1. A thread goes on at its instruction for kind 0; for 1 and 2 it has taken the trap unmapped or
access of its access, with its address and layout, into its handler. An engine request goes on for kind 0, and else ends with that kind. The token is
served.
Where the spec leaves a point open, what it says is the model's own choice: log 3, 10, 27 and 68. -/
def Obligations.TimeFencesWakeAndHalt : Prop :=
  Sys2Proof.Claims.TimeAndCounters ∧ Sys2Proof.Claims.FencesAndInvalidations ∧ Sys2Proof.Claims.WakeAndHalt ∧
  Sys2Proof.Claims.WakesEndTheWait

/-- R122, R129, R130, R153: a load, store or atomic whose address is no multiple of its size traps misaligned with that address, and an aligned one
whose address is not canonical, or lies in the reserved range outside every scratchpad, traps unmapped, both with `TINFO` naming order, size and
access, and with no other effect. On a command core, which addresses memory physically, an address that no memory answers traps unmapped (log 12).
R129, R32, R75, R127, R131: an aligned access to a translated address for which the caller's TLB holds nothing drops the thread for a walk, with no
register and no memory changed and the PC at the access, or, with the cluster's 16 walks in flight, leaves it to ask again; a store into a view range
traps access; a direct or acquire load of a poisoned doubleword traps poisoned data and writes no register.
Where the spec leaves a point open, what it says is the model's own choice: log 12 and 26. -/
def Obligations.AccessesTrapOrWait : Prop :=
  Sys2Proof.Claims.BadAddressesTrap ∧ Sys2Proof.Claims.AccessesThatDoNotComplete

/-- R126, R155, R315: inside an ordered task that is not irrevocable a store is held in the SSB, where a later load of the task finds its bytes, and
no memory changes; a load enters its line in the read signature and returns the task's own buffered bytes; the first of either is an acquire; a direct
access and an atomic stall until the task holds the summit. R155: in an ordered task that is not irrevocable, every `SYNC` instruction but `RPTEST`
and `FTEST`, `MSND` and `SYSC` leave the task stalled at the instruction until it holds the summit.
Where the spec leaves a point open, what it says is the model's own choice: log 32. -/
def Obligations.SpeculationIsBuffered : Prop :=
  Sys2Proof.Claims.SpeculativeAccesses ∧ Sys2Proof.Claims.OrderedTasksStall

/-- R161, R162, R163: on a rope at which nothing waits and that is unbound, `RPINIT` writes both words, `RPARR` gives word 0 as found and lowers
`PEND` and `BYTES`, or completes the phase, `RPEXP` raises `BYTES`, both leave a broken rope alone, `RPTEST` gives word 0 and `RPWAIT` returns at once
from a broken rope or a passed phase. Nothing else of the thread or of memory changes. R165, R166, R174, R23: on a future at which nothing waits,
`FRES` and `FPOIS` write the final word, `FWAIT` of a final one returns `PAYLOAD` and `STATE` at once, `FTEST` gives the word; `DCDEC`, and `FLINK` of
a final future, lower the counter of a header by one; `FLINK` of an empty future records a link and marks the word.
Where the spec leaves a point open, what it says is the model's own choice: log 23 and 25. -/
def Obligations.RopesFuturesAndCounters : Prop :=
  Sys2Proof.Claims.RopeInstructions ∧ Sys2Proof.Claims.FuturesAndCounters

/-- R30, R163, R166, R168: `RPWAIT` of the current phase and `FWAIT` of an empty future park a barrel thread's task, with a record in the table of the
word's home die; `FWAIT` sets `STATE` to 1 and no other bit of any memory changes. R31, R162, R167: the wake of a parked task ends its wait on the
cluster where it parked: its registers hold the result, its PC has passed the instruction, it stands in that cluster's ready queue with its priority,
the cluster's L1 is empty, and it is parked no more. -/
def Obligations.WaitsParkAndWake : Prop :=
  Sys2Proof.Claims.WaitsPark ∧ Sys2Proof.Claims.WakesCompleteTheWait

/-- R178, R182, R187: `TKEY` joins a timestamp and a tie, and in an ordered task a result below its key traps; `CLID` gives context, thread, cluster
count and logical number; `RSQRY` of a header without read tiles gives the cluster that the round-robin would take next, and changes nothing. R183,
R184, R185, R186: `WAITWP` gives the write pointer at once when it is broken, has reached the target or is reserved by no request, and else parks;
`MSND` queues the message behind the receiver's others, in the cluster or in memory, waits when both are full, and traps for a cluster that the
partition has not; `MRCV` takes the oldest one of its context, or gives 0 twice.
Where the spec leaves a point open, what it says is the model's own choice: log 35. -/
def Obligations.KeysMessagesAndIdentity : Prop :=
  Sys2Proof.Claims.KeysAndIdentity ∧ Sys2Proof.Claims.WritePointersAndMessages

/-- R211: `UMBRA` over one chunk that can be written takes the lowest free entry of the table and one shadow from the pool of the chunk's column and
gives the entry's number; a bad address or length, a full table and an exhausted pool trap. The lowest number and the order of the causes are the
model's (log 63). R213, R214: `PUBLISH` of a number that is not open traps, cause 18, and so does one whose umbra is cut already or whose step the
task holds (log 60); in a free task it takes the cut and waits for the flip, in an ordered one the step, cut and all, is held for the commit and the
task goes on. R213, R214: with no request of the umbra outstanding the waiting `PUBLISH` retires: the umbra is closed, and from then on an address in
a written chunk reaches its shadow, in any other chunk, and after a discard, its old backing; while a request is outstanding nothing happens.
Where the spec leaves a point open, what it says is the model's own choice: log 35, 45, 60 and 63. -/
def Obligations.UmbrasOpenPublishAndFlip : Prop :=
  Sys2Proof.Claims.UmbrasOpen ∧ Sys2Proof.Claims.PublishTakesTheCut ∧ Sys2Proof.Claims.FlipsSwitchTheBacking

/-- R217, R221, R225, R226, R229, R233 to R239, R245 to R249: an array instruction whose tiles and sets are owned and whose shapes pass joins the
thread's queue of at most 16 and the thread goes on; a name that is not owned traps tile owner, cause 1; a shape that fails traps shape, with a cause
that holds; a depth that would pass its bound traps depth with the set's depths. A trap queues nothing. R218, R221, R227: a command core, which runs
no task, owns no tile and no set: an array instruction that names one traps tile owner, cause 1, `TFREE` and `CFREE` of a name cause 3, and `TSYNC`,
an empty release and an empty allocation go on at once. R225, R227, R228, R230, R233, R248: `TSHGET`, `TGETE`, `TSYNC` and `CDEPTH` wait until the
queue is empty and then give the shape word, the element (integers sign-extended), nothing, and the set's word. A poisoned source of `TGETE` traps
poisoned data in a free task, an index outside the tile traps shape, cause 6. R226: with an empty queue the tiles that an instruction finds are those
of its task on the cluster; a queued `TSHAPE` shows its shape to the instructions behind it, a queued `TFREE` takes its names away. R218, R219:
`TALLOC` and `CALLOC` bind every named tile or set at once, zero, with shape word 0, and give the mask; on a shortage a task that owns something gets
0 and one that owns nothing waits, until the request at the head fits; an owned name traps cause 2. `TFREE` and `CFREE` with no queued use of their
names unbind them; a name not owned traps cause 3. R219: `TILE_REQUEST_GRANT` serves the earliest waiting tile request when it fits: its thread goes
on with the mask in its register.
Where the spec leaves a point open, what it says is the model's own choice: log 35, 39 and 41. -/
def Obligations.TheArrayQueuesAndAllocates : Prop :=
  Sys2Proof.Claims.ArrayInstructionsAreQueued ∧ Sys2Proof.Claims.CommandCoresOwnNoTiles ∧ Sys2Proof.Claims.QueueReads ∧
  Sys2Proof.Claims.EarlierInstructionsCount ∧ Sys2Proof.Claims.Allocation ∧ Sys2Proof.Claims.WaitingRequestsAreGranted

/-- R230, R231, R232: `TLD` of located rows joins the queue and, executed, moves the bytes of every element into the tile and clears `POI`; `TST`
waits for the queue and stores every element of the tile at its address, in a free task; misaligned addresses and strides, a tile of format 0 and a
poisoned source of `TST` trap. R225, R230, R233, R235 to R239: what the array makes of `TSHAPE`, `TZERO`, `TSETE`, `TADD`, `TMUL`, `TMAX`, `TRSUM`,
`TRMAX`, `TEXP2`, `TSCAN` and `TCVT` for every element of the destination, with each rounding made once, in the order of the spec; poison of a source
marks the destination. How `TCVT` into binary8 with P = 1 resolves a tie of RNE is read from R46 by inference (log 67, DEDUCED). R66, R234: `TMMA`
needs belay leave, for which it asks; with it, each element of C takes the products of A's row and B's row (B is held transposed): of `BF16` and
`FP16` one after the other, each fused and rounded once; of binary8 in exact pairs, each pair rounded once; of S8 exactly, saturated to 32 bits with
`SAT`.
Where the spec leaves a point open, what it says is the model's own choice: log 35, 41 and 67. -/
def Obligations.TilesHoldTheirResults : Prop :=
  Sys2Proof.Claims.TileMoves ∧ Sys2Proof.Claims.ArrayResults ∧ Sys2Proof.Claims.MatrixProducts

/-- R244: `CFMT` of an aligned descriptor that its six loads give and whose reserved bits and bytes are zero joins the queue with its 384 bytes; a
nonzero one traps access, cause 21, with the offset of the first; a misaligned address traps. Executed, the set holds the descriptor's fields, empty.
R63, R245: `CSTEP`, which needs belay leave, moves for every cell and lane the counter of each product's index by one, up or down, leaves index 0 out,
marks the cell for index 31, and adds the products of each lane to its depth; the merge counters stay. R64, R246 to R248: `CMERGE` adds the lane
counters of each cell and index into its merge counter, and the lane depths into `MD`; `CDRAIN` adds to each element of C the sum over the indices of
count times value, scaled by 2 to the sum of the descriptor's and the two tile exponents, rounded once, gives NaN for a marked cell and for a scale of
-128, and empties the set; `CCLR` empties it, keeping the descriptor. R218: `TFREE` and `CFREE` of a name that a queued instruction uses take their
place in the queue behind it, and the name is unbound when that instruction has executed.
Where the spec leaves a point open, what it says is the model's own choice: log 35. -/
def Obligations.CountingProducts : Prop :=
  Sys2Proof.Claims.DescriptorsOfCounting ∧ Sys2Proof.Claims.CountingSteps ∧ Sys2Proof.Claims.CountingResults ∧ Sys2Proof.Claims.ReleasesWait

/-- R240, R242: `TCHAIN` of an accepted descriptor joins the queue with the caller's place in the chain; a descriptor that is refused traps access,
cause 22, a tile of another shape traps shape, cause 9, a misaligned descriptor traps misaligned; in an ordered task it stalls. R67, R241: a member
waits for the message of its descriptor, adds it to its tile element by element, predecessor first and rounded once, then sends the result to the next
member, whose array buffers four, or stores it at its addresses when it is the last one. A message that arrives makes the waiting member due.
Where the spec leaves a point open, what it says is the model's own choice: log 35 and 41. -/
def Obligations.ChainsAddInOrder : Prop :=
  Sys2Proof.Claims.ChainsAreIssued ∧ Sys2Proof.Claims.ChainsAddAndPass

/-- R28, R35: a cluster dispatches the head of its ready queue, in the order of R28, to the free context that R28 names, at its entry or where it was
saved; the summit holder goes before the head; in deterministic mode a re-run after an equal-key conflict traps at its entry (13 R314); a newcomer
bound to a context goes there when it frees; a stopped cluster and an empty queue dispatch nothing. R33: with no free context, the first rule that
fits the victim decides: a drain binds the newcomer to its context, a kill or an abort takes the context and queues the victim's instance again from
its header, at its header priority; a victim in a `SERVE` is passed over; any other is marked for a checkpoint. No register of another task and no
memory changes.
Where the spec leaves a point open, what it says is the model's own choice: log 14. -/
def Obligations.DispatchAndPreemption : Prop :=
  Sys2Proof.Claims.DispatchFollowsR28 ∧ Sys2Proof.Claims.PreemptionFollowsR33

/-- R26, R29, R30, R33, R35: a forwarded task is queued where it was sent, with a stamp taken at arrival; aging raises every entry that has waited
2^20 ticks by one level, up to 7, with its stamp kept; a marked victim at rest leaves its context and is ready again with its registers; the summit
holder takes a context on its own cluster, which dispatches nothing while it is stopped or holds another context. R39, R40: a range is split over the
dies as R39 says; a die with a free context and empty ready queues places the next instance of its share; a die with nothing left takes the upper half
of the largest share, and one instance is not taken; what is taken counts on the die that gave it until it arrives (13 R321).
Where the spec leaves a point open, what it says is the model's own choice: log 38 and 49. -/
def Obligations.QueuesAndRangesMove : Prop :=
  Sys2Proof.Claims.QueuesMove ∧ Sys2Proof.Claims.RangesAreSplit

/-- R311: a report gives its die's smallest unfinished key, and the sequencer names as holder the only task that has the summit as its key; a holder
whose key is still the summit stays, and with nothing unfinished there is none. R312, R316, R37, R405: the finished summit holder commits: when the
homes grant its lines, its buffered bytes stand in memory, its buffer, its holdership and its place in the commit queue are free, the sequence number
is one higher, and its registration counts the exit; a line that stage 2 refuses makes the commit unit wait for the host (log 69). A holder that
stalls becomes irrevocable: its buffered bytes stand in memory, the keys of its children count from then on, and it goes on at its instruction with
its registers. Anything else does nothing. R313, R314: a commit aborts an ordered task that has read a committed line and whose key is not below: it
leaves its context and starts again from its header, with the line recorded on equal keys.
Where the spec leaves a point open, what it says is the model's own choice: log 2, 32, 33 and 69. -/
def Obligations.SummitAndCommits : Prop :=
  Sys2Proof.Claims.SummitNamesTheHolder ∧ Sys2Proof.Claims.CommitsApplyTheBuffers

/-- R128, R151, R201, R319, R405: an access in flight that its memory controller grants completes as at issue: a direct or acquire load writes its
register from the bytes there, a store of a free task stands in memory; an instruction that waits at a home is issued again and has its turn there;
nothing happens where nothing waits, and while an engine request holds the line or another thread has its turn there the thread goes on waiting; an
invalidation on its way takes the line, of device memory or of the host, out of its die's cache, and the home clears its directory bit for that die.
R402, R403, R407: a walk of the running thread that ends at a leaf that permits the access sets `A`, and `D` for a store, in the leaf, fills the TLB
with the page, and the thread goes on at its instruction; a leaf that does not permit it, and no leaf, drop the thread for fault service under a
token; an access that a view range bars (a store, or any access of a memory core) sets `A` alone, whatever the leaf permits, and traps when it is made
again (05 R129; log 26).
Where the spec leaves a point open, what it says is the model's own choice: log 10 and 26. -/
def Obligations.AccessesRetireAndWalksEnd : Prop :=
  Sys2Proof.Claims.AccessesRetire ∧ Sys2Proof.Claims.WalksEnd

/-- R202, R203, R206, R207, R215, R322: a `COPY` moves its next line, in row order, a `GATHER` the element that its next index names, an `RCOPY` sends
its next line, with its poison, to the peer, and after the last one waits for the peer's answer; a poisoned source ends the request with 0x10 unless
`RAW` is set; a misaligned element ends a `GATHER` with 0x02; a `COPYP` starts its loader program on its memory core with the block's address in `g1`,
or ends with 0x06 where none is registered. When the peer answers, and whether it refuses a range without a publication, is free (log 20). R200, R201:
a request that has ended, and whose writes are acknowledged, writes its record, if it names one, then performs its completion action, and is over: a
rope loses the declared bytes, a future that is not resolved is resolved with the block's value, or poisoned with the record's status or, without a
record, with the kind; a future already resolved is left, and `CREF` is set.
Where the spec leaves a point open, what it says is the model's own choice: log 9, 20 and 45. -/
def Obligations.EnginesDeliverAndComplete : Prop :=
  Sys2Proof.Claims.EnginesDeliver ∧ Sys2Proof.Claims.RequestsComplete

/-- R271 to R278, R281 to R283: an element that can fire takes the heads of its ports and puts one result token at every destination: the row's value
for a compute element, the chosen arm with its guard for a switch element, the table's entry for a table element; a poisoned input gives a poisoned
token with the largest kind. An accumulator folds its operand into its register and emits it on its mark. A memory element's access and a delay
element's token join its queue. An element with an empty port does not fire. R271, R272, R273: a compute element of a call-mode image whose ports are
all constant or unused fires once for each packet that has entered, in their order, with that packet's mark (log 74). R279, R280, R282, R283, R192:
the oldest access of a memory element of a call is made for its caller when the element's output has room: a load gives its bytes as the result token,
a store stands in memory and gives a token of 0; a store under a guard, and any access of a poisoned token, is not made; an address that can never be
reached poisons the token with kind 3 and is recorded for the packet; the oldest token of a delay element moves on.
Where the spec leaves a point open, what it says is the model's own choice: log 74. -/
def Obligations.FabricElementsFire : Prop :=
  Sys2Proof.Claims.ElementsFire ∧ Sys2Proof.Claims.ConstantElementsFire ∧ Sys2Proof.Claims.ElementsComplete

/-- R284, R285, R288: a stream engine emits the next point of its walk, base plus counters times strides, with its dimension marks and `EOI` on the
last point, at every destination but the elements that had passed `EOI` before a restart (08 R210), when all have room, the limit admits it and the
belay has given leave; otherwise nothing. R190, R273, R288: the next packet enters when the limit admits it and every destination of its arguments has
room: one token of each argument, with `EOI`, at each destination; otherwise nothing. R190, R194: a packet that has all its results leaves, and its
waiting caller gets them in consecutive registers and goes on; a fatal fault traps with the record of R194, and a poisoned result traps poisoned data.
R208, R209, R285, R288, R294: a stream whose elements have all passed `EOI` and whose stores are confirmed ends its request; a stream stopped by a
fault loads the drain image and its record is due; a drained fabric is released, empty, after that record, and the request's completion action is due;
the step of a window leaves every fabric but its count of the window as it was.
Where the spec leaves a point open, what it says is the model's own choice: log 1. -/
def Obligations.FabricStreamsAndPackets : Prop :=
  Sys2Proof.Claims.StreamEnginesWalk ∧ Sys2Proof.Claims.PacketsPass ∧ Sys2Proof.Claims.StreamsEnd

/-- R191: a fetched binary stands in the config cache and raises `IMGFETCH`; an image that the checks accept is loaded after belay leave and raises
`IMGLOAD`, and its callers issue again; one that the config cache has lost is fetched again (15 R337); a rejected one leaves the fabric empty and
traps its callers with cause 2. R289 to R293: an accepted image obeys its header, its elements hold ops that they accept, no element stands twice,
every arc has exactly one route into it and every constant port none, no source has more than 8 routes, and its declared latency covers the computed
one.
Where the spec leaves a point open, what it says is the model's own choice: log 42. -/
def Obligations.ImagesAreCheckedAndLoaded : Prop :=
  Sys2Proof.Claims.ImagesAreLoaded ∧ Sys2Proof.Claims.AcceptedImagesObeyTheChecks

/-- R377, R380, R387, R393: a header that fails a check halts its queue with the code of the first; so does an ill-placed tail, code 6. A good tail
moves the live tail and rings, or is latched while the queue is switched out; an ill-placed one halts at once there too (log 11). R381, R382, R384,
R386: a sound packet is processed with its own effect: `PAD` and `NOP` have none, a `SIGNAL` resolves its future or lowers its rope's `BYTES` and is
counted afterwards, `WAITF` waits for its future, `REPLY` ends the `SYSC` of its token; a packet that breaks its row is refused with its code, and
acts on nothing. R378, R386: every update of a control block is written in six steps, three to the primary and the same three to the shadow: `SEQW` is
made odd, the fields are written, `SEQW` is made even again. With the primary complete a packet's number stands in `PROGRESS`, and the vector is
raised if the update asks; the shadow is whole while the primary is written, and the primary while the shadow is. Behind the last write a core that
works on the queue goes on with it.
Where the spec leaves a point open, what it says is the model's own choice: log 11. -/
def Obligations.QueuePacketsAreProcessed : Prop :=
  Sys2Proof.Claims.BadPacketsHaltTheQueue ∧ Sys2Proof.Claims.PacketsAreProcessed ∧ Sys2Proof.Claims.UpdatesAreSplit

/-- R381, R388 to R390: a `LAUNCH` whose fields, length, entry or window is illegal is refused with its code; it changes no configuration and starts
nothing. R388 to R392: a `LAUNCH` with one entry applies it to the configuration that it starts from, stores the result where it asks and, where no
cluster holds an affected image, is processed at once; one with a header registers it as `SPAWN` would, and one whose header is refused records code
17.
Where the spec leaves a point open, what it says is the model's own choice: log 11 and 48. -/
def Obligations.LaunchesAreCheckedAndStart : Prop :=
  Sys2Proof.Claims.BadLaunchesAreRefused ∧ Sys2Proof.Claims.LaunchesApplyAndStart

/-- R380, R386, R387, R393 to R395: an idle core takes the first event whose lock is free, its thread is ready and reads its word; at switch-out the
queue stops with its `PROGRESS` kept, at switch-in, of a resident context, the latched tail is applied, and each waits for the updates under way; an
event that has taken 2^20 ticks is ended, its core reset and a recovery event queued for its queue, whose second expiry halts it with code 7; a halted
queue that is re-armed runs again from `HEAD`. R375, R383, R322, R215, R407, R412: a host access that an HDM decoder leads to a populated address
reads or writes the line's home, and a read's bytes go to the host; behind one that waits, or at a home that serves others first, it waits; the host's
advance of `SVCHEAD` lets the waiting request enter the ring; a page response wakes the thread that waits for the page, by a retry or with the trap;
data of a peer land, with their poison, at the rope's context, the last of them counted at the rope and acknowledged; without a rope the data wait for
the last, and the whole range has to lie in an open umbra. What an access that no decoder leads to a populated address does is the model's choice (log
51), and that the data wait is too (log 20).
Where the spec leaves a point open, what it says is the model's own choice: log 11, 20 and 51. -/
def Obligations.EventsAndOutsideAccesses : Prop :=
  Sys2Proof.Claims.EventsRunOnCommandCores ∧ Sys2Proof.Claims.HostAndPeerAccesses

/-- R396 to R398, R410, R411: a write of `PDESC` creates or destroys its partition where R397 lets it, and otherwise changes nothing; `PSHARE` takes a
mask of a legal population; `UMBPOOL` changes while no umbra is open; a shoot-down takes the next number, goes to every TLB, removes what it covers
from each at its receipt, and is complete when the last has received it. R404 to R406: install maps a clean frame to an unmapped guest frame and makes
it the partition's; free unmaps it, purges its lines, and reads busy until the scrub has zeroed it; protect sets the write permission, with 0 busy
until the write-backs are done; each command is refused with its code, and ignored while another is busy.
Where the spec leaves a point open, what it says is the model's own choice: log 16. -/
def Obligations.PartitionsAndStageTwo : Prop :=
  Sys2Proof.Claims.PartitionRegisters ∧ Sys2Proof.Claims.StageTwoCommands

/-- R414 to R418, R421: a slice end starts the token, which stops each cluster and passes on; a stopped cluster marks its save area and then saves its
outgoing context and loads the incoming one, the scratchpad and the tiles through memory where stage 2 maps the area; when the last has resumed, the
incoming context is resident; a stop saves and loads none, then the final report stands and the partition reads stopped; the report has one bit for
each 64 KiB written. What of an area stands in no layout of the spec is kept beside memory (log 17). R419, R294, R420: a drain command loads the drain
image unless the fabric runs a stream of a context that is not resident, and a stream that it cuts off ends, with its record due; a fabric that holds
tokens and fires nothing for 2^20 ticks is reported, by an error record that names the fabric (log 46); a function-level reset ends every task and
disables every queue of its partition and leaves its frames and maps; the partition is then ready again.
Where the spec leaves a point open, what it says is the model's own choice: log 16, 17 and 46. -/
def Obligations.ContextSwitchesAndResets : Prop :=
  Sys2Proof.Claims.ContextsAreSwitched ∧ Sys2Proof.Claims.DrainsAndResets

/-- R424, R425: the head of a die's queue is granted when it fits under 1000 A and no stretch is to be ended; one that does not fit stays the head,
and nothing is granted; a stretch above S of 66,000 ticks stops every grant until the current falls. R423, R425, R426: a cap from 400 to 2000 W is
taken and the shedding order evaluated at once: the named partition is slowed, its fabrics' limit following its share, paused, its clusters no longer
dispatching, or evicted by a sweep; another cap is ignored. R427, R428: every armed entry is sampled; one whose sample crosses its threshold in its
direction decrements its header's counter once and is disarmed, fired, with the underflow marked if the counter was 0; any other keeps its sample.
Where the spec leaves a point open, what it says is the model's own choice: log 18, 44 and 46. -/
def Obligations.LimitsGrantsAndWatches : Prop :=
  Sys2Proof.Claims.BelayGrants ∧ Sys2Proof.Claims.CapsShedLoad ∧ Sys2Proof.Claims.WatchesFire

/-- R429 to R431: the scrubber counts a corrected word and poisons an uncorrectable line or scratchpad doubleword, and records either; a fault that is
detected before an instruction retires traps poisoned data there; a corrected flit changes nothing; a late datapath error ends the tasks of its
cluster and is recorded. What the scrub of a word outside memory does is the model's choice (log 55), and so is what a record names (log 46). R374,
R432: a device reset leaves everything in the device at reset; a verified image is measured in register 0 and starts the command cores, a bad one
leaves only the recovery function, which checks a new image, and no other step of the host acts; an SPDM request of a running device is answered with
the measurements; link training records width and rate. R7, R376, R396: a write of a register without behaviour of its own sets its fields and nothing
else; a write of a read-only or unlisted offset, of a misaligned one, or of a VF's, changes nothing; a write-only or unlisted offset of a partition's
block reads 0. That an address register keeps only the bits above its alignment, and what a misaligned offset does, is the model's choice (log 18).
Where the spec leaves a point open, what it says is the model's own choice: log 13, 18, 46, 47 and 55. -/
def Obligations.ErrorsBootAndRegisters : Prop :=
  Sys2Proof.Claims.ErrorsAreReported ∧ Sys2Proof.Claims.BootAndAttestation ∧ Sys2Proof.Claims.RegistersTakeTheirFields

/-- R77, R78, R113, R124: when the bytes at the PC of the running thread decode to an instruction, a step is exec of it, and its end lets time pass
and turns to another ready thread if there is one; the ready thread that has waited longest has its turn in the end, and so has the oldest move of the
units; a halfword that the L1 does not hold comes from its home.
Where the spec leaves a point open, what it says is the model's own choice: log 1 and 3. -/
def Obligations.StepRunsTheDecodedInstruction : Prop :=
  Sys2Proof.Claims.StepRunsTheDecodedInstruction

/-- Words that the spec writes out from its encodings (03 R79, R92, R101; 05 R116, R119, R120, R132, R134; 06 R145, R148, R150; 07; 08; 09; 10), one
or two of each format, and the instruction that the spec says each is. -/
def Obligations.DecodedWords : Prop :=
  Sys2Proof.Claims.DecodedWords

/-- R78, R104 to R109: decoding the bytes of a well-formed instruction that has an encoding gives it back, with whatever follows left over. -/
def Obligations.DecodingInvertsEncoding : Prop :=
  Sys2Proof.Claims.DecodingInvertsEncoding

/-- R110, R111: whatever is decoded is well-formed or the illegal encoding, with the number of bytes that its length says. -/
def Obligations.DecodingGivesWellFormed : Prop :=
  Sys2Proof.Claims.DecodingGivesWellFormed

/-- R376, R396, R405, R423: the registers of the device hold after reset the values that the tables of 21 to 23 state, and its memories are in
canonical form. -/
def Obligations.ResetLeavesTheStatedValues : Prop :=
  Sys2Proof.Claims.ResetLeavesTheStatedValues

/-- Every step keeps device memory, host memory and the scratchpads in canonical form. -/
def Obligations.StepsKeepMemoriesCanonical : Prop :=
  Sys2Proof.Claims.StepsKeepMemoriesCanonical
end

