-- ==== Sys2Proof/Laws/Memory.lean ====
section
/-! SUPPORT. The laws of memory: reading after writing, and that every memory operation keeps the canonical form; the laws of
tables. -/

namespace Sys2Proof.Machine

/-! ### Reading after writing -/

theorem Memory.wfFrom_mono {lo lo' : Nat} (h : lo' ≤ lo) : {m : Memory} → Memory.wfFrom lo m = true →
    Memory.wfFrom lo' m = true
  | [], _ => rfl
  | (k, b) :: m, hm => by
    simp only [Memory.wfFrom, Bool.and_eq_true, decide_eq_true_eq] at hm ⊢
    exact ⟨⟨by omega, hm.1.2⟩, hm.2⟩

/-- Below its first address a memory reads as unlisted. -/
theorem Memory.read_below {lo : Nat} : {m : Memory} → Memory.wfFrom lo m = true → {a : Nat} → a < lo →
    Memory.read m a = Memory.unlisted
  | [], _, _, _ => rfl
  | (k, b) :: m, hm, a, ha => by
    simp only [Memory.wfFrom, Bool.and_eq_true, decide_eq_true_eq] at hm
    have hk : a ≠ k := by omega
    have hlt : a < k := by omega
    simp [Memory.read, hk, hlt]

theorem Memory.read_write_from {lo : Nat} : {m : Memory} → Memory.wfFrom lo m = true → (a : Nat) → (v : Byte) → (c : Nat) →
    Memory.read (Memory.write m a v) c = if c = a then v else Memory.read m c
  | [], _, a, v, c => by
    by_cases hv : v = Memory.unlisted
    · by_cases hc : c = a <;> simp [Memory.write, Memory.read, hv, hc]
    · by_cases hc : c = a <;> simp [Memory.write, Memory.read, hv, hc]
  | (k, b) :: m, hm, a, v, c => by
    have hm' := hm
    simp only [Memory.wfFrom, Bool.and_eq_true, decide_eq_true_eq] at hm
    obtain ⟨⟨hlo, hb⟩, hrest⟩ := hm
    have ih := Memory.read_write_from hrest a v c
    have below : ∀ x, x < k + 1 → Memory.read m x = Memory.unlisted := fun x hx => Memory.read_below hrest hx
    by_cases hak : a = k
    · subst hak
      by_cases hv : v = Memory.unlisted
      · by_cases hc : c = a
        · subst hc; simp [Memory.write, hv, below c (by omega)]
        · by_cases hlt : c < a
          · simp [Memory.write, Memory.read, hv, hc, hlt, below c (by omega)]
          · simp [Memory.write, Memory.read, hv, hc, hlt]
      · by_cases hc : c = a <;> simp [Memory.write, Memory.read, hv, hc]
    · by_cases hlt : a < k
      · by_cases hv : v = Memory.unlisted
        · by_cases hc : c = a
          · subst hc; simp [Memory.write, Memory.read, hak, hlt, hv]
          · simp [Memory.write, Memory.read, hak, hlt, hv, hc]
        · by_cases hc : c = a
          · subst hc; simp [Memory.write, Memory.read, hak, hlt, hv]
          · by_cases hca : c < a
            · have : c ≠ k := by omega
              have : c < k := by omega
              simp [Memory.write, Memory.read, *]
            · simp [Memory.write, Memory.read, hak, hlt, hv, hc, hca]
      · by_cases hck : c = k
        · have hca : c ≠ a := by omega
          simp [Memory.write, Memory.read, hak, hlt, hck, Ne.symm hak]
        · by_cases hclt : c < k
          · have hca : c ≠ a := by omega
            simp [Memory.write, Memory.read, hak, hlt, hck, hclt, hca]
          · simp [Memory.write, Memory.read, hak, hlt, hck, hclt, ih]

/-- A byte read after a byte written. -/
theorem Memory.read_write {m : Memory} (h : m.wf = true) (a : Nat) (v : Byte) (c : Nat) :
    (m.write a v).read c = if c = a then v else m.read c := Memory.read_write_from h a v c

/-! ### The canonical form -/

theorem Memory.wfFrom_write {lo : Nat} : {m : Memory} → Memory.wfFrom lo m = true → {a : Nat} → lo ≤ a → (v : Byte) →
    Memory.wfFrom lo (Memory.write m a v) = true
  | [], _, a, ha, v => by
    by_cases hv : v = Memory.unlisted <;> simp [Memory.write, Memory.wfFrom, hv, ha]
  | (k, b) :: m, hm, a, ha, v => by
    have hm' := hm
    simp only [Memory.wfFrom, Bool.and_eq_true, decide_eq_true_eq] at hm
    obtain ⟨⟨hlo, hb⟩, hrest⟩ := hm
    by_cases hak : a = k
    · subst hak
      by_cases hv : v = Memory.unlisted
      · simpa [Memory.write, hv] using Memory.wfFrom_mono (by omega) hrest
      · simp [Memory.write, hv, Memory.wfFrom, hlo, hrest]
    · by_cases hlt : a < k
      · by_cases hv : v = Memory.unlisted
        · simpa [Memory.write, hak, hlt, hv] using hm'
        · have hka : a + 1 ≤ k := hlt
          simp [Memory.write, hak, hlt, hv, Memory.wfFrom, ha, hb, hrest, hka]
      · have hka : k + 1 ≤ a := by omega
        simp [Memory.write, hak, hlt, Memory.wfFrom, hlo, hb, Memory.wfFrom_write hrest hka v]

/-- Writing a byte keeps the canonical form. -/
theorem Memory.wf_write {m : Memory} (h : m.wf = true) (a : Nat) (v : Byte) : (m.write a v).wf = true :=
  Memory.wfFrom_write h (Nat.zero_le a) v

/-- Writing bytes keeps the canonical form. -/
theorem Memory.wf_writeBytes : {m : Memory} → m.wf = true → (a : Nat) → (bs : List Byte) → (m.writeBytes a bs).wf = true
  | _, h, _, [] => h
  | _, h, a, b :: bs => Memory.wf_writeBytes (Memory.wf_write h a b) (a + 1) bs

/-- Writing a number keeps the canonical form. -/
theorem Memory.wf_writeNat {m : Memory} (h : m.wf = true) (a n v : Nat) : (m.writeNat a n v).wf = true :=
  Memory.wf_writeBytes h a _

theorem Memory.wfFrom_filter (keep : Host.Cell → Bool) : {lo : Nat} → {m : Memory} → Memory.wfFrom lo m = true →
    Memory.wfFrom lo (m.filter keep) = true
  | _, [], _ => rfl
  | lo, (k, b) :: m, h => by
    simp only [Memory.wfFrom, Bool.and_eq_true, decide_eq_true_eq] at h
    by_cases hk : keep (k, b) = true
    · simp [hk, Memory.wfFrom, h.1.1, h.1.2, Memory.wfFrom_filter keep h.2]
    · have := Memory.wfFrom_filter keep h.2
      simpa [List.filter_cons, hk] using Memory.wfFrom_mono (by omega) this

/-- Leaving bytes out keeps the canonical form. -/
theorem Memory.wf_filter {m : Memory} (h : m.wf = true) (keep : Host.Cell → Bool) : Memory.wf (m.filter keep) = true :=
  Memory.wfFrom_filter keep h

/-- Clearing a range keeps the canonical form. -/
theorem Memory.wf_clear {m : Memory} (h : m.wf = true) (lo n : Nat) : (m.clear lo n).wf = true := Memory.wf_filter h _

/-- The empty memory has the canonical form. -/
theorem Memory.wf_nil : Memory.wf [] = true := rfl

/-- A byte read after bytes written: the one written there, or the one before. -/
theorem Memory.read_writeBytes : {m : Memory} → m.wf = true → (a : Nat) → (bs : List Byte) → (c : Nat) →
    (m.writeBytes a bs).read c = if a ≤ c ∧ c < a + bs.length then bs.getD (c - a) 0 else m.read c
  | m, _, a, [], c => by
    have : ¬ (a ≤ c ∧ c < a + ([] : List Byte).length) := by simp
    simp only [if_neg this, Memory.writeBytes]
  | m, h, a, b :: bs, c => by
    have ih := Memory.read_writeBytes (Memory.wf_write h a b) (a + 1) bs c
    rw [Memory.writeBytes, ih, Memory.read_write h]
    by_cases hc : c = a
    · subst hc; simp
    · by_cases hr : a + 1 ≤ c ∧ c < a + 1 + bs.length
      · have hr' : a ≤ c ∧ c < a + (b :: bs).length := by simp only [List.length_cons]; omega
        have hs : c - a = (c - (a + 1)) + 1 := by omega
        rw [if_pos hr, if_pos hr', hs, List.getD_cons_succ]
      · have hr' : ¬ (a ≤ c ∧ c < a + (b :: bs).length) := by simp only [List.length_cons]; omega
        simp only [if_neg hr, if_neg hr', if_neg hc]

/-! ### Numbers in bytes -/

theorem leBytes_length : (n v : Nat) → (leBytes n v).length = n
  | 0, _ => rfl
  | n + 1, v => by simp [leBytes, leBytes_length n]

/-- A number read from the bytes it was written in (00 R5). -/
theorem leNat_leBytes : (n v : Nat) → leNat (leBytes n v) = v % 2 ^ (8 * n)
  | 0, v => by simp [leBytes, leNat, Nat.mod_one]
  | n + 1, v => by
    have ih := leNat_leBytes n (v / 256)
    have hp : 2 ^ (8 * (n + 1)) = 256 * 2 ^ (8 * n) := by rw [Nat.mul_add, pow_add]; norm_num; ring
    simp only [leBytes, leNat, ih, BitVec.toNat_ofNat, hp]
    rw [Nat.mod_mul]

theorem leNat_lt : (bs : List Byte) → leNat bs < 2 ^ (8 * bs.length)
  | [] => by simp [leNat]
  | b :: bs => by
    have ih := leNat_lt bs
    have hb := b.isLt
    have hp : 2 ^ (8 * (b :: bs).length) = 256 * 2 ^ (8 * bs.length) := by
      rw [List.length_cons, Nat.mul_add, pow_add]; norm_num; ring
    rw [hp]; simp only [leNat]; omega

/-! ### Tables -/

@[simp] theorem Tbl.get?_put {α : Type} : (t : Tbl α) → (a : Nat) → (v : α) → (b : Nat) →
    Tbl.get? (Tbl.put t a v) b = if a = b then some v else Tbl.get? t b
  | [], a, v, b => by by_cases h : a = b <;> simp [Tbl.put, Tbl.get?, h]
  | (k, w) :: t, a, v, b => by
    have ih := Tbl.get?_put t a v b
    by_cases hk : k = a
    · subst hk
      by_cases hb : k = b <;> simp [Tbl.put, Tbl.get?, hb]
    · by_cases hb : k = b
      · subst hb; simp [Tbl.put, Tbl.get?, hk, Ne.symm hk]
      · simp [Tbl.put, Tbl.get?, hk, hb, ih]

/-- A record read from a table after one was put. -/
@[simp] theorem Tbl.getD_put {α : Type} (t : Tbl α) (a : Nat) (v : α) (b : Nat) (d : α) :
    Tbl.getD (Tbl.put t a v) b d = if a = b then v else Tbl.getD t b d := by
  by_cases h : a = b <;> simp [Tbl.getD, h]

end Sys2Proof.Machine
end

