-- ==== Sys2Proof/Laws/State.lean ====
section
/-! SUPPORT. What each update of the state leaves alone: one lemma per field per update. -/

namespace Sys2Proof.Machine

/-! ### `State.setCluster` -/

@[simp] theorem State.setCluster_tick (s : State) (cl : Nat) (c : Cluster) :
    (s.setCluster cl c).tick = s.tick := rfl
@[simp] theorem State.setCluster_fresh (s : State) (cl : Nat) (c : Cluster) :
    (s.setCluster cl c).fresh = s.fresh := rfl
@[simp] theorem State.setCluster_uidNext (s : State) (cl : Nat) (c : Cluster) :
    (s.setCluster cl c).uidNext = s.uidNext := rfl
@[simp] theorem State.setCluster_tokenNext (s : State) (cl : Nat) (c : Cluster) :
    (s.setCluster cl c).tokenNext = s.tokenNext := rfl
@[simp] theorem State.setCluster_agenda (s : State) (cl : Nat) (c : Cluster) :
    (s.setCluster cl c).agenda = s.agenda := rfl
@[simp] theorem State.setCluster_rotation (s : State) (cl : Nat) (c : Cluster) :
    (s.setCluster cl c).rotation = s.rotation := rfl
@[simp] theorem State.setCluster_patience (s : State) (cl : Nat) (c : Cluster) :
    (s.setCluster cl c).patience = s.patience := rfl
@[simp] theorem State.setCluster_cur (s : State) (cl : Nat) (c : Cluster) :
    (s.setCluster cl c).cur = s.cur := rfl
@[simp] theorem State.setCluster_others (s : State) (cl : Nat) (c : Cluster) :
    (s.setCluster cl c).others = s.others := rfl
@[simp] theorem State.setCluster_dies (s : State) (cl : Nat) (c : Cluster) :
    (s.setCluster cl c).dies = s.dies := rfl
@[simp] theorem State.setCluster_stackBases (s : State) (cl : Nat) (c : Cluster) :
    (s.setCluster cl c).stackBases = s.stackBases := rfl
@[simp] theorem State.setCluster_mem (s : State) (cl : Nat) (c : Cluster) :
    (s.setCluster cl c).mem = s.mem := rfl
@[simp] theorem State.setCluster_poison (s : State) (cl : Nat) (c : Cluster) :
    (s.setCluster cl c).poison = s.poison := rfl
@[simp] theorem State.setCluster_hostMem (s : State) (cl : Nat) (c : Cluster) :
    (s.setCluster cl c).hostMem = s.hostMem := rfl
@[simp] theorem State.setCluster_hostPoison (s : State) (cl : Nat) (c : Cluster) :
    (s.setCluster cl c).hostPoison = s.hostPoison := rfl
@[simp] theorem State.setCluster_l2 (s : State) (cl : Nat) (c : Cluster) :
    (s.setCluster cl c).l2 = s.l2 := rfl
@[simp] theorem State.setCluster_frames (s : State) (cl : Nat) (c : Cluster) :
    (s.setCluster cl c).frames = s.frames := rfl
@[simp] theorem State.setCluster_s2map (s : State) (cl : Nat) (c : Cluster) :
    (s.setCluster cl c).s2map = s.s2map := rfl
@[simp] theorem State.setCluster_parts (s : State) (cl : Nat) (c : Cluster) :
    (s.setCluster cl c).parts = s.parts := rfl
@[simp] theorem State.setCluster_regs (s : State) (cl : Nat) (c : Cluster) :
    (s.setCluster cl c).regs = s.regs := rfl
@[simp] theorem State.setCluster_biv (s : State) (cl : Nat) (c : Cluster) :
    (s.setCluster cl c).biv = s.biv := rfl
@[simp] theorem State.setCluster_walks (s : State) (cl : Nat) (c : Cluster) :
    (s.setCluster cl c).walks = s.walks := rfl
@[simp] theorem State.setCluster_faults (s : State) (cl : Nat) (c : Cluster) :
    (s.setCluster cl c).faults = s.faults := rfl
@[simp] theorem State.setCluster_reqs (s : State) (cl : Nat) (c : Cluster) :
    (s.setCluster cl c).reqs = s.reqs := rfl
@[simp] theorem State.setCluster_syscs (s : State) (cl : Nat) (c : Cluster) :
    (s.setCluster cl c).syscs = s.syscs := rfl
@[simp] theorem State.setCluster_pf (s : State) (cl : Nat) (c : Cluster) :
    (s.setCluster cl c).pf = s.pf := rfl
@[simp] theorem State.setCluster_cmds (s : State) (cl : Nat) (c : Cluster) :
    (s.setCluster cl c).cmds = s.cmds := rfl
@[simp] theorem State.setCluster_events (s : State) (cl : Nat) (c : Cluster) :
    (s.setCluster cl c).events = s.events := rfl
@[simp] theorem State.setCluster_boot (s : State) (cl : Nat) (c : Cluster) :
    (s.setCluster cl c).boot = s.boot := rfl
@[simp] theorem State.setCluster_link (s : State) (cl : Nat) (c : Cluster) :
    (s.setCluster cl c).link = s.link := rfl
@[simp] theorem State.setCluster_irqs (s : State) (cl : Nat) (c : Cluster) :
    (s.setCluster cl c).irqs = s.irqs := rfl
@[simp] theorem State.setCluster_sent (s : State) (cl : Nat) (c : Cluster) :
    (s.setCluster cl c).sent = s.sent := rfl
@[simp] theorem State.setCluster_arrivals (s : State) (cl : Nat) (c : Cluster) :
    (s.setCluster cl c).arrivals = s.arrivals := rfl
@[simp] theorem State.setCluster_inbound (s : State) (cl : Nat) (c : Cluster) :
    (s.setCluster cl c).inbound = s.inbound := rfl

/-! ### `State.mapCluster` -/

@[simp] theorem State.mapCluster_tick (s : State) (cl : Nat) (f : Cluster → Cluster) :
    (s.mapCluster cl f).tick = s.tick := rfl
@[simp] theorem State.mapCluster_fresh (s : State) (cl : Nat) (f : Cluster → Cluster) :
    (s.mapCluster cl f).fresh = s.fresh := rfl
@[simp] theorem State.mapCluster_uidNext (s : State) (cl : Nat) (f : Cluster → Cluster) :
    (s.mapCluster cl f).uidNext = s.uidNext := rfl
@[simp] theorem State.mapCluster_tokenNext (s : State) (cl : Nat) (f : Cluster → Cluster) :
    (s.mapCluster cl f).tokenNext = s.tokenNext := rfl
@[simp] theorem State.mapCluster_agenda (s : State) (cl : Nat) (f : Cluster → Cluster) :
    (s.mapCluster cl f).agenda = s.agenda := rfl
@[simp] theorem State.mapCluster_rotation (s : State) (cl : Nat) (f : Cluster → Cluster) :
    (s.mapCluster cl f).rotation = s.rotation := rfl
@[simp] theorem State.mapCluster_patience (s : State) (cl : Nat) (f : Cluster → Cluster) :
    (s.mapCluster cl f).patience = s.patience := rfl
@[simp] theorem State.mapCluster_cur (s : State) (cl : Nat) (f : Cluster → Cluster) :
    (s.mapCluster cl f).cur = s.cur := rfl
@[simp] theorem State.mapCluster_others (s : State) (cl : Nat) (f : Cluster → Cluster) :
    (s.mapCluster cl f).others = s.others := rfl
@[simp] theorem State.mapCluster_dies (s : State) (cl : Nat) (f : Cluster → Cluster) :
    (s.mapCluster cl f).dies = s.dies := rfl
@[simp] theorem State.mapCluster_stackBases (s : State) (cl : Nat) (f : Cluster → Cluster) :
    (s.mapCluster cl f).stackBases = s.stackBases := rfl
@[simp] theorem State.mapCluster_mem (s : State) (cl : Nat) (f : Cluster → Cluster) :
    (s.mapCluster cl f).mem = s.mem := rfl
@[simp] theorem State.mapCluster_poison (s : State) (cl : Nat) (f : Cluster → Cluster) :
    (s.mapCluster cl f).poison = s.poison := rfl
@[simp] theorem State.mapCluster_hostMem (s : State) (cl : Nat) (f : Cluster → Cluster) :
    (s.mapCluster cl f).hostMem = s.hostMem := rfl
@[simp] theorem State.mapCluster_hostPoison (s : State) (cl : Nat) (f : Cluster → Cluster) :
    (s.mapCluster cl f).hostPoison = s.hostPoison := rfl
@[simp] theorem State.mapCluster_l2 (s : State) (cl : Nat) (f : Cluster → Cluster) :
    (s.mapCluster cl f).l2 = s.l2 := rfl
@[simp] theorem State.mapCluster_frames (s : State) (cl : Nat) (f : Cluster → Cluster) :
    (s.mapCluster cl f).frames = s.frames := rfl
@[simp] theorem State.mapCluster_s2map (s : State) (cl : Nat) (f : Cluster → Cluster) :
    (s.mapCluster cl f).s2map = s.s2map := rfl
@[simp] theorem State.mapCluster_parts (s : State) (cl : Nat) (f : Cluster → Cluster) :
    (s.mapCluster cl f).parts = s.parts := rfl
@[simp] theorem State.mapCluster_regs (s : State) (cl : Nat) (f : Cluster → Cluster) :
    (s.mapCluster cl f).regs = s.regs := rfl
@[simp] theorem State.mapCluster_biv (s : State) (cl : Nat) (f : Cluster → Cluster) :
    (s.mapCluster cl f).biv = s.biv := rfl
@[simp] theorem State.mapCluster_walks (s : State) (cl : Nat) (f : Cluster → Cluster) :
    (s.mapCluster cl f).walks = s.walks := rfl
@[simp] theorem State.mapCluster_faults (s : State) (cl : Nat) (f : Cluster → Cluster) :
    (s.mapCluster cl f).faults = s.faults := rfl
@[simp] theorem State.mapCluster_reqs (s : State) (cl : Nat) (f : Cluster → Cluster) :
    (s.mapCluster cl f).reqs = s.reqs := rfl
@[simp] theorem State.mapCluster_syscs (s : State) (cl : Nat) (f : Cluster → Cluster) :
    (s.mapCluster cl f).syscs = s.syscs := rfl
@[simp] theorem State.mapCluster_pf (s : State) (cl : Nat) (f : Cluster → Cluster) :
    (s.mapCluster cl f).pf = s.pf := rfl
@[simp] theorem State.mapCluster_cmds (s : State) (cl : Nat) (f : Cluster → Cluster) :
    (s.mapCluster cl f).cmds = s.cmds := rfl
@[simp] theorem State.mapCluster_events (s : State) (cl : Nat) (f : Cluster → Cluster) :
    (s.mapCluster cl f).events = s.events := rfl
@[simp] theorem State.mapCluster_boot (s : State) (cl : Nat) (f : Cluster → Cluster) :
    (s.mapCluster cl f).boot = s.boot := rfl
@[simp] theorem State.mapCluster_link (s : State) (cl : Nat) (f : Cluster → Cluster) :
    (s.mapCluster cl f).link = s.link := rfl
@[simp] theorem State.mapCluster_irqs (s : State) (cl : Nat) (f : Cluster → Cluster) :
    (s.mapCluster cl f).irqs = s.irqs := rfl
@[simp] theorem State.mapCluster_sent (s : State) (cl : Nat) (f : Cluster → Cluster) :
    (s.mapCluster cl f).sent = s.sent := rfl
@[simp] theorem State.mapCluster_arrivals (s : State) (cl : Nat) (f : Cluster → Cluster) :
    (s.mapCluster cl f).arrivals = s.arrivals := rfl
@[simp] theorem State.mapCluster_inbound (s : State) (cl : Nat) (f : Cluster → Cluster) :
    (s.mapCluster cl f).inbound = s.inbound := rfl

/-! ### `State.mapFabric` -/

@[simp] theorem State.mapFabric_tick (s : State) (cl n : Nat) (f : Fabric → Fabric) :
    (s.mapFabric cl n f).tick = s.tick := rfl
@[simp] theorem State.mapFabric_fresh (s : State) (cl n : Nat) (f : Fabric → Fabric) :
    (s.mapFabric cl n f).fresh = s.fresh := rfl
@[simp] theorem State.mapFabric_uidNext (s : State) (cl n : Nat) (f : Fabric → Fabric) :
    (s.mapFabric cl n f).uidNext = s.uidNext := rfl
@[simp] theorem State.mapFabric_tokenNext (s : State) (cl n : Nat) (f : Fabric → Fabric) :
    (s.mapFabric cl n f).tokenNext = s.tokenNext := rfl
@[simp] theorem State.mapFabric_agenda (s : State) (cl n : Nat) (f : Fabric → Fabric) :
    (s.mapFabric cl n f).agenda = s.agenda := rfl
@[simp] theorem State.mapFabric_rotation (s : State) (cl n : Nat) (f : Fabric → Fabric) :
    (s.mapFabric cl n f).rotation = s.rotation := rfl
@[simp] theorem State.mapFabric_patience (s : State) (cl n : Nat) (f : Fabric → Fabric) :
    (s.mapFabric cl n f).patience = s.patience := rfl
@[simp] theorem State.mapFabric_cur (s : State) (cl n : Nat) (f : Fabric → Fabric) :
    (s.mapFabric cl n f).cur = s.cur := rfl
@[simp] theorem State.mapFabric_others (s : State) (cl n : Nat) (f : Fabric → Fabric) :
    (s.mapFabric cl n f).others = s.others := rfl
@[simp] theorem State.mapFabric_dies (s : State) (cl n : Nat) (f : Fabric → Fabric) :
    (s.mapFabric cl n f).dies = s.dies := rfl
@[simp] theorem State.mapFabric_stackBases (s : State) (cl n : Nat) (f : Fabric → Fabric) :
    (s.mapFabric cl n f).stackBases = s.stackBases := rfl
@[simp] theorem State.mapFabric_mem (s : State) (cl n : Nat) (f : Fabric → Fabric) :
    (s.mapFabric cl n f).mem = s.mem := rfl
@[simp] theorem State.mapFabric_poison (s : State) (cl n : Nat) (f : Fabric → Fabric) :
    (s.mapFabric cl n f).poison = s.poison := rfl
@[simp] theorem State.mapFabric_hostMem (s : State) (cl n : Nat) (f : Fabric → Fabric) :
    (s.mapFabric cl n f).hostMem = s.hostMem := rfl
@[simp] theorem State.mapFabric_hostPoison (s : State) (cl n : Nat) (f : Fabric → Fabric) :
    (s.mapFabric cl n f).hostPoison = s.hostPoison := rfl
@[simp] theorem State.mapFabric_l2 (s : State) (cl n : Nat) (f : Fabric → Fabric) :
    (s.mapFabric cl n f).l2 = s.l2 := rfl
@[simp] theorem State.mapFabric_frames (s : State) (cl n : Nat) (f : Fabric → Fabric) :
    (s.mapFabric cl n f).frames = s.frames := rfl
@[simp] theorem State.mapFabric_s2map (s : State) (cl n : Nat) (f : Fabric → Fabric) :
    (s.mapFabric cl n f).s2map = s.s2map := rfl
@[simp] theorem State.mapFabric_parts (s : State) (cl n : Nat) (f : Fabric → Fabric) :
    (s.mapFabric cl n f).parts = s.parts := rfl
@[simp] theorem State.mapFabric_regs (s : State) (cl n : Nat) (f : Fabric → Fabric) :
    (s.mapFabric cl n f).regs = s.regs := rfl
@[simp] theorem State.mapFabric_biv (s : State) (cl n : Nat) (f : Fabric → Fabric) :
    (s.mapFabric cl n f).biv = s.biv := rfl
@[simp] theorem State.mapFabric_walks (s : State) (cl n : Nat) (f : Fabric → Fabric) :
    (s.mapFabric cl n f).walks = s.walks := rfl
@[simp] theorem State.mapFabric_faults (s : State) (cl n : Nat) (f : Fabric → Fabric) :
    (s.mapFabric cl n f).faults = s.faults := rfl
@[simp] theorem State.mapFabric_reqs (s : State) (cl n : Nat) (f : Fabric → Fabric) :
    (s.mapFabric cl n f).reqs = s.reqs := rfl
@[simp] theorem State.mapFabric_syscs (s : State) (cl n : Nat) (f : Fabric → Fabric) :
    (s.mapFabric cl n f).syscs = s.syscs := rfl
@[simp] theorem State.mapFabric_pf (s : State) (cl n : Nat) (f : Fabric → Fabric) :
    (s.mapFabric cl n f).pf = s.pf := rfl
@[simp] theorem State.mapFabric_cmds (s : State) (cl n : Nat) (f : Fabric → Fabric) :
    (s.mapFabric cl n f).cmds = s.cmds := rfl
@[simp] theorem State.mapFabric_events (s : State) (cl n : Nat) (f : Fabric → Fabric) :
    (s.mapFabric cl n f).events = s.events := rfl
@[simp] theorem State.mapFabric_boot (s : State) (cl n : Nat) (f : Fabric → Fabric) :
    (s.mapFabric cl n f).boot = s.boot := rfl
@[simp] theorem State.mapFabric_link (s : State) (cl n : Nat) (f : Fabric → Fabric) :
    (s.mapFabric cl n f).link = s.link := rfl
@[simp] theorem State.mapFabric_irqs (s : State) (cl n : Nat) (f : Fabric → Fabric) :
    (s.mapFabric cl n f).irqs = s.irqs := rfl
@[simp] theorem State.mapFabric_sent (s : State) (cl n : Nat) (f : Fabric → Fabric) :
    (s.mapFabric cl n f).sent = s.sent := rfl
@[simp] theorem State.mapFabric_arrivals (s : State) (cl n : Nat) (f : Fabric → Fabric) :
    (s.mapFabric cl n f).arrivals = s.arrivals := rfl
@[simp] theorem State.mapFabric_inbound (s : State) (cl n : Nat) (f : Fabric → Fabric) :
    (s.mapFabric cl n f).inbound = s.inbound := rfl

/-! ### `State.mapWp` -/

@[simp] theorem State.mapWp_tick (s : State) (cl n : Nat) (f : WritePtr → WritePtr) :
    (s.mapWp cl n f).tick = s.tick := rfl
@[simp] theorem State.mapWp_fresh (s : State) (cl n : Nat) (f : WritePtr → WritePtr) :
    (s.mapWp cl n f).fresh = s.fresh := rfl
@[simp] theorem State.mapWp_uidNext (s : State) (cl n : Nat) (f : WritePtr → WritePtr) :
    (s.mapWp cl n f).uidNext = s.uidNext := rfl
@[simp] theorem State.mapWp_tokenNext (s : State) (cl n : Nat) (f : WritePtr → WritePtr) :
    (s.mapWp cl n f).tokenNext = s.tokenNext := rfl
@[simp] theorem State.mapWp_agenda (s : State) (cl n : Nat) (f : WritePtr → WritePtr) :
    (s.mapWp cl n f).agenda = s.agenda := rfl
@[simp] theorem State.mapWp_rotation (s : State) (cl n : Nat) (f : WritePtr → WritePtr) :
    (s.mapWp cl n f).rotation = s.rotation := rfl
@[simp] theorem State.mapWp_patience (s : State) (cl n : Nat) (f : WritePtr → WritePtr) :
    (s.mapWp cl n f).patience = s.patience := rfl
@[simp] theorem State.mapWp_cur (s : State) (cl n : Nat) (f : WritePtr → WritePtr) :
    (s.mapWp cl n f).cur = s.cur := rfl
@[simp] theorem State.mapWp_others (s : State) (cl n : Nat) (f : WritePtr → WritePtr) :
    (s.mapWp cl n f).others = s.others := rfl
@[simp] theorem State.mapWp_dies (s : State) (cl n : Nat) (f : WritePtr → WritePtr) :
    (s.mapWp cl n f).dies = s.dies := rfl
@[simp] theorem State.mapWp_stackBases (s : State) (cl n : Nat) (f : WritePtr → WritePtr) :
    (s.mapWp cl n f).stackBases = s.stackBases := rfl
@[simp] theorem State.mapWp_mem (s : State) (cl n : Nat) (f : WritePtr → WritePtr) :
    (s.mapWp cl n f).mem = s.mem := rfl
@[simp] theorem State.mapWp_poison (s : State) (cl n : Nat) (f : WritePtr → WritePtr) :
    (s.mapWp cl n f).poison = s.poison := rfl
@[simp] theorem State.mapWp_hostMem (s : State) (cl n : Nat) (f : WritePtr → WritePtr) :
    (s.mapWp cl n f).hostMem = s.hostMem := rfl
@[simp] theorem State.mapWp_hostPoison (s : State) (cl n : Nat) (f : WritePtr → WritePtr) :
    (s.mapWp cl n f).hostPoison = s.hostPoison := rfl
@[simp] theorem State.mapWp_l2 (s : State) (cl n : Nat) (f : WritePtr → WritePtr) :
    (s.mapWp cl n f).l2 = s.l2 := rfl
@[simp] theorem State.mapWp_frames (s : State) (cl n : Nat) (f : WritePtr → WritePtr) :
    (s.mapWp cl n f).frames = s.frames := rfl
@[simp] theorem State.mapWp_s2map (s : State) (cl n : Nat) (f : WritePtr → WritePtr) :
    (s.mapWp cl n f).s2map = s.s2map := rfl
@[simp] theorem State.mapWp_parts (s : State) (cl n : Nat) (f : WritePtr → WritePtr) :
    (s.mapWp cl n f).parts = s.parts := rfl
@[simp] theorem State.mapWp_regs (s : State) (cl n : Nat) (f : WritePtr → WritePtr) :
    (s.mapWp cl n f).regs = s.regs := rfl
@[simp] theorem State.mapWp_biv (s : State) (cl n : Nat) (f : WritePtr → WritePtr) :
    (s.mapWp cl n f).biv = s.biv := rfl
@[simp] theorem State.mapWp_walks (s : State) (cl n : Nat) (f : WritePtr → WritePtr) :
    (s.mapWp cl n f).walks = s.walks := rfl
@[simp] theorem State.mapWp_faults (s : State) (cl n : Nat) (f : WritePtr → WritePtr) :
    (s.mapWp cl n f).faults = s.faults := rfl
@[simp] theorem State.mapWp_reqs (s : State) (cl n : Nat) (f : WritePtr → WritePtr) :
    (s.mapWp cl n f).reqs = s.reqs := rfl
@[simp] theorem State.mapWp_syscs (s : State) (cl n : Nat) (f : WritePtr → WritePtr) :
    (s.mapWp cl n f).syscs = s.syscs := rfl
@[simp] theorem State.mapWp_pf (s : State) (cl n : Nat) (f : WritePtr → WritePtr) :
    (s.mapWp cl n f).pf = s.pf := rfl
@[simp] theorem State.mapWp_cmds (s : State) (cl n : Nat) (f : WritePtr → WritePtr) :
    (s.mapWp cl n f).cmds = s.cmds := rfl
@[simp] theorem State.mapWp_events (s : State) (cl n : Nat) (f : WritePtr → WritePtr) :
    (s.mapWp cl n f).events = s.events := rfl
@[simp] theorem State.mapWp_boot (s : State) (cl n : Nat) (f : WritePtr → WritePtr) :
    (s.mapWp cl n f).boot = s.boot := rfl
@[simp] theorem State.mapWp_link (s : State) (cl n : Nat) (f : WritePtr → WritePtr) :
    (s.mapWp cl n f).link = s.link := rfl
@[simp] theorem State.mapWp_irqs (s : State) (cl n : Nat) (f : WritePtr → WritePtr) :
    (s.mapWp cl n f).irqs = s.irqs := rfl
@[simp] theorem State.mapWp_sent (s : State) (cl n : Nat) (f : WritePtr → WritePtr) :
    (s.mapWp cl n f).sent = s.sent := rfl
@[simp] theorem State.mapWp_arrivals (s : State) (cl n : Nat) (f : WritePtr → WritePtr) :
    (s.mapWp cl n f).arrivals = s.arrivals := rfl
@[simp] theorem State.mapWp_inbound (s : State) (cl n : Nat) (f : WritePtr → WritePtr) :
    (s.mapWp cl n f).inbound = s.inbound := rfl

/-! ### `State.mapDie` -/

@[simp] theorem State.mapDie_tick (s : State) (d : Nat) (f : Die → Die) :
    (s.mapDie d f).tick = s.tick := rfl
@[simp] theorem State.mapDie_fresh (s : State) (d : Nat) (f : Die → Die) :
    (s.mapDie d f).fresh = s.fresh := rfl
@[simp] theorem State.mapDie_uidNext (s : State) (d : Nat) (f : Die → Die) :
    (s.mapDie d f).uidNext = s.uidNext := rfl
@[simp] theorem State.mapDie_tokenNext (s : State) (d : Nat) (f : Die → Die) :
    (s.mapDie d f).tokenNext = s.tokenNext := rfl
@[simp] theorem State.mapDie_agenda (s : State) (d : Nat) (f : Die → Die) :
    (s.mapDie d f).agenda = s.agenda := rfl
@[simp] theorem State.mapDie_rotation (s : State) (d : Nat) (f : Die → Die) :
    (s.mapDie d f).rotation = s.rotation := rfl
@[simp] theorem State.mapDie_patience (s : State) (d : Nat) (f : Die → Die) :
    (s.mapDie d f).patience = s.patience := rfl
@[simp] theorem State.mapDie_cur (s : State) (d : Nat) (f : Die → Die) :
    (s.mapDie d f).cur = s.cur := rfl
@[simp] theorem State.mapDie_others (s : State) (d : Nat) (f : Die → Die) :
    (s.mapDie d f).others = s.others := rfl
@[simp] theorem State.mapDie_clusters (s : State) (d : Nat) (f : Die → Die) :
    (s.mapDie d f).clusters = s.clusters := rfl
@[simp] theorem State.mapDie_stackBases (s : State) (d : Nat) (f : Die → Die) :
    (s.mapDie d f).stackBases = s.stackBases := rfl
@[simp] theorem State.mapDie_mem (s : State) (d : Nat) (f : Die → Die) :
    (s.mapDie d f).mem = s.mem := rfl
@[simp] theorem State.mapDie_poison (s : State) (d : Nat) (f : Die → Die) :
    (s.mapDie d f).poison = s.poison := rfl
@[simp] theorem State.mapDie_hostMem (s : State) (d : Nat) (f : Die → Die) :
    (s.mapDie d f).hostMem = s.hostMem := rfl
@[simp] theorem State.mapDie_hostPoison (s : State) (d : Nat) (f : Die → Die) :
    (s.mapDie d f).hostPoison = s.hostPoison := rfl
@[simp] theorem State.mapDie_l2 (s : State) (d : Nat) (f : Die → Die) :
    (s.mapDie d f).l2 = s.l2 := rfl
@[simp] theorem State.mapDie_frames (s : State) (d : Nat) (f : Die → Die) :
    (s.mapDie d f).frames = s.frames := rfl
@[simp] theorem State.mapDie_s2map (s : State) (d : Nat) (f : Die → Die) :
    (s.mapDie d f).s2map = s.s2map := rfl
@[simp] theorem State.mapDie_parts (s : State) (d : Nat) (f : Die → Die) :
    (s.mapDie d f).parts = s.parts := rfl
@[simp] theorem State.mapDie_regs (s : State) (d : Nat) (f : Die → Die) :
    (s.mapDie d f).regs = s.regs := rfl
@[simp] theorem State.mapDie_biv (s : State) (d : Nat) (f : Die → Die) :
    (s.mapDie d f).biv = s.biv := rfl
@[simp] theorem State.mapDie_walks (s : State) (d : Nat) (f : Die → Die) :
    (s.mapDie d f).walks = s.walks := rfl
@[simp] theorem State.mapDie_faults (s : State) (d : Nat) (f : Die → Die) :
    (s.mapDie d f).faults = s.faults := rfl
@[simp] theorem State.mapDie_reqs (s : State) (d : Nat) (f : Die → Die) :
    (s.mapDie d f).reqs = s.reqs := rfl
@[simp] theorem State.mapDie_syscs (s : State) (d : Nat) (f : Die → Die) :
    (s.mapDie d f).syscs = s.syscs := rfl
@[simp] theorem State.mapDie_pf (s : State) (d : Nat) (f : Die → Die) :
    (s.mapDie d f).pf = s.pf := rfl
@[simp] theorem State.mapDie_cmds (s : State) (d : Nat) (f : Die → Die) :
    (s.mapDie d f).cmds = s.cmds := rfl
@[simp] theorem State.mapDie_events (s : State) (d : Nat) (f : Die → Die) :
    (s.mapDie d f).events = s.events := rfl
@[simp] theorem State.mapDie_boot (s : State) (d : Nat) (f : Die → Die) :
    (s.mapDie d f).boot = s.boot := rfl
@[simp] theorem State.mapDie_link (s : State) (d : Nat) (f : Die → Die) :
    (s.mapDie d f).link = s.link := rfl
@[simp] theorem State.mapDie_irqs (s : State) (d : Nat) (f : Die → Die) :
    (s.mapDie d f).irqs = s.irqs := rfl
@[simp] theorem State.mapDie_sent (s : State) (d : Nat) (f : Die → Die) :
    (s.mapDie d f).sent = s.sent := rfl
@[simp] theorem State.mapDie_arrivals (s : State) (d : Nat) (f : Die → Die) :
    (s.mapDie d f).arrivals = s.arrivals := rfl
@[simp] theorem State.mapDie_inbound (s : State) (d : Nat) (f : Die → Die) :
    (s.mapDie d f).inbound = s.inbound := rfl

/-! ### `State.mapStack` -/

@[simp] theorem State.mapStack_tick (s : State) (k : Nat) (f : StackBase → StackBase) :
    (s.mapStack k f).tick = s.tick := rfl
@[simp] theorem State.mapStack_fresh (s : State) (k : Nat) (f : StackBase → StackBase) :
    (s.mapStack k f).fresh = s.fresh := rfl
@[simp] theorem State.mapStack_uidNext (s : State) (k : Nat) (f : StackBase → StackBase) :
    (s.mapStack k f).uidNext = s.uidNext := rfl
@[simp] theorem State.mapStack_tokenNext (s : State) (k : Nat) (f : StackBase → StackBase) :
    (s.mapStack k f).tokenNext = s.tokenNext := rfl
@[simp] theorem State.mapStack_agenda (s : State) (k : Nat) (f : StackBase → StackBase) :
    (s.mapStack k f).agenda = s.agenda := rfl
@[simp] theorem State.mapStack_rotation (s : State) (k : Nat) (f : StackBase → StackBase) :
    (s.mapStack k f).rotation = s.rotation := rfl
@[simp] theorem State.mapStack_patience (s : State) (k : Nat) (f : StackBase → StackBase) :
    (s.mapStack k f).patience = s.patience := rfl
@[simp] theorem State.mapStack_cur (s : State) (k : Nat) (f : StackBase → StackBase) :
    (s.mapStack k f).cur = s.cur := rfl
@[simp] theorem State.mapStack_others (s : State) (k : Nat) (f : StackBase → StackBase) :
    (s.mapStack k f).others = s.others := rfl
@[simp] theorem State.mapStack_clusters (s : State) (k : Nat) (f : StackBase → StackBase) :
    (s.mapStack k f).clusters = s.clusters := rfl
@[simp] theorem State.mapStack_dies (s : State) (k : Nat) (f : StackBase → StackBase) :
    (s.mapStack k f).dies = s.dies := rfl
@[simp] theorem State.mapStack_mem (s : State) (k : Nat) (f : StackBase → StackBase) :
    (s.mapStack k f).mem = s.mem := rfl
@[simp] theorem State.mapStack_poison (s : State) (k : Nat) (f : StackBase → StackBase) :
    (s.mapStack k f).poison = s.poison := rfl
@[simp] theorem State.mapStack_hostMem (s : State) (k : Nat) (f : StackBase → StackBase) :
    (s.mapStack k f).hostMem = s.hostMem := rfl
@[simp] theorem State.mapStack_hostPoison (s : State) (k : Nat) (f : StackBase → StackBase) :
    (s.mapStack k f).hostPoison = s.hostPoison := rfl
@[simp] theorem State.mapStack_l2 (s : State) (k : Nat) (f : StackBase → StackBase) :
    (s.mapStack k f).l2 = s.l2 := rfl
@[simp] theorem State.mapStack_frames (s : State) (k : Nat) (f : StackBase → StackBase) :
    (s.mapStack k f).frames = s.frames := rfl
@[simp] theorem State.mapStack_s2map (s : State) (k : Nat) (f : StackBase → StackBase) :
    (s.mapStack k f).s2map = s.s2map := rfl
@[simp] theorem State.mapStack_parts (s : State) (k : Nat) (f : StackBase → StackBase) :
    (s.mapStack k f).parts = s.parts := rfl
@[simp] theorem State.mapStack_regs (s : State) (k : Nat) (f : StackBase → StackBase) :
    (s.mapStack k f).regs = s.regs := rfl
@[simp] theorem State.mapStack_biv (s : State) (k : Nat) (f : StackBase → StackBase) :
    (s.mapStack k f).biv = s.biv := rfl
@[simp] theorem State.mapStack_walks (s : State) (k : Nat) (f : StackBase → StackBase) :
    (s.mapStack k f).walks = s.walks := rfl
@[simp] theorem State.mapStack_faults (s : State) (k : Nat) (f : StackBase → StackBase) :
    (s.mapStack k f).faults = s.faults := rfl
@[simp] theorem State.mapStack_reqs (s : State) (k : Nat) (f : StackBase → StackBase) :
    (s.mapStack k f).reqs = s.reqs := rfl
@[simp] theorem State.mapStack_syscs (s : State) (k : Nat) (f : StackBase → StackBase) :
    (s.mapStack k f).syscs = s.syscs := rfl
@[simp] theorem State.mapStack_pf (s : State) (k : Nat) (f : StackBase → StackBase) :
    (s.mapStack k f).pf = s.pf := rfl
@[simp] theorem State.mapStack_cmds (s : State) (k : Nat) (f : StackBase → StackBase) :
    (s.mapStack k f).cmds = s.cmds := rfl
@[simp] theorem State.mapStack_events (s : State) (k : Nat) (f : StackBase → StackBase) :
    (s.mapStack k f).events = s.events := rfl
@[simp] theorem State.mapStack_boot (s : State) (k : Nat) (f : StackBase → StackBase) :
    (s.mapStack k f).boot = s.boot := rfl
@[simp] theorem State.mapStack_link (s : State) (k : Nat) (f : StackBase → StackBase) :
    (s.mapStack k f).link = s.link := rfl
@[simp] theorem State.mapStack_irqs (s : State) (k : Nat) (f : StackBase → StackBase) :
    (s.mapStack k f).irqs = s.irqs := rfl
@[simp] theorem State.mapStack_sent (s : State) (k : Nat) (f : StackBase → StackBase) :
    (s.mapStack k f).sent = s.sent := rfl
@[simp] theorem State.mapStack_arrivals (s : State) (k : Nat) (f : StackBase → StackBase) :
    (s.mapStack k f).arrivals = s.arrivals := rfl
@[simp] theorem State.mapStack_inbound (s : State) (k : Nat) (f : StackBase → StackBase) :
    (s.mapStack k f).inbound = s.inbound := rfl

/-! ### `State.mapPart` -/

@[simp] theorem State.mapPart_tick (s : State) (p : Nat) (f : Part → Part) :
    (s.mapPart p f).tick = s.tick := rfl
@[simp] theorem State.mapPart_fresh (s : State) (p : Nat) (f : Part → Part) :
    (s.mapPart p f).fresh = s.fresh := rfl
@[simp] theorem State.mapPart_uidNext (s : State) (p : Nat) (f : Part → Part) :
    (s.mapPart p f).uidNext = s.uidNext := rfl
@[simp] theorem State.mapPart_tokenNext (s : State) (p : Nat) (f : Part → Part) :
    (s.mapPart p f).tokenNext = s.tokenNext := rfl
@[simp] theorem State.mapPart_agenda (s : State) (p : Nat) (f : Part → Part) :
    (s.mapPart p f).agenda = s.agenda := rfl
@[simp] theorem State.mapPart_rotation (s : State) (p : Nat) (f : Part → Part) :
    (s.mapPart p f).rotation = s.rotation := rfl
@[simp] theorem State.mapPart_patience (s : State) (p : Nat) (f : Part → Part) :
    (s.mapPart p f).patience = s.patience := rfl
@[simp] theorem State.mapPart_cur (s : State) (p : Nat) (f : Part → Part) :
    (s.mapPart p f).cur = s.cur := rfl
@[simp] theorem State.mapPart_others (s : State) (p : Nat) (f : Part → Part) :
    (s.mapPart p f).others = s.others := rfl
@[simp] theorem State.mapPart_clusters (s : State) (p : Nat) (f : Part → Part) :
    (s.mapPart p f).clusters = s.clusters := rfl
@[simp] theorem State.mapPart_dies (s : State) (p : Nat) (f : Part → Part) :
    (s.mapPart p f).dies = s.dies := rfl
@[simp] theorem State.mapPart_stackBases (s : State) (p : Nat) (f : Part → Part) :
    (s.mapPart p f).stackBases = s.stackBases := rfl
@[simp] theorem State.mapPart_mem (s : State) (p : Nat) (f : Part → Part) :
    (s.mapPart p f).mem = s.mem := rfl
@[simp] theorem State.mapPart_poison (s : State) (p : Nat) (f : Part → Part) :
    (s.mapPart p f).poison = s.poison := rfl
@[simp] theorem State.mapPart_hostMem (s : State) (p : Nat) (f : Part → Part) :
    (s.mapPart p f).hostMem = s.hostMem := rfl
@[simp] theorem State.mapPart_hostPoison (s : State) (p : Nat) (f : Part → Part) :
    (s.mapPart p f).hostPoison = s.hostPoison := rfl
@[simp] theorem State.mapPart_l2 (s : State) (p : Nat) (f : Part → Part) :
    (s.mapPart p f).l2 = s.l2 := rfl
@[simp] theorem State.mapPart_frames (s : State) (p : Nat) (f : Part → Part) :
    (s.mapPart p f).frames = s.frames := rfl
@[simp] theorem State.mapPart_s2map (s : State) (p : Nat) (f : Part → Part) :
    (s.mapPart p f).s2map = s.s2map := rfl
@[simp] theorem State.mapPart_regs (s : State) (p : Nat) (f : Part → Part) :
    (s.mapPart p f).regs = s.regs := rfl
@[simp] theorem State.mapPart_biv (s : State) (p : Nat) (f : Part → Part) :
    (s.mapPart p f).biv = s.biv := rfl
@[simp] theorem State.mapPart_walks (s : State) (p : Nat) (f : Part → Part) :
    (s.mapPart p f).walks = s.walks := rfl
@[simp] theorem State.mapPart_faults (s : State) (p : Nat) (f : Part → Part) :
    (s.mapPart p f).faults = s.faults := rfl
@[simp] theorem State.mapPart_reqs (s : State) (p : Nat) (f : Part → Part) :
    (s.mapPart p f).reqs = s.reqs := rfl
@[simp] theorem State.mapPart_syscs (s : State) (p : Nat) (f : Part → Part) :
    (s.mapPart p f).syscs = s.syscs := rfl
@[simp] theorem State.mapPart_pf (s : State) (p : Nat) (f : Part → Part) :
    (s.mapPart p f).pf = s.pf := rfl
@[simp] theorem State.mapPart_cmds (s : State) (p : Nat) (f : Part → Part) :
    (s.mapPart p f).cmds = s.cmds := rfl
@[simp] theorem State.mapPart_events (s : State) (p : Nat) (f : Part → Part) :
    (s.mapPart p f).events = s.events := rfl
@[simp] theorem State.mapPart_boot (s : State) (p : Nat) (f : Part → Part) :
    (s.mapPart p f).boot = s.boot := rfl
@[simp] theorem State.mapPart_link (s : State) (p : Nat) (f : Part → Part) :
    (s.mapPart p f).link = s.link := rfl
@[simp] theorem State.mapPart_irqs (s : State) (p : Nat) (f : Part → Part) :
    (s.mapPart p f).irqs = s.irqs := rfl
@[simp] theorem State.mapPart_sent (s : State) (p : Nat) (f : Part → Part) :
    (s.mapPart p f).sent = s.sent := rfl
@[simp] theorem State.mapPart_arrivals (s : State) (p : Nat) (f : Part → Part) :
    (s.mapPart p f).arrivals = s.arrivals := rfl
@[simp] theorem State.mapPart_inbound (s : State) (p : Nat) (f : Part → Part) :
    (s.mapPart p f).inbound = s.inbound := rfl

/-! ### `State.mapCtx` -/

@[simp] theorem State.mapCtx_tick (s : State) (p c : Nat) (f : CtxState → CtxState) :
    (s.mapCtx p c f).tick = s.tick := rfl
@[simp] theorem State.mapCtx_fresh (s : State) (p c : Nat) (f : CtxState → CtxState) :
    (s.mapCtx p c f).fresh = s.fresh := rfl
@[simp] theorem State.mapCtx_uidNext (s : State) (p c : Nat) (f : CtxState → CtxState) :
    (s.mapCtx p c f).uidNext = s.uidNext := rfl
@[simp] theorem State.mapCtx_tokenNext (s : State) (p c : Nat) (f : CtxState → CtxState) :
    (s.mapCtx p c f).tokenNext = s.tokenNext := rfl
@[simp] theorem State.mapCtx_agenda (s : State) (p c : Nat) (f : CtxState → CtxState) :
    (s.mapCtx p c f).agenda = s.agenda := rfl
@[simp] theorem State.mapCtx_rotation (s : State) (p c : Nat) (f : CtxState → CtxState) :
    (s.mapCtx p c f).rotation = s.rotation := rfl
@[simp] theorem State.mapCtx_patience (s : State) (p c : Nat) (f : CtxState → CtxState) :
    (s.mapCtx p c f).patience = s.patience := rfl
@[simp] theorem State.mapCtx_cur (s : State) (p c : Nat) (f : CtxState → CtxState) :
    (s.mapCtx p c f).cur = s.cur := rfl
@[simp] theorem State.mapCtx_others (s : State) (p c : Nat) (f : CtxState → CtxState) :
    (s.mapCtx p c f).others = s.others := rfl
@[simp] theorem State.mapCtx_clusters (s : State) (p c : Nat) (f : CtxState → CtxState) :
    (s.mapCtx p c f).clusters = s.clusters := rfl
@[simp] theorem State.mapCtx_dies (s : State) (p c : Nat) (f : CtxState → CtxState) :
    (s.mapCtx p c f).dies = s.dies := rfl
@[simp] theorem State.mapCtx_stackBases (s : State) (p c : Nat) (f : CtxState → CtxState) :
    (s.mapCtx p c f).stackBases = s.stackBases := rfl
@[simp] theorem State.mapCtx_mem (s : State) (p c : Nat) (f : CtxState → CtxState) :
    (s.mapCtx p c f).mem = s.mem := rfl
@[simp] theorem State.mapCtx_poison (s : State) (p c : Nat) (f : CtxState → CtxState) :
    (s.mapCtx p c f).poison = s.poison := rfl
@[simp] theorem State.mapCtx_hostMem (s : State) (p c : Nat) (f : CtxState → CtxState) :
    (s.mapCtx p c f).hostMem = s.hostMem := rfl
@[simp] theorem State.mapCtx_hostPoison (s : State) (p c : Nat) (f : CtxState → CtxState) :
    (s.mapCtx p c f).hostPoison = s.hostPoison := rfl
@[simp] theorem State.mapCtx_l2 (s : State) (p c : Nat) (f : CtxState → CtxState) :
    (s.mapCtx p c f).l2 = s.l2 := rfl
@[simp] theorem State.mapCtx_frames (s : State) (p c : Nat) (f : CtxState → CtxState) :
    (s.mapCtx p c f).frames = s.frames := rfl
@[simp] theorem State.mapCtx_s2map (s : State) (p c : Nat) (f : CtxState → CtxState) :
    (s.mapCtx p c f).s2map = s.s2map := rfl
@[simp] theorem State.mapCtx_regs (s : State) (p c : Nat) (f : CtxState → CtxState) :
    (s.mapCtx p c f).regs = s.regs := rfl
@[simp] theorem State.mapCtx_biv (s : State) (p c : Nat) (f : CtxState → CtxState) :
    (s.mapCtx p c f).biv = s.biv := rfl
@[simp] theorem State.mapCtx_walks (s : State) (p c : Nat) (f : CtxState → CtxState) :
    (s.mapCtx p c f).walks = s.walks := rfl
@[simp] theorem State.mapCtx_faults (s : State) (p c : Nat) (f : CtxState → CtxState) :
    (s.mapCtx p c f).faults = s.faults := rfl
@[simp] theorem State.mapCtx_reqs (s : State) (p c : Nat) (f : CtxState → CtxState) :
    (s.mapCtx p c f).reqs = s.reqs := rfl
@[simp] theorem State.mapCtx_syscs (s : State) (p c : Nat) (f : CtxState → CtxState) :
    (s.mapCtx p c f).syscs = s.syscs := rfl
@[simp] theorem State.mapCtx_pf (s : State) (p c : Nat) (f : CtxState → CtxState) :
    (s.mapCtx p c f).pf = s.pf := rfl
@[simp] theorem State.mapCtx_cmds (s : State) (p c : Nat) (f : CtxState → CtxState) :
    (s.mapCtx p c f).cmds = s.cmds := rfl
@[simp] theorem State.mapCtx_events (s : State) (p c : Nat) (f : CtxState → CtxState) :
    (s.mapCtx p c f).events = s.events := rfl
@[simp] theorem State.mapCtx_boot (s : State) (p c : Nat) (f : CtxState → CtxState) :
    (s.mapCtx p c f).boot = s.boot := rfl
@[simp] theorem State.mapCtx_link (s : State) (p c : Nat) (f : CtxState → CtxState) :
    (s.mapCtx p c f).link = s.link := rfl
@[simp] theorem State.mapCtx_irqs (s : State) (p c : Nat) (f : CtxState → CtxState) :
    (s.mapCtx p c f).irqs = s.irqs := rfl
@[simp] theorem State.mapCtx_sent (s : State) (p c : Nat) (f : CtxState → CtxState) :
    (s.mapCtx p c f).sent = s.sent := rfl
@[simp] theorem State.mapCtx_arrivals (s : State) (p c : Nat) (f : CtxState → CtxState) :
    (s.mapCtx p c f).arrivals = s.arrivals := rfl
@[simp] theorem State.mapCtx_inbound (s : State) (p c : Nat) (f : CtxState → CtxState) :
    (s.mapCtx p c f).inbound = s.inbound := rfl

/-! ### `State.mapQueue` -/

@[simp] theorem State.mapQueue_tick (s : State) (p q : Nat) (f : Queue → Queue) :
    (s.mapQueue p q f).tick = s.tick := rfl
@[simp] theorem State.mapQueue_fresh (s : State) (p q : Nat) (f : Queue → Queue) :
    (s.mapQueue p q f).fresh = s.fresh := rfl
@[simp] theorem State.mapQueue_uidNext (s : State) (p q : Nat) (f : Queue → Queue) :
    (s.mapQueue p q f).uidNext = s.uidNext := rfl
@[simp] theorem State.mapQueue_tokenNext (s : State) (p q : Nat) (f : Queue → Queue) :
    (s.mapQueue p q f).tokenNext = s.tokenNext := rfl
@[simp] theorem State.mapQueue_agenda (s : State) (p q : Nat) (f : Queue → Queue) :
    (s.mapQueue p q f).agenda = s.agenda := rfl
@[simp] theorem State.mapQueue_rotation (s : State) (p q : Nat) (f : Queue → Queue) :
    (s.mapQueue p q f).rotation = s.rotation := rfl
@[simp] theorem State.mapQueue_patience (s : State) (p q : Nat) (f : Queue → Queue) :
    (s.mapQueue p q f).patience = s.patience := rfl
@[simp] theorem State.mapQueue_cur (s : State) (p q : Nat) (f : Queue → Queue) :
    (s.mapQueue p q f).cur = s.cur := rfl
@[simp] theorem State.mapQueue_others (s : State) (p q : Nat) (f : Queue → Queue) :
    (s.mapQueue p q f).others = s.others := rfl
@[simp] theorem State.mapQueue_clusters (s : State) (p q : Nat) (f : Queue → Queue) :
    (s.mapQueue p q f).clusters = s.clusters := rfl
@[simp] theorem State.mapQueue_dies (s : State) (p q : Nat) (f : Queue → Queue) :
    (s.mapQueue p q f).dies = s.dies := rfl
@[simp] theorem State.mapQueue_stackBases (s : State) (p q : Nat) (f : Queue → Queue) :
    (s.mapQueue p q f).stackBases = s.stackBases := rfl
@[simp] theorem State.mapQueue_mem (s : State) (p q : Nat) (f : Queue → Queue) :
    (s.mapQueue p q f).mem = s.mem := rfl
@[simp] theorem State.mapQueue_poison (s : State) (p q : Nat) (f : Queue → Queue) :
    (s.mapQueue p q f).poison = s.poison := rfl
@[simp] theorem State.mapQueue_hostMem (s : State) (p q : Nat) (f : Queue → Queue) :
    (s.mapQueue p q f).hostMem = s.hostMem := rfl
@[simp] theorem State.mapQueue_hostPoison (s : State) (p q : Nat) (f : Queue → Queue) :
    (s.mapQueue p q f).hostPoison = s.hostPoison := rfl
@[simp] theorem State.mapQueue_l2 (s : State) (p q : Nat) (f : Queue → Queue) :
    (s.mapQueue p q f).l2 = s.l2 := rfl
@[simp] theorem State.mapQueue_frames (s : State) (p q : Nat) (f : Queue → Queue) :
    (s.mapQueue p q f).frames = s.frames := rfl
@[simp] theorem State.mapQueue_s2map (s : State) (p q : Nat) (f : Queue → Queue) :
    (s.mapQueue p q f).s2map = s.s2map := rfl
@[simp] theorem State.mapQueue_regs (s : State) (p q : Nat) (f : Queue → Queue) :
    (s.mapQueue p q f).regs = s.regs := rfl
@[simp] theorem State.mapQueue_biv (s : State) (p q : Nat) (f : Queue → Queue) :
    (s.mapQueue p q f).biv = s.biv := rfl
@[simp] theorem State.mapQueue_walks (s : State) (p q : Nat) (f : Queue → Queue) :
    (s.mapQueue p q f).walks = s.walks := rfl
@[simp] theorem State.mapQueue_faults (s : State) (p q : Nat) (f : Queue → Queue) :
    (s.mapQueue p q f).faults = s.faults := rfl
@[simp] theorem State.mapQueue_reqs (s : State) (p q : Nat) (f : Queue → Queue) :
    (s.mapQueue p q f).reqs = s.reqs := rfl
@[simp] theorem State.mapQueue_syscs (s : State) (p q : Nat) (f : Queue → Queue) :
    (s.mapQueue p q f).syscs = s.syscs := rfl
@[simp] theorem State.mapQueue_pf (s : State) (p q : Nat) (f : Queue → Queue) :
    (s.mapQueue p q f).pf = s.pf := rfl
@[simp] theorem State.mapQueue_cmds (s : State) (p q : Nat) (f : Queue → Queue) :
    (s.mapQueue p q f).cmds = s.cmds := rfl
@[simp] theorem State.mapQueue_events (s : State) (p q : Nat) (f : Queue → Queue) :
    (s.mapQueue p q f).events = s.events := rfl
@[simp] theorem State.mapQueue_boot (s : State) (p q : Nat) (f : Queue → Queue) :
    (s.mapQueue p q f).boot = s.boot := rfl
@[simp] theorem State.mapQueue_link (s : State) (p q : Nat) (f : Queue → Queue) :
    (s.mapQueue p q f).link = s.link := rfl
@[simp] theorem State.mapQueue_irqs (s : State) (p q : Nat) (f : Queue → Queue) :
    (s.mapQueue p q f).irqs = s.irqs := rfl
@[simp] theorem State.mapQueue_sent (s : State) (p q : Nat) (f : Queue → Queue) :
    (s.mapQueue p q f).sent = s.sent := rfl
@[simp] theorem State.mapQueue_arrivals (s : State) (p q : Nat) (f : Queue → Queue) :
    (s.mapQueue p q f).arrivals = s.arrivals := rfl
@[simp] theorem State.mapQueue_inbound (s : State) (p q : Nat) (f : Queue → Queue) :
    (s.mapQueue p q f).inbound = s.inbound := rfl

/-! ### `State.mapReq` -/

@[simp] theorem State.mapReq_tick (s : State) (id : Nat) (f : Req → Req) :
    (s.mapReq id f).tick = s.tick := rfl
@[simp] theorem State.mapReq_fresh (s : State) (id : Nat) (f : Req → Req) :
    (s.mapReq id f).fresh = s.fresh := rfl
@[simp] theorem State.mapReq_uidNext (s : State) (id : Nat) (f : Req → Req) :
    (s.mapReq id f).uidNext = s.uidNext := rfl
@[simp] theorem State.mapReq_tokenNext (s : State) (id : Nat) (f : Req → Req) :
    (s.mapReq id f).tokenNext = s.tokenNext := rfl
@[simp] theorem State.mapReq_agenda (s : State) (id : Nat) (f : Req → Req) :
    (s.mapReq id f).agenda = s.agenda := rfl
@[simp] theorem State.mapReq_rotation (s : State) (id : Nat) (f : Req → Req) :
    (s.mapReq id f).rotation = s.rotation := rfl
@[simp] theorem State.mapReq_patience (s : State) (id : Nat) (f : Req → Req) :
    (s.mapReq id f).patience = s.patience := rfl
@[simp] theorem State.mapReq_cur (s : State) (id : Nat) (f : Req → Req) :
    (s.mapReq id f).cur = s.cur := rfl
@[simp] theorem State.mapReq_others (s : State) (id : Nat) (f : Req → Req) :
    (s.mapReq id f).others = s.others := rfl
@[simp] theorem State.mapReq_clusters (s : State) (id : Nat) (f : Req → Req) :
    (s.mapReq id f).clusters = s.clusters := rfl
@[simp] theorem State.mapReq_dies (s : State) (id : Nat) (f : Req → Req) :
    (s.mapReq id f).dies = s.dies := rfl
@[simp] theorem State.mapReq_stackBases (s : State) (id : Nat) (f : Req → Req) :
    (s.mapReq id f).stackBases = s.stackBases := rfl
@[simp] theorem State.mapReq_mem (s : State) (id : Nat) (f : Req → Req) :
    (s.mapReq id f).mem = s.mem := rfl
@[simp] theorem State.mapReq_poison (s : State) (id : Nat) (f : Req → Req) :
    (s.mapReq id f).poison = s.poison := rfl
@[simp] theorem State.mapReq_hostMem (s : State) (id : Nat) (f : Req → Req) :
    (s.mapReq id f).hostMem = s.hostMem := rfl
@[simp] theorem State.mapReq_hostPoison (s : State) (id : Nat) (f : Req → Req) :
    (s.mapReq id f).hostPoison = s.hostPoison := rfl
@[simp] theorem State.mapReq_l2 (s : State) (id : Nat) (f : Req → Req) :
    (s.mapReq id f).l2 = s.l2 := rfl
@[simp] theorem State.mapReq_frames (s : State) (id : Nat) (f : Req → Req) :
    (s.mapReq id f).frames = s.frames := rfl
@[simp] theorem State.mapReq_s2map (s : State) (id : Nat) (f : Req → Req) :
    (s.mapReq id f).s2map = s.s2map := rfl
@[simp] theorem State.mapReq_parts (s : State) (id : Nat) (f : Req → Req) :
    (s.mapReq id f).parts = s.parts := rfl
@[simp] theorem State.mapReq_regs (s : State) (id : Nat) (f : Req → Req) :
    (s.mapReq id f).regs = s.regs := rfl
@[simp] theorem State.mapReq_biv (s : State) (id : Nat) (f : Req → Req) :
    (s.mapReq id f).biv = s.biv := rfl
@[simp] theorem State.mapReq_walks (s : State) (id : Nat) (f : Req → Req) :
    (s.mapReq id f).walks = s.walks := rfl
@[simp] theorem State.mapReq_faults (s : State) (id : Nat) (f : Req → Req) :
    (s.mapReq id f).faults = s.faults := rfl
@[simp] theorem State.mapReq_syscs (s : State) (id : Nat) (f : Req → Req) :
    (s.mapReq id f).syscs = s.syscs := rfl
@[simp] theorem State.mapReq_pf (s : State) (id : Nat) (f : Req → Req) :
    (s.mapReq id f).pf = s.pf := rfl
@[simp] theorem State.mapReq_cmds (s : State) (id : Nat) (f : Req → Req) :
    (s.mapReq id f).cmds = s.cmds := rfl
@[simp] theorem State.mapReq_events (s : State) (id : Nat) (f : Req → Req) :
    (s.mapReq id f).events = s.events := rfl
@[simp] theorem State.mapReq_boot (s : State) (id : Nat) (f : Req → Req) :
    (s.mapReq id f).boot = s.boot := rfl
@[simp] theorem State.mapReq_link (s : State) (id : Nat) (f : Req → Req) :
    (s.mapReq id f).link = s.link := rfl
@[simp] theorem State.mapReq_irqs (s : State) (id : Nat) (f : Req → Req) :
    (s.mapReq id f).irqs = s.irqs := rfl
@[simp] theorem State.mapReq_sent (s : State) (id : Nat) (f : Req → Req) :
    (s.mapReq id f).sent = s.sent := rfl
@[simp] theorem State.mapReq_arrivals (s : State) (id : Nat) (f : Req → Req) :
    (s.mapReq id f).arrivals = s.arrivals := rfl
@[simp] theorem State.mapReq_inbound (s : State) (id : Nat) (f : Req → Req) :
    (s.mapReq id f).inbound = s.inbound := rfl

/-! ### `State.mapCur` -/

@[simp] theorem State.mapCur_tick (s : State) (f : Thread → Thread) :
    (s.mapCur f).tick = s.tick := rfl
@[simp] theorem State.mapCur_fresh (s : State) (f : Thread → Thread) :
    (s.mapCur f).fresh = s.fresh := rfl
@[simp] theorem State.mapCur_uidNext (s : State) (f : Thread → Thread) :
    (s.mapCur f).uidNext = s.uidNext := rfl
@[simp] theorem State.mapCur_tokenNext (s : State) (f : Thread → Thread) :
    (s.mapCur f).tokenNext = s.tokenNext := rfl
@[simp] theorem State.mapCur_agenda (s : State) (f : Thread → Thread) :
    (s.mapCur f).agenda = s.agenda := rfl
@[simp] theorem State.mapCur_rotation (s : State) (f : Thread → Thread) :
    (s.mapCur f).rotation = s.rotation := rfl
@[simp] theorem State.mapCur_patience (s : State) (f : Thread → Thread) :
    (s.mapCur f).patience = s.patience := rfl
@[simp] theorem State.mapCur_others (s : State) (f : Thread → Thread) :
    (s.mapCur f).others = s.others := rfl
@[simp] theorem State.mapCur_clusters (s : State) (f : Thread → Thread) :
    (s.mapCur f).clusters = s.clusters := rfl
@[simp] theorem State.mapCur_dies (s : State) (f : Thread → Thread) :
    (s.mapCur f).dies = s.dies := rfl
@[simp] theorem State.mapCur_stackBases (s : State) (f : Thread → Thread) :
    (s.mapCur f).stackBases = s.stackBases := rfl
@[simp] theorem State.mapCur_mem (s : State) (f : Thread → Thread) :
    (s.mapCur f).mem = s.mem := rfl
@[simp] theorem State.mapCur_poison (s : State) (f : Thread → Thread) :
    (s.mapCur f).poison = s.poison := rfl
@[simp] theorem State.mapCur_hostMem (s : State) (f : Thread → Thread) :
    (s.mapCur f).hostMem = s.hostMem := rfl
@[simp] theorem State.mapCur_hostPoison (s : State) (f : Thread → Thread) :
    (s.mapCur f).hostPoison = s.hostPoison := rfl
@[simp] theorem State.mapCur_l2 (s : State) (f : Thread → Thread) :
    (s.mapCur f).l2 = s.l2 := rfl
@[simp] theorem State.mapCur_frames (s : State) (f : Thread → Thread) :
    (s.mapCur f).frames = s.frames := rfl
@[simp] theorem State.mapCur_s2map (s : State) (f : Thread → Thread) :
    (s.mapCur f).s2map = s.s2map := rfl
@[simp] theorem State.mapCur_parts (s : State) (f : Thread → Thread) :
    (s.mapCur f).parts = s.parts := rfl
@[simp] theorem State.mapCur_regs (s : State) (f : Thread → Thread) :
    (s.mapCur f).regs = s.regs := rfl
@[simp] theorem State.mapCur_biv (s : State) (f : Thread → Thread) :
    (s.mapCur f).biv = s.biv := rfl
@[simp] theorem State.mapCur_walks (s : State) (f : Thread → Thread) :
    (s.mapCur f).walks = s.walks := rfl
@[simp] theorem State.mapCur_faults (s : State) (f : Thread → Thread) :
    (s.mapCur f).faults = s.faults := rfl
@[simp] theorem State.mapCur_reqs (s : State) (f : Thread → Thread) :
    (s.mapCur f).reqs = s.reqs := rfl
@[simp] theorem State.mapCur_syscs (s : State) (f : Thread → Thread) :
    (s.mapCur f).syscs = s.syscs := rfl
@[simp] theorem State.mapCur_pf (s : State) (f : Thread → Thread) :
    (s.mapCur f).pf = s.pf := rfl
@[simp] theorem State.mapCur_cmds (s : State) (f : Thread → Thread) :
    (s.mapCur f).cmds = s.cmds := rfl
@[simp] theorem State.mapCur_events (s : State) (f : Thread → Thread) :
    (s.mapCur f).events = s.events := rfl
@[simp] theorem State.mapCur_boot (s : State) (f : Thread → Thread) :
    (s.mapCur f).boot = s.boot := rfl
@[simp] theorem State.mapCur_link (s : State) (f : Thread → Thread) :
    (s.mapCur f).link = s.link := rfl
@[simp] theorem State.mapCur_irqs (s : State) (f : Thread → Thread) :
    (s.mapCur f).irqs = s.irqs := rfl
@[simp] theorem State.mapCur_sent (s : State) (f : Thread → Thread) :
    (s.mapCur f).sent = s.sent := rfl
@[simp] theorem State.mapCur_arrivals (s : State) (f : Thread → Thread) :
    (s.mapCur f).arrivals = s.arrivals := rfl
@[simp] theorem State.mapCur_inbound (s : State) (f : Thread → Thread) :
    (s.mapCur f).inbound = s.inbound := rfl

/-! ### `State.synchronise` -/

@[simp] theorem State.synchronise_tick (s : State) :
    (s.synchronise).tick = s.tick := rfl
@[simp] theorem State.synchronise_fresh (s : State) :
    (s.synchronise).fresh = s.fresh := rfl
@[simp] theorem State.synchronise_uidNext (s : State) :
    (s.synchronise).uidNext = s.uidNext := rfl
@[simp] theorem State.synchronise_tokenNext (s : State) :
    (s.synchronise).tokenNext = s.tokenNext := rfl
@[simp] theorem State.synchronise_agenda (s : State) :
    (s.synchronise).agenda = s.agenda := rfl
@[simp] theorem State.synchronise_rotation (s : State) :
    (s.synchronise).rotation = s.rotation := rfl
@[simp] theorem State.synchronise_patience (s : State) :
    (s.synchronise).patience = s.patience := rfl
@[simp] theorem State.synchronise_others (s : State) :
    (s.synchronise).others = s.others := rfl
@[simp] theorem State.synchronise_clusters (s : State) :
    (s.synchronise).clusters = s.clusters := rfl
@[simp] theorem State.synchronise_dies (s : State) :
    (s.synchronise).dies = s.dies := rfl
@[simp] theorem State.synchronise_stackBases (s : State) :
    (s.synchronise).stackBases = s.stackBases := rfl
@[simp] theorem State.synchronise_mem (s : State) :
    (s.synchronise).mem = s.mem := rfl
@[simp] theorem State.synchronise_poison (s : State) :
    (s.synchronise).poison = s.poison := rfl
@[simp] theorem State.synchronise_hostMem (s : State) :
    (s.synchronise).hostMem = s.hostMem := rfl
@[simp] theorem State.synchronise_hostPoison (s : State) :
    (s.synchronise).hostPoison = s.hostPoison := rfl
@[simp] theorem State.synchronise_l2 (s : State) :
    (s.synchronise).l2 = s.l2 := rfl
@[simp] theorem State.synchronise_frames (s : State) :
    (s.synchronise).frames = s.frames := rfl
@[simp] theorem State.synchronise_s2map (s : State) :
    (s.synchronise).s2map = s.s2map := rfl
@[simp] theorem State.synchronise_parts (s : State) :
    (s.synchronise).parts = s.parts := rfl
@[simp] theorem State.synchronise_regs (s : State) :
    (s.synchronise).regs = s.regs := rfl
@[simp] theorem State.synchronise_biv (s : State) :
    (s.synchronise).biv = s.biv := rfl
@[simp] theorem State.synchronise_walks (s : State) :
    (s.synchronise).walks = s.walks := rfl
@[simp] theorem State.synchronise_faults (s : State) :
    (s.synchronise).faults = s.faults := rfl
@[simp] theorem State.synchronise_reqs (s : State) :
    (s.synchronise).reqs = s.reqs := rfl
@[simp] theorem State.synchronise_syscs (s : State) :
    (s.synchronise).syscs = s.syscs := rfl
@[simp] theorem State.synchronise_pf (s : State) :
    (s.synchronise).pf = s.pf := rfl
@[simp] theorem State.synchronise_cmds (s : State) :
    (s.synchronise).cmds = s.cmds := rfl
@[simp] theorem State.synchronise_events (s : State) :
    (s.synchronise).events = s.events := rfl
@[simp] theorem State.synchronise_boot (s : State) :
    (s.synchronise).boot = s.boot := rfl
@[simp] theorem State.synchronise_link (s : State) :
    (s.synchronise).link = s.link := rfl
@[simp] theorem State.synchronise_irqs (s : State) :
    (s.synchronise).irqs = s.irqs := rfl
@[simp] theorem State.synchronise_sent (s : State) :
    (s.synchronise).sent = s.sent := rfl
@[simp] theorem State.synchronise_arrivals (s : State) :
    (s.synchronise).arrivals = s.arrivals := rfl
@[simp] theorem State.synchronise_inbound (s : State) :
    (s.synchronise).inbound = s.inbound := rfl

/-! ### `State.mapRegs` -/

@[simp] theorem State.mapRegs_tick (s : State) (f : Regs → Regs) :
    (s.mapRegs f).tick = s.tick := rfl
@[simp] theorem State.mapRegs_fresh (s : State) (f : Regs → Regs) :
    (s.mapRegs f).fresh = s.fresh := rfl
@[simp] theorem State.mapRegs_uidNext (s : State) (f : Regs → Regs) :
    (s.mapRegs f).uidNext = s.uidNext := rfl
@[simp] theorem State.mapRegs_tokenNext (s : State) (f : Regs → Regs) :
    (s.mapRegs f).tokenNext = s.tokenNext := rfl
@[simp] theorem State.mapRegs_agenda (s : State) (f : Regs → Regs) :
    (s.mapRegs f).agenda = s.agenda := rfl
@[simp] theorem State.mapRegs_rotation (s : State) (f : Regs → Regs) :
    (s.mapRegs f).rotation = s.rotation := rfl
@[simp] theorem State.mapRegs_patience (s : State) (f : Regs → Regs) :
    (s.mapRegs f).patience = s.patience := rfl
@[simp] theorem State.mapRegs_others (s : State) (f : Regs → Regs) :
    (s.mapRegs f).others = s.others := rfl
@[simp] theorem State.mapRegs_clusters (s : State) (f : Regs → Regs) :
    (s.mapRegs f).clusters = s.clusters := rfl
@[simp] theorem State.mapRegs_dies (s : State) (f : Regs → Regs) :
    (s.mapRegs f).dies = s.dies := rfl
@[simp] theorem State.mapRegs_stackBases (s : State) (f : Regs → Regs) :
    (s.mapRegs f).stackBases = s.stackBases := rfl
@[simp] theorem State.mapRegs_mem (s : State) (f : Regs → Regs) :
    (s.mapRegs f).mem = s.mem := rfl
@[simp] theorem State.mapRegs_poison (s : State) (f : Regs → Regs) :
    (s.mapRegs f).poison = s.poison := rfl
@[simp] theorem State.mapRegs_hostMem (s : State) (f : Regs → Regs) :
    (s.mapRegs f).hostMem = s.hostMem := rfl
@[simp] theorem State.mapRegs_hostPoison (s : State) (f : Regs → Regs) :
    (s.mapRegs f).hostPoison = s.hostPoison := rfl
@[simp] theorem State.mapRegs_l2 (s : State) (f : Regs → Regs) :
    (s.mapRegs f).l2 = s.l2 := rfl
@[simp] theorem State.mapRegs_frames (s : State) (f : Regs → Regs) :
    (s.mapRegs f).frames = s.frames := rfl
@[simp] theorem State.mapRegs_s2map (s : State) (f : Regs → Regs) :
    (s.mapRegs f).s2map = s.s2map := rfl
@[simp] theorem State.mapRegs_parts (s : State) (f : Regs → Regs) :
    (s.mapRegs f).parts = s.parts := rfl
@[simp] theorem State.mapRegs_regs (s : State) (f : Regs → Regs) :
    (s.mapRegs f).regs = s.regs := rfl
@[simp] theorem State.mapRegs_biv (s : State) (f : Regs → Regs) :
    (s.mapRegs f).biv = s.biv := rfl
@[simp] theorem State.mapRegs_walks (s : State) (f : Regs → Regs) :
    (s.mapRegs f).walks = s.walks := rfl
@[simp] theorem State.mapRegs_faults (s : State) (f : Regs → Regs) :
    (s.mapRegs f).faults = s.faults := rfl
@[simp] theorem State.mapRegs_reqs (s : State) (f : Regs → Regs) :
    (s.mapRegs f).reqs = s.reqs := rfl
@[simp] theorem State.mapRegs_syscs (s : State) (f : Regs → Regs) :
    (s.mapRegs f).syscs = s.syscs := rfl
@[simp] theorem State.mapRegs_pf (s : State) (f : Regs → Regs) :
    (s.mapRegs f).pf = s.pf := rfl
@[simp] theorem State.mapRegs_cmds (s : State) (f : Regs → Regs) :
    (s.mapRegs f).cmds = s.cmds := rfl
@[simp] theorem State.mapRegs_events (s : State) (f : Regs → Regs) :
    (s.mapRegs f).events = s.events := rfl
@[simp] theorem State.mapRegs_boot (s : State) (f : Regs → Regs) :
    (s.mapRegs f).boot = s.boot := rfl
@[simp] theorem State.mapRegs_link (s : State) (f : Regs → Regs) :
    (s.mapRegs f).link = s.link := rfl
@[simp] theorem State.mapRegs_irqs (s : State) (f : Regs → Regs) :
    (s.mapRegs f).irqs = s.irqs := rfl
@[simp] theorem State.mapRegs_sent (s : State) (f : Regs → Regs) :
    (s.mapRegs f).sent = s.sent := rfl
@[simp] theorem State.mapRegs_arrivals (s : State) (f : Regs → Regs) :
    (s.mapRegs f).arrivals = s.arrivals := rfl
@[simp] theorem State.mapRegs_inbound (s : State) (f : Regs → Regs) :
    (s.mapRegs f).inbound = s.inbound := rfl

/-! ### `State.mapTask` -/

@[simp] theorem State.mapTask_tick (s : State) (f : Task → Task) :
    (s.mapTask f).tick = s.tick := rfl
@[simp] theorem State.mapTask_fresh (s : State) (f : Task → Task) :
    (s.mapTask f).fresh = s.fresh := rfl
@[simp] theorem State.mapTask_uidNext (s : State) (f : Task → Task) :
    (s.mapTask f).uidNext = s.uidNext := rfl
@[simp] theorem State.mapTask_tokenNext (s : State) (f : Task → Task) :
    (s.mapTask f).tokenNext = s.tokenNext := rfl
@[simp] theorem State.mapTask_agenda (s : State) (f : Task → Task) :
    (s.mapTask f).agenda = s.agenda := rfl
@[simp] theorem State.mapTask_rotation (s : State) (f : Task → Task) :
    (s.mapTask f).rotation = s.rotation := rfl
@[simp] theorem State.mapTask_patience (s : State) (f : Task → Task) :
    (s.mapTask f).patience = s.patience := rfl
@[simp] theorem State.mapTask_others (s : State) (f : Task → Task) :
    (s.mapTask f).others = s.others := rfl
@[simp] theorem State.mapTask_clusters (s : State) (f : Task → Task) :
    (s.mapTask f).clusters = s.clusters := rfl
@[simp] theorem State.mapTask_dies (s : State) (f : Task → Task) :
    (s.mapTask f).dies = s.dies := rfl
@[simp] theorem State.mapTask_stackBases (s : State) (f : Task → Task) :
    (s.mapTask f).stackBases = s.stackBases := rfl
@[simp] theorem State.mapTask_mem (s : State) (f : Task → Task) :
    (s.mapTask f).mem = s.mem := rfl
@[simp] theorem State.mapTask_poison (s : State) (f : Task → Task) :
    (s.mapTask f).poison = s.poison := rfl
@[simp] theorem State.mapTask_hostMem (s : State) (f : Task → Task) :
    (s.mapTask f).hostMem = s.hostMem := rfl
@[simp] theorem State.mapTask_hostPoison (s : State) (f : Task → Task) :
    (s.mapTask f).hostPoison = s.hostPoison := rfl
@[simp] theorem State.mapTask_l2 (s : State) (f : Task → Task) :
    (s.mapTask f).l2 = s.l2 := rfl
@[simp] theorem State.mapTask_frames (s : State) (f : Task → Task) :
    (s.mapTask f).frames = s.frames := rfl
@[simp] theorem State.mapTask_s2map (s : State) (f : Task → Task) :
    (s.mapTask f).s2map = s.s2map := rfl
@[simp] theorem State.mapTask_parts (s : State) (f : Task → Task) :
    (s.mapTask f).parts = s.parts := rfl
@[simp] theorem State.mapTask_regs (s : State) (f : Task → Task) :
    (s.mapTask f).regs = s.regs := rfl
@[simp] theorem State.mapTask_biv (s : State) (f : Task → Task) :
    (s.mapTask f).biv = s.biv := rfl
@[simp] theorem State.mapTask_walks (s : State) (f : Task → Task) :
    (s.mapTask f).walks = s.walks := rfl
@[simp] theorem State.mapTask_faults (s : State) (f : Task → Task) :
    (s.mapTask f).faults = s.faults := rfl
@[simp] theorem State.mapTask_reqs (s : State) (f : Task → Task) :
    (s.mapTask f).reqs = s.reqs := rfl
@[simp] theorem State.mapTask_syscs (s : State) (f : Task → Task) :
    (s.mapTask f).syscs = s.syscs := rfl
@[simp] theorem State.mapTask_pf (s : State) (f : Task → Task) :
    (s.mapTask f).pf = s.pf := rfl
@[simp] theorem State.mapTask_cmds (s : State) (f : Task → Task) :
    (s.mapTask f).cmds = s.cmds := rfl
@[simp] theorem State.mapTask_events (s : State) (f : Task → Task) :
    (s.mapTask f).events = s.events := rfl
@[simp] theorem State.mapTask_boot (s : State) (f : Task → Task) :
    (s.mapTask f).boot = s.boot := rfl
@[simp] theorem State.mapTask_link (s : State) (f : Task → Task) :
    (s.mapTask f).link = s.link := rfl
@[simp] theorem State.mapTask_irqs (s : State) (f : Task → Task) :
    (s.mapTask f).irqs = s.irqs := rfl
@[simp] theorem State.mapTask_sent (s : State) (f : Task → Task) :
    (s.mapTask f).sent = s.sent := rfl
@[simp] theorem State.mapTask_arrivals (s : State) (f : Task → Task) :
    (s.mapTask f).arrivals = s.arrivals := rfl
@[simp] theorem State.mapTask_inbound (s : State) (f : Task → Task) :
    (s.mapTask f).inbound = s.inbound := rfl

/-! ### `State.setWait` -/

@[simp] theorem State.setWait_tick (s : State) (w : Wait) :
    (s.setWait w).tick = s.tick := rfl
@[simp] theorem State.setWait_fresh (s : State) (w : Wait) :
    (s.setWait w).fresh = s.fresh := rfl
@[simp] theorem State.setWait_uidNext (s : State) (w : Wait) :
    (s.setWait w).uidNext = s.uidNext := rfl
@[simp] theorem State.setWait_tokenNext (s : State) (w : Wait) :
    (s.setWait w).tokenNext = s.tokenNext := rfl
@[simp] theorem State.setWait_agenda (s : State) (w : Wait) :
    (s.setWait w).agenda = s.agenda := rfl
@[simp] theorem State.setWait_rotation (s : State) (w : Wait) :
    (s.setWait w).rotation = s.rotation := rfl
@[simp] theorem State.setWait_patience (s : State) (w : Wait) :
    (s.setWait w).patience = s.patience := rfl
@[simp] theorem State.setWait_others (s : State) (w : Wait) :
    (s.setWait w).others = s.others := rfl
@[simp] theorem State.setWait_clusters (s : State) (w : Wait) :
    (s.setWait w).clusters = s.clusters := rfl
@[simp] theorem State.setWait_dies (s : State) (w : Wait) :
    (s.setWait w).dies = s.dies := rfl
@[simp] theorem State.setWait_stackBases (s : State) (w : Wait) :
    (s.setWait w).stackBases = s.stackBases := rfl
@[simp] theorem State.setWait_mem (s : State) (w : Wait) :
    (s.setWait w).mem = s.mem := rfl
@[simp] theorem State.setWait_poison (s : State) (w : Wait) :
    (s.setWait w).poison = s.poison := rfl
@[simp] theorem State.setWait_hostMem (s : State) (w : Wait) :
    (s.setWait w).hostMem = s.hostMem := rfl
@[simp] theorem State.setWait_hostPoison (s : State) (w : Wait) :
    (s.setWait w).hostPoison = s.hostPoison := rfl
@[simp] theorem State.setWait_l2 (s : State) (w : Wait) :
    (s.setWait w).l2 = s.l2 := rfl
@[simp] theorem State.setWait_frames (s : State) (w : Wait) :
    (s.setWait w).frames = s.frames := rfl
@[simp] theorem State.setWait_s2map (s : State) (w : Wait) :
    (s.setWait w).s2map = s.s2map := rfl
@[simp] theorem State.setWait_parts (s : State) (w : Wait) :
    (s.setWait w).parts = s.parts := rfl
@[simp] theorem State.setWait_regs (s : State) (w : Wait) :
    (s.setWait w).regs = s.regs := rfl
@[simp] theorem State.setWait_biv (s : State) (w : Wait) :
    (s.setWait w).biv = s.biv := rfl
@[simp] theorem State.setWait_walks (s : State) (w : Wait) :
    (s.setWait w).walks = s.walks := rfl
@[simp] theorem State.setWait_faults (s : State) (w : Wait) :
    (s.setWait w).faults = s.faults := rfl
@[simp] theorem State.setWait_reqs (s : State) (w : Wait) :
    (s.setWait w).reqs = s.reqs := rfl
@[simp] theorem State.setWait_syscs (s : State) (w : Wait) :
    (s.setWait w).syscs = s.syscs := rfl
@[simp] theorem State.setWait_pf (s : State) (w : Wait) :
    (s.setWait w).pf = s.pf := rfl
@[simp] theorem State.setWait_cmds (s : State) (w : Wait) :
    (s.setWait w).cmds = s.cmds := rfl
@[simp] theorem State.setWait_events (s : State) (w : Wait) :
    (s.setWait w).events = s.events := rfl
@[simp] theorem State.setWait_boot (s : State) (w : Wait) :
    (s.setWait w).boot = s.boot := rfl
@[simp] theorem State.setWait_link (s : State) (w : Wait) :
    (s.setWait w).link = s.link := rfl
@[simp] theorem State.setWait_irqs (s : State) (w : Wait) :
    (s.setWait w).irqs = s.irqs := rfl
@[simp] theorem State.setWait_sent (s : State) (w : Wait) :
    (s.setWait w).sent = s.sent := rfl
@[simp] theorem State.setWait_arrivals (s : State) (w : Wait) :
    (s.setWait w).arrivals = s.arrivals := rfl
@[simp] theorem State.setWait_inbound (s : State) (w : Wait) :
    (s.setWait w).inbound = s.inbound := rfl

/-! ### `State.setG` -/

@[simp] theorem State.setG_tick (s : State) (d : Reg) (v : Word) :
    (s.setG d v).tick = s.tick := rfl
@[simp] theorem State.setG_fresh (s : State) (d : Reg) (v : Word) :
    (s.setG d v).fresh = s.fresh := rfl
@[simp] theorem State.setG_uidNext (s : State) (d : Reg) (v : Word) :
    (s.setG d v).uidNext = s.uidNext := rfl
@[simp] theorem State.setG_tokenNext (s : State) (d : Reg) (v : Word) :
    (s.setG d v).tokenNext = s.tokenNext := rfl
@[simp] theorem State.setG_agenda (s : State) (d : Reg) (v : Word) :
    (s.setG d v).agenda = s.agenda := rfl
@[simp] theorem State.setG_rotation (s : State) (d : Reg) (v : Word) :
    (s.setG d v).rotation = s.rotation := rfl
@[simp] theorem State.setG_patience (s : State) (d : Reg) (v : Word) :
    (s.setG d v).patience = s.patience := rfl
@[simp] theorem State.setG_others (s : State) (d : Reg) (v : Word) :
    (s.setG d v).others = s.others := rfl
@[simp] theorem State.setG_clusters (s : State) (d : Reg) (v : Word) :
    (s.setG d v).clusters = s.clusters := rfl
@[simp] theorem State.setG_dies (s : State) (d : Reg) (v : Word) :
    (s.setG d v).dies = s.dies := rfl
@[simp] theorem State.setG_stackBases (s : State) (d : Reg) (v : Word) :
    (s.setG d v).stackBases = s.stackBases := rfl
@[simp] theorem State.setG_mem (s : State) (d : Reg) (v : Word) :
    (s.setG d v).mem = s.mem := rfl
@[simp] theorem State.setG_poison (s : State) (d : Reg) (v : Word) :
    (s.setG d v).poison = s.poison := rfl
@[simp] theorem State.setG_hostMem (s : State) (d : Reg) (v : Word) :
    (s.setG d v).hostMem = s.hostMem := rfl
@[simp] theorem State.setG_hostPoison (s : State) (d : Reg) (v : Word) :
    (s.setG d v).hostPoison = s.hostPoison := rfl
@[simp] theorem State.setG_l2 (s : State) (d : Reg) (v : Word) :
    (s.setG d v).l2 = s.l2 := rfl
@[simp] theorem State.setG_frames (s : State) (d : Reg) (v : Word) :
    (s.setG d v).frames = s.frames := rfl
@[simp] theorem State.setG_s2map (s : State) (d : Reg) (v : Word) :
    (s.setG d v).s2map = s.s2map := rfl
@[simp] theorem State.setG_parts (s : State) (d : Reg) (v : Word) :
    (s.setG d v).parts = s.parts := rfl
@[simp] theorem State.setG_regs (s : State) (d : Reg) (v : Word) :
    (s.setG d v).regs = s.regs := rfl
@[simp] theorem State.setG_biv (s : State) (d : Reg) (v : Word) :
    (s.setG d v).biv = s.biv := rfl
@[simp] theorem State.setG_walks (s : State) (d : Reg) (v : Word) :
    (s.setG d v).walks = s.walks := rfl
@[simp] theorem State.setG_faults (s : State) (d : Reg) (v : Word) :
    (s.setG d v).faults = s.faults := rfl
@[simp] theorem State.setG_reqs (s : State) (d : Reg) (v : Word) :
    (s.setG d v).reqs = s.reqs := rfl
@[simp] theorem State.setG_syscs (s : State) (d : Reg) (v : Word) :
    (s.setG d v).syscs = s.syscs := rfl
@[simp] theorem State.setG_pf (s : State) (d : Reg) (v : Word) :
    (s.setG d v).pf = s.pf := rfl
@[simp] theorem State.setG_cmds (s : State) (d : Reg) (v : Word) :
    (s.setG d v).cmds = s.cmds := rfl
@[simp] theorem State.setG_events (s : State) (d : Reg) (v : Word) :
    (s.setG d v).events = s.events := rfl
@[simp] theorem State.setG_boot (s : State) (d : Reg) (v : Word) :
    (s.setG d v).boot = s.boot := rfl
@[simp] theorem State.setG_link (s : State) (d : Reg) (v : Word) :
    (s.setG d v).link = s.link := rfl
@[simp] theorem State.setG_irqs (s : State) (d : Reg) (v : Word) :
    (s.setG d v).irqs = s.irqs := rfl
@[simp] theorem State.setG_sent (s : State) (d : Reg) (v : Word) :
    (s.setG d v).sent = s.sent := rfl
@[simp] theorem State.setG_arrivals (s : State) (d : Reg) (v : Word) :
    (s.setG d v).arrivals = s.arrivals := rfl
@[simp] theorem State.setG_inbound (s : State) (d : Reg) (v : Word) :
    (s.setG d v).inbound = s.inbound := rfl

/-! ### `State.setX` -/

@[simp] theorem State.setX_tick (s : State) (d : XReg) (v : Word) :
    (s.setX d v).tick = s.tick := rfl
@[simp] theorem State.setX_fresh (s : State) (d : XReg) (v : Word) :
    (s.setX d v).fresh = s.fresh := rfl
@[simp] theorem State.setX_uidNext (s : State) (d : XReg) (v : Word) :
    (s.setX d v).uidNext = s.uidNext := rfl
@[simp] theorem State.setX_tokenNext (s : State) (d : XReg) (v : Word) :
    (s.setX d v).tokenNext = s.tokenNext := rfl
@[simp] theorem State.setX_agenda (s : State) (d : XReg) (v : Word) :
    (s.setX d v).agenda = s.agenda := rfl
@[simp] theorem State.setX_rotation (s : State) (d : XReg) (v : Word) :
    (s.setX d v).rotation = s.rotation := rfl
@[simp] theorem State.setX_patience (s : State) (d : XReg) (v : Word) :
    (s.setX d v).patience = s.patience := rfl
@[simp] theorem State.setX_others (s : State) (d : XReg) (v : Word) :
    (s.setX d v).others = s.others := rfl
@[simp] theorem State.setX_clusters (s : State) (d : XReg) (v : Word) :
    (s.setX d v).clusters = s.clusters := rfl
@[simp] theorem State.setX_dies (s : State) (d : XReg) (v : Word) :
    (s.setX d v).dies = s.dies := rfl
@[simp] theorem State.setX_stackBases (s : State) (d : XReg) (v : Word) :
    (s.setX d v).stackBases = s.stackBases := rfl
@[simp] theorem State.setX_mem (s : State) (d : XReg) (v : Word) :
    (s.setX d v).mem = s.mem := rfl
@[simp] theorem State.setX_poison (s : State) (d : XReg) (v : Word) :
    (s.setX d v).poison = s.poison := rfl
@[simp] theorem State.setX_hostMem (s : State) (d : XReg) (v : Word) :
    (s.setX d v).hostMem = s.hostMem := rfl
@[simp] theorem State.setX_hostPoison (s : State) (d : XReg) (v : Word) :
    (s.setX d v).hostPoison = s.hostPoison := rfl
@[simp] theorem State.setX_l2 (s : State) (d : XReg) (v : Word) :
    (s.setX d v).l2 = s.l2 := rfl
@[simp] theorem State.setX_frames (s : State) (d : XReg) (v : Word) :
    (s.setX d v).frames = s.frames := rfl
@[simp] theorem State.setX_s2map (s : State) (d : XReg) (v : Word) :
    (s.setX d v).s2map = s.s2map := rfl
@[simp] theorem State.setX_parts (s : State) (d : XReg) (v : Word) :
    (s.setX d v).parts = s.parts := rfl
@[simp] theorem State.setX_regs (s : State) (d : XReg) (v : Word) :
    (s.setX d v).regs = s.regs := rfl
@[simp] theorem State.setX_biv (s : State) (d : XReg) (v : Word) :
    (s.setX d v).biv = s.biv := rfl
@[simp] theorem State.setX_walks (s : State) (d : XReg) (v : Word) :
    (s.setX d v).walks = s.walks := rfl
@[simp] theorem State.setX_faults (s : State) (d : XReg) (v : Word) :
    (s.setX d v).faults = s.faults := rfl
@[simp] theorem State.setX_reqs (s : State) (d : XReg) (v : Word) :
    (s.setX d v).reqs = s.reqs := rfl
@[simp] theorem State.setX_syscs (s : State) (d : XReg) (v : Word) :
    (s.setX d v).syscs = s.syscs := rfl
@[simp] theorem State.setX_pf (s : State) (d : XReg) (v : Word) :
    (s.setX d v).pf = s.pf := rfl
@[simp] theorem State.setX_cmds (s : State) (d : XReg) (v : Word) :
    (s.setX d v).cmds = s.cmds := rfl
@[simp] theorem State.setX_events (s : State) (d : XReg) (v : Word) :
    (s.setX d v).events = s.events := rfl
@[simp] theorem State.setX_boot (s : State) (d : XReg) (v : Word) :
    (s.setX d v).boot = s.boot := rfl
@[simp] theorem State.setX_link (s : State) (d : XReg) (v : Word) :
    (s.setX d v).link = s.link := rfl
@[simp] theorem State.setX_irqs (s : State) (d : XReg) (v : Word) :
    (s.setX d v).irqs = s.irqs := rfl
@[simp] theorem State.setX_sent (s : State) (d : XReg) (v : Word) :
    (s.setX d v).sent = s.sent := rfl
@[simp] theorem State.setX_arrivals (s : State) (d : XReg) (v : Word) :
    (s.setX d v).arrivals = s.arrivals := rfl
@[simp] theorem State.setX_inbound (s : State) (d : XReg) (v : Word) :
    (s.setX d v).inbound = s.inbound := rfl

/-! ### `State.setPc` -/

@[simp] theorem State.setPc_tick (s : State) (v : Word) :
    (s.setPc v).tick = s.tick := rfl
@[simp] theorem State.setPc_fresh (s : State) (v : Word) :
    (s.setPc v).fresh = s.fresh := rfl
@[simp] theorem State.setPc_uidNext (s : State) (v : Word) :
    (s.setPc v).uidNext = s.uidNext := rfl
@[simp] theorem State.setPc_tokenNext (s : State) (v : Word) :
    (s.setPc v).tokenNext = s.tokenNext := rfl
@[simp] theorem State.setPc_agenda (s : State) (v : Word) :
    (s.setPc v).agenda = s.agenda := rfl
@[simp] theorem State.setPc_rotation (s : State) (v : Word) :
    (s.setPc v).rotation = s.rotation := rfl
@[simp] theorem State.setPc_patience (s : State) (v : Word) :
    (s.setPc v).patience = s.patience := rfl
@[simp] theorem State.setPc_others (s : State) (v : Word) :
    (s.setPc v).others = s.others := rfl
@[simp] theorem State.setPc_clusters (s : State) (v : Word) :
    (s.setPc v).clusters = s.clusters := rfl
@[simp] theorem State.setPc_dies (s : State) (v : Word) :
    (s.setPc v).dies = s.dies := rfl
@[simp] theorem State.setPc_stackBases (s : State) (v : Word) :
    (s.setPc v).stackBases = s.stackBases := rfl
@[simp] theorem State.setPc_mem (s : State) (v : Word) :
    (s.setPc v).mem = s.mem := rfl
@[simp] theorem State.setPc_poison (s : State) (v : Word) :
    (s.setPc v).poison = s.poison := rfl
@[simp] theorem State.setPc_hostMem (s : State) (v : Word) :
    (s.setPc v).hostMem = s.hostMem := rfl
@[simp] theorem State.setPc_hostPoison (s : State) (v : Word) :
    (s.setPc v).hostPoison = s.hostPoison := rfl
@[simp] theorem State.setPc_l2 (s : State) (v : Word) :
    (s.setPc v).l2 = s.l2 := rfl
@[simp] theorem State.setPc_frames (s : State) (v : Word) :
    (s.setPc v).frames = s.frames := rfl
@[simp] theorem State.setPc_s2map (s : State) (v : Word) :
    (s.setPc v).s2map = s.s2map := rfl
@[simp] theorem State.setPc_parts (s : State) (v : Word) :
    (s.setPc v).parts = s.parts := rfl
@[simp] theorem State.setPc_regs (s : State) (v : Word) :
    (s.setPc v).regs = s.regs := rfl
@[simp] theorem State.setPc_biv (s : State) (v : Word) :
    (s.setPc v).biv = s.biv := rfl
@[simp] theorem State.setPc_walks (s : State) (v : Word) :
    (s.setPc v).walks = s.walks := rfl
@[simp] theorem State.setPc_faults (s : State) (v : Word) :
    (s.setPc v).faults = s.faults := rfl
@[simp] theorem State.setPc_reqs (s : State) (v : Word) :
    (s.setPc v).reqs = s.reqs := rfl
@[simp] theorem State.setPc_syscs (s : State) (v : Word) :
    (s.setPc v).syscs = s.syscs := rfl
@[simp] theorem State.setPc_pf (s : State) (v : Word) :
    (s.setPc v).pf = s.pf := rfl
@[simp] theorem State.setPc_cmds (s : State) (v : Word) :
    (s.setPc v).cmds = s.cmds := rfl
@[simp] theorem State.setPc_events (s : State) (v : Word) :
    (s.setPc v).events = s.events := rfl
@[simp] theorem State.setPc_boot (s : State) (v : Word) :
    (s.setPc v).boot = s.boot := rfl
@[simp] theorem State.setPc_link (s : State) (v : Word) :
    (s.setPc v).link = s.link := rfl
@[simp] theorem State.setPc_irqs (s : State) (v : Word) :
    (s.setPc v).irqs = s.irqs := rfl
@[simp] theorem State.setPc_sent (s : State) (v : Word) :
    (s.setPc v).sent = s.sent := rfl
@[simp] theorem State.setPc_arrivals (s : State) (v : Word) :
    (s.setPc v).arrivals = s.arrivals := rfl
@[simp] theorem State.setPc_inbound (s : State) (v : Word) :
    (s.setPc v).inbound = s.inbound := rfl

/-! ### `State.advance` -/

@[simp] theorem State.advance_tick (s : State) (n : Nat) :
    (s.advance n).tick = s.tick := rfl
@[simp] theorem State.advance_fresh (s : State) (n : Nat) :
    (s.advance n).fresh = s.fresh := rfl
@[simp] theorem State.advance_uidNext (s : State) (n : Nat) :
    (s.advance n).uidNext = s.uidNext := rfl
@[simp] theorem State.advance_tokenNext (s : State) (n : Nat) :
    (s.advance n).tokenNext = s.tokenNext := rfl
@[simp] theorem State.advance_agenda (s : State) (n : Nat) :
    (s.advance n).agenda = s.agenda := rfl
@[simp] theorem State.advance_rotation (s : State) (n : Nat) :
    (s.advance n).rotation = s.rotation := rfl
@[simp] theorem State.advance_patience (s : State) (n : Nat) :
    (s.advance n).patience = s.patience := rfl
@[simp] theorem State.advance_others (s : State) (n : Nat) :
    (s.advance n).others = s.others := rfl
@[simp] theorem State.advance_clusters (s : State) (n : Nat) :
    (s.advance n).clusters = s.clusters := rfl
@[simp] theorem State.advance_dies (s : State) (n : Nat) :
    (s.advance n).dies = s.dies := rfl
@[simp] theorem State.advance_stackBases (s : State) (n : Nat) :
    (s.advance n).stackBases = s.stackBases := rfl
@[simp] theorem State.advance_mem (s : State) (n : Nat) :
    (s.advance n).mem = s.mem := rfl
@[simp] theorem State.advance_poison (s : State) (n : Nat) :
    (s.advance n).poison = s.poison := rfl
@[simp] theorem State.advance_hostMem (s : State) (n : Nat) :
    (s.advance n).hostMem = s.hostMem := rfl
@[simp] theorem State.advance_hostPoison (s : State) (n : Nat) :
    (s.advance n).hostPoison = s.hostPoison := rfl
@[simp] theorem State.advance_l2 (s : State) (n : Nat) :
    (s.advance n).l2 = s.l2 := rfl
@[simp] theorem State.advance_frames (s : State) (n : Nat) :
    (s.advance n).frames = s.frames := rfl
@[simp] theorem State.advance_s2map (s : State) (n : Nat) :
    (s.advance n).s2map = s.s2map := rfl
@[simp] theorem State.advance_parts (s : State) (n : Nat) :
    (s.advance n).parts = s.parts := rfl
@[simp] theorem State.advance_regs (s : State) (n : Nat) :
    (s.advance n).regs = s.regs := rfl
@[simp] theorem State.advance_biv (s : State) (n : Nat) :
    (s.advance n).biv = s.biv := rfl
@[simp] theorem State.advance_walks (s : State) (n : Nat) :
    (s.advance n).walks = s.walks := rfl
@[simp] theorem State.advance_faults (s : State) (n : Nat) :
    (s.advance n).faults = s.faults := rfl
@[simp] theorem State.advance_reqs (s : State) (n : Nat) :
    (s.advance n).reqs = s.reqs := rfl
@[simp] theorem State.advance_syscs (s : State) (n : Nat) :
    (s.advance n).syscs = s.syscs := rfl
@[simp] theorem State.advance_pf (s : State) (n : Nat) :
    (s.advance n).pf = s.pf := rfl
@[simp] theorem State.advance_cmds (s : State) (n : Nat) :
    (s.advance n).cmds = s.cmds := rfl
@[simp] theorem State.advance_events (s : State) (n : Nat) :
    (s.advance n).events = s.events := rfl
@[simp] theorem State.advance_boot (s : State) (n : Nat) :
    (s.advance n).boot = s.boot := rfl
@[simp] theorem State.advance_link (s : State) (n : Nat) :
    (s.advance n).link = s.link := rfl
@[simp] theorem State.advance_irqs (s : State) (n : Nat) :
    (s.advance n).irqs = s.irqs := rfl
@[simp] theorem State.advance_sent (s : State) (n : Nat) :
    (s.advance n).sent = s.sent := rfl
@[simp] theorem State.advance_arrivals (s : State) (n : Nat) :
    (s.advance n).arrivals = s.arrivals := rfl
@[simp] theorem State.advance_inbound (s : State) (n : Nat) :
    (s.advance n).inbound = s.inbound := rfl

/-! ### `State.jump` -/

@[simp] theorem State.jump_tick (s : State) (v : Word) :
    (s.jump v).tick = s.tick := rfl
@[simp] theorem State.jump_fresh (s : State) (v : Word) :
    (s.jump v).fresh = s.fresh := rfl
@[simp] theorem State.jump_uidNext (s : State) (v : Word) :
    (s.jump v).uidNext = s.uidNext := rfl
@[simp] theorem State.jump_tokenNext (s : State) (v : Word) :
    (s.jump v).tokenNext = s.tokenNext := rfl
@[simp] theorem State.jump_agenda (s : State) (v : Word) :
    (s.jump v).agenda = s.agenda := rfl
@[simp] theorem State.jump_rotation (s : State) (v : Word) :
    (s.jump v).rotation = s.rotation := rfl
@[simp] theorem State.jump_patience (s : State) (v : Word) :
    (s.jump v).patience = s.patience := rfl
@[simp] theorem State.jump_others (s : State) (v : Word) :
    (s.jump v).others = s.others := rfl
@[simp] theorem State.jump_clusters (s : State) (v : Word) :
    (s.jump v).clusters = s.clusters := rfl
@[simp] theorem State.jump_dies (s : State) (v : Word) :
    (s.jump v).dies = s.dies := rfl
@[simp] theorem State.jump_stackBases (s : State) (v : Word) :
    (s.jump v).stackBases = s.stackBases := rfl
@[simp] theorem State.jump_mem (s : State) (v : Word) :
    (s.jump v).mem = s.mem := rfl
@[simp] theorem State.jump_poison (s : State) (v : Word) :
    (s.jump v).poison = s.poison := rfl
@[simp] theorem State.jump_hostMem (s : State) (v : Word) :
    (s.jump v).hostMem = s.hostMem := rfl
@[simp] theorem State.jump_hostPoison (s : State) (v : Word) :
    (s.jump v).hostPoison = s.hostPoison := rfl
@[simp] theorem State.jump_l2 (s : State) (v : Word) :
    (s.jump v).l2 = s.l2 := rfl
@[simp] theorem State.jump_frames (s : State) (v : Word) :
    (s.jump v).frames = s.frames := rfl
@[simp] theorem State.jump_s2map (s : State) (v : Word) :
    (s.jump v).s2map = s.s2map := rfl
@[simp] theorem State.jump_parts (s : State) (v : Word) :
    (s.jump v).parts = s.parts := rfl
@[simp] theorem State.jump_regs (s : State) (v : Word) :
    (s.jump v).regs = s.regs := rfl
@[simp] theorem State.jump_biv (s : State) (v : Word) :
    (s.jump v).biv = s.biv := rfl
@[simp] theorem State.jump_walks (s : State) (v : Word) :
    (s.jump v).walks = s.walks := rfl
@[simp] theorem State.jump_faults (s : State) (v : Word) :
    (s.jump v).faults = s.faults := rfl
@[simp] theorem State.jump_reqs (s : State) (v : Word) :
    (s.jump v).reqs = s.reqs := rfl
@[simp] theorem State.jump_syscs (s : State) (v : Word) :
    (s.jump v).syscs = s.syscs := rfl
@[simp] theorem State.jump_pf (s : State) (v : Word) :
    (s.jump v).pf = s.pf := rfl
@[simp] theorem State.jump_cmds (s : State) (v : Word) :
    (s.jump v).cmds = s.cmds := rfl
@[simp] theorem State.jump_events (s : State) (v : Word) :
    (s.jump v).events = s.events := rfl
@[simp] theorem State.jump_boot (s : State) (v : Word) :
    (s.jump v).boot = s.boot := rfl
@[simp] theorem State.jump_link (s : State) (v : Word) :
    (s.jump v).link = s.link := rfl
@[simp] theorem State.jump_irqs (s : State) (v : Word) :
    (s.jump v).irqs = s.irqs := rfl
@[simp] theorem State.jump_sent (s : State) (v : Word) :
    (s.jump v).sent = s.sent := rfl
@[simp] theorem State.jump_arrivals (s : State) (v : Word) :
    (s.jump v).arrivals = s.arrivals := rfl
@[simp] theorem State.jump_inbound (s : State) (v : Word) :
    (s.jump v).inbound = s.inbound := rfl

/-! ### `State.raise` -/

@[simp] theorem State.raise_tick (s : State) (k : UnitKind) (a b c : Nat) :
    (s.raise k a b c).tick = s.tick := rfl
@[simp] theorem State.raise_fresh (s : State) (k : UnitKind) (a b c : Nat) :
    (s.raise k a b c).fresh = s.fresh := rfl
@[simp] theorem State.raise_uidNext (s : State) (k : UnitKind) (a b c : Nat) :
    (s.raise k a b c).uidNext = s.uidNext := rfl
@[simp] theorem State.raise_tokenNext (s : State) (k : UnitKind) (a b c : Nat) :
    (s.raise k a b c).tokenNext = s.tokenNext := rfl
@[simp] theorem State.raise_rotation (s : State) (k : UnitKind) (a b c : Nat) :
    (s.raise k a b c).rotation = s.rotation := rfl
@[simp] theorem State.raise_patience (s : State) (k : UnitKind) (a b c : Nat) :
    (s.raise k a b c).patience = s.patience := rfl
@[simp] theorem State.raise_cur (s : State) (k : UnitKind) (a b c : Nat) :
    (s.raise k a b c).cur = s.cur := rfl
@[simp] theorem State.raise_others (s : State) (k : UnitKind) (a b c : Nat) :
    (s.raise k a b c).others = s.others := rfl
@[simp] theorem State.raise_clusters (s : State) (k : UnitKind) (a b c : Nat) :
    (s.raise k a b c).clusters = s.clusters := rfl
@[simp] theorem State.raise_dies (s : State) (k : UnitKind) (a b c : Nat) :
    (s.raise k a b c).dies = s.dies := rfl
@[simp] theorem State.raise_stackBases (s : State) (k : UnitKind) (a b c : Nat) :
    (s.raise k a b c).stackBases = s.stackBases := rfl
@[simp] theorem State.raise_mem (s : State) (k : UnitKind) (a b c : Nat) :
    (s.raise k a b c).mem = s.mem := rfl
@[simp] theorem State.raise_poison (s : State) (k : UnitKind) (a b c : Nat) :
    (s.raise k a b c).poison = s.poison := rfl
@[simp] theorem State.raise_hostMem (s : State) (k : UnitKind) (a b c : Nat) :
    (s.raise k a b c).hostMem = s.hostMem := rfl
@[simp] theorem State.raise_hostPoison (s : State) (k : UnitKind) (a b c : Nat) :
    (s.raise k a b c).hostPoison = s.hostPoison := rfl
@[simp] theorem State.raise_l2 (s : State) (k : UnitKind) (a b c : Nat) :
    (s.raise k a b c).l2 = s.l2 := rfl
@[simp] theorem State.raise_frames (s : State) (k : UnitKind) (a b c : Nat) :
    (s.raise k a b c).frames = s.frames := rfl
@[simp] theorem State.raise_s2map (s : State) (k : UnitKind) (a b c : Nat) :
    (s.raise k a b c).s2map = s.s2map := rfl
@[simp] theorem State.raise_parts (s : State) (k : UnitKind) (a b c : Nat) :
    (s.raise k a b c).parts = s.parts := rfl
@[simp] theorem State.raise_regs (s : State) (k : UnitKind) (a b c : Nat) :
    (s.raise k a b c).regs = s.regs := rfl
@[simp] theorem State.raise_biv (s : State) (k : UnitKind) (a b c : Nat) :
    (s.raise k a b c).biv = s.biv := rfl
@[simp] theorem State.raise_walks (s : State) (k : UnitKind) (a b c : Nat) :
    (s.raise k a b c).walks = s.walks := rfl
@[simp] theorem State.raise_faults (s : State) (k : UnitKind) (a b c : Nat) :
    (s.raise k a b c).faults = s.faults := rfl
@[simp] theorem State.raise_reqs (s : State) (k : UnitKind) (a b c : Nat) :
    (s.raise k a b c).reqs = s.reqs := rfl
@[simp] theorem State.raise_syscs (s : State) (k : UnitKind) (a b c : Nat) :
    (s.raise k a b c).syscs = s.syscs := rfl
@[simp] theorem State.raise_pf (s : State) (k : UnitKind) (a b c : Nat) :
    (s.raise k a b c).pf = s.pf := rfl
@[simp] theorem State.raise_cmds (s : State) (k : UnitKind) (a b c : Nat) :
    (s.raise k a b c).cmds = s.cmds := rfl
@[simp] theorem State.raise_events (s : State) (k : UnitKind) (a b c : Nat) :
    (s.raise k a b c).events = s.events := rfl
@[simp] theorem State.raise_boot (s : State) (k : UnitKind) (a b c : Nat) :
    (s.raise k a b c).boot = s.boot := rfl
@[simp] theorem State.raise_link (s : State) (k : UnitKind) (a b c : Nat) :
    (s.raise k a b c).link = s.link := rfl
@[simp] theorem State.raise_irqs (s : State) (k : UnitKind) (a b c : Nat) :
    (s.raise k a b c).irqs = s.irqs := rfl
@[simp] theorem State.raise_sent (s : State) (k : UnitKind) (a b c : Nat) :
    (s.raise k a b c).sent = s.sent := rfl
@[simp] theorem State.raise_arrivals (s : State) (k : UnitKind) (a b c : Nat) :
    (s.raise k a b c).arrivals = s.arrivals := rfl
@[simp] theorem State.raise_inbound (s : State) (k : UnitKind) (a b c : Nat) :
    (s.raise k a b c).inbound = s.inbound := rfl

/-! ### `State.raiseFor` -/

@[simp] theorem State.raiseFor_tick (s : State) (k : UnitKind) (t : Tid) :
    (s.raiseFor k t).tick = s.tick := rfl
@[simp] theorem State.raiseFor_fresh (s : State) (k : UnitKind) (t : Tid) :
    (s.raiseFor k t).fresh = s.fresh := rfl
@[simp] theorem State.raiseFor_uidNext (s : State) (k : UnitKind) (t : Tid) :
    (s.raiseFor k t).uidNext = s.uidNext := rfl
@[simp] theorem State.raiseFor_tokenNext (s : State) (k : UnitKind) (t : Tid) :
    (s.raiseFor k t).tokenNext = s.tokenNext := rfl
@[simp] theorem State.raiseFor_rotation (s : State) (k : UnitKind) (t : Tid) :
    (s.raiseFor k t).rotation = s.rotation := rfl
@[simp] theorem State.raiseFor_patience (s : State) (k : UnitKind) (t : Tid) :
    (s.raiseFor k t).patience = s.patience := rfl
@[simp] theorem State.raiseFor_cur (s : State) (k : UnitKind) (t : Tid) :
    (s.raiseFor k t).cur = s.cur := rfl
@[simp] theorem State.raiseFor_others (s : State) (k : UnitKind) (t : Tid) :
    (s.raiseFor k t).others = s.others := rfl
@[simp] theorem State.raiseFor_clusters (s : State) (k : UnitKind) (t : Tid) :
    (s.raiseFor k t).clusters = s.clusters := rfl
@[simp] theorem State.raiseFor_dies (s : State) (k : UnitKind) (t : Tid) :
    (s.raiseFor k t).dies = s.dies := rfl
@[simp] theorem State.raiseFor_stackBases (s : State) (k : UnitKind) (t : Tid) :
    (s.raiseFor k t).stackBases = s.stackBases := rfl
@[simp] theorem State.raiseFor_mem (s : State) (k : UnitKind) (t : Tid) :
    (s.raiseFor k t).mem = s.mem := rfl
@[simp] theorem State.raiseFor_poison (s : State) (k : UnitKind) (t : Tid) :
    (s.raiseFor k t).poison = s.poison := rfl
@[simp] theorem State.raiseFor_hostMem (s : State) (k : UnitKind) (t : Tid) :
    (s.raiseFor k t).hostMem = s.hostMem := rfl
@[simp] theorem State.raiseFor_hostPoison (s : State) (k : UnitKind) (t : Tid) :
    (s.raiseFor k t).hostPoison = s.hostPoison := rfl
@[simp] theorem State.raiseFor_l2 (s : State) (k : UnitKind) (t : Tid) :
    (s.raiseFor k t).l2 = s.l2 := rfl
@[simp] theorem State.raiseFor_frames (s : State) (k : UnitKind) (t : Tid) :
    (s.raiseFor k t).frames = s.frames := rfl
@[simp] theorem State.raiseFor_s2map (s : State) (k : UnitKind) (t : Tid) :
    (s.raiseFor k t).s2map = s.s2map := rfl
@[simp] theorem State.raiseFor_parts (s : State) (k : UnitKind) (t : Tid) :
    (s.raiseFor k t).parts = s.parts := rfl
@[simp] theorem State.raiseFor_regs (s : State) (k : UnitKind) (t : Tid) :
    (s.raiseFor k t).regs = s.regs := rfl
@[simp] theorem State.raiseFor_biv (s : State) (k : UnitKind) (t : Tid) :
    (s.raiseFor k t).biv = s.biv := rfl
@[simp] theorem State.raiseFor_walks (s : State) (k : UnitKind) (t : Tid) :
    (s.raiseFor k t).walks = s.walks := rfl
@[simp] theorem State.raiseFor_faults (s : State) (k : UnitKind) (t : Tid) :
    (s.raiseFor k t).faults = s.faults := rfl
@[simp] theorem State.raiseFor_reqs (s : State) (k : UnitKind) (t : Tid) :
    (s.raiseFor k t).reqs = s.reqs := rfl
@[simp] theorem State.raiseFor_syscs (s : State) (k : UnitKind) (t : Tid) :
    (s.raiseFor k t).syscs = s.syscs := rfl
@[simp] theorem State.raiseFor_pf (s : State) (k : UnitKind) (t : Tid) :
    (s.raiseFor k t).pf = s.pf := rfl
@[simp] theorem State.raiseFor_cmds (s : State) (k : UnitKind) (t : Tid) :
    (s.raiseFor k t).cmds = s.cmds := rfl
@[simp] theorem State.raiseFor_events (s : State) (k : UnitKind) (t : Tid) :
    (s.raiseFor k t).events = s.events := rfl
@[simp] theorem State.raiseFor_boot (s : State) (k : UnitKind) (t : Tid) :
    (s.raiseFor k t).boot = s.boot := rfl
@[simp] theorem State.raiseFor_link (s : State) (k : UnitKind) (t : Tid) :
    (s.raiseFor k t).link = s.link := rfl
@[simp] theorem State.raiseFor_irqs (s : State) (k : UnitKind) (t : Tid) :
    (s.raiseFor k t).irqs = s.irqs := rfl
@[simp] theorem State.raiseFor_sent (s : State) (k : UnitKind) (t : Tid) :
    (s.raiseFor k t).sent = s.sent := rfl
@[simp] theorem State.raiseFor_arrivals (s : State) (k : UnitKind) (t : Tid) :
    (s.raiseFor k t).arrivals = s.arrivals := rfl
@[simp] theorem State.raiseFor_inbound (s : State) (k : UnitKind) (t : Tid) :
    (s.raiseFor k t).inbound = s.inbound := rfl

/-! ### `State.interrupt` -/

@[simp] theorem State.interrupt_tick (s : State) (i : Irq) :
    (s.interrupt i).tick = s.tick := rfl
@[simp] theorem State.interrupt_fresh (s : State) (i : Irq) :
    (s.interrupt i).fresh = s.fresh := rfl
@[simp] theorem State.interrupt_uidNext (s : State) (i : Irq) :
    (s.interrupt i).uidNext = s.uidNext := rfl
@[simp] theorem State.interrupt_tokenNext (s : State) (i : Irq) :
    (s.interrupt i).tokenNext = s.tokenNext := rfl
@[simp] theorem State.interrupt_agenda (s : State) (i : Irq) :
    (s.interrupt i).agenda = s.agenda := rfl
@[simp] theorem State.interrupt_rotation (s : State) (i : Irq) :
    (s.interrupt i).rotation = s.rotation := rfl
@[simp] theorem State.interrupt_patience (s : State) (i : Irq) :
    (s.interrupt i).patience = s.patience := rfl
@[simp] theorem State.interrupt_cur (s : State) (i : Irq) :
    (s.interrupt i).cur = s.cur := rfl
@[simp] theorem State.interrupt_others (s : State) (i : Irq) :
    (s.interrupt i).others = s.others := rfl
@[simp] theorem State.interrupt_clusters (s : State) (i : Irq) :
    (s.interrupt i).clusters = s.clusters := rfl
@[simp] theorem State.interrupt_dies (s : State) (i : Irq) :
    (s.interrupt i).dies = s.dies := rfl
@[simp] theorem State.interrupt_stackBases (s : State) (i : Irq) :
    (s.interrupt i).stackBases = s.stackBases := rfl
@[simp] theorem State.interrupt_mem (s : State) (i : Irq) :
    (s.interrupt i).mem = s.mem := rfl
@[simp] theorem State.interrupt_poison (s : State) (i : Irq) :
    (s.interrupt i).poison = s.poison := rfl
@[simp] theorem State.interrupt_hostMem (s : State) (i : Irq) :
    (s.interrupt i).hostMem = s.hostMem := rfl
@[simp] theorem State.interrupt_hostPoison (s : State) (i : Irq) :
    (s.interrupt i).hostPoison = s.hostPoison := rfl
@[simp] theorem State.interrupt_l2 (s : State) (i : Irq) :
    (s.interrupt i).l2 = s.l2 := rfl
@[simp] theorem State.interrupt_frames (s : State) (i : Irq) :
    (s.interrupt i).frames = s.frames := rfl
@[simp] theorem State.interrupt_s2map (s : State) (i : Irq) :
    (s.interrupt i).s2map = s.s2map := rfl
@[simp] theorem State.interrupt_parts (s : State) (i : Irq) :
    (s.interrupt i).parts = s.parts := rfl
@[simp] theorem State.interrupt_regs (s : State) (i : Irq) :
    (s.interrupt i).regs = s.regs := rfl
@[simp] theorem State.interrupt_biv (s : State) (i : Irq) :
    (s.interrupt i).biv = s.biv := rfl
@[simp] theorem State.interrupt_walks (s : State) (i : Irq) :
    (s.interrupt i).walks = s.walks := rfl
@[simp] theorem State.interrupt_faults (s : State) (i : Irq) :
    (s.interrupt i).faults = s.faults := rfl
@[simp] theorem State.interrupt_reqs (s : State) (i : Irq) :
    (s.interrupt i).reqs = s.reqs := rfl
@[simp] theorem State.interrupt_syscs (s : State) (i : Irq) :
    (s.interrupt i).syscs = s.syscs := rfl
@[simp] theorem State.interrupt_pf (s : State) (i : Irq) :
    (s.interrupt i).pf = s.pf := rfl
@[simp] theorem State.interrupt_cmds (s : State) (i : Irq) :
    (s.interrupt i).cmds = s.cmds := rfl
@[simp] theorem State.interrupt_events (s : State) (i : Irq) :
    (s.interrupt i).events = s.events := rfl
@[simp] theorem State.interrupt_boot (s : State) (i : Irq) :
    (s.interrupt i).boot = s.boot := rfl
@[simp] theorem State.interrupt_link (s : State) (i : Irq) :
    (s.interrupt i).link = s.link := rfl
@[simp] theorem State.interrupt_sent (s : State) (i : Irq) :
    (s.interrupt i).sent = s.sent := rfl
@[simp] theorem State.interrupt_arrivals (s : State) (i : Irq) :
    (s.interrupt i).arrivals = s.arrivals := rfl
@[simp] theorem State.interrupt_inbound (s : State) (i : Irq) :
    (s.interrupt i).inbound = s.inbound := rfl

/-! ### `State.newUid` -/

@[simp] theorem State.newUid_tick (s : State) :
    (s.newUid.2).tick = s.tick := rfl
@[simp] theorem State.newUid_fresh (s : State) :
    (s.newUid.2).fresh = s.fresh := rfl
@[simp] theorem State.newUid_tokenNext (s : State) :
    (s.newUid.2).tokenNext = s.tokenNext := rfl
@[simp] theorem State.newUid_agenda (s : State) :
    (s.newUid.2).agenda = s.agenda := rfl
@[simp] theorem State.newUid_rotation (s : State) :
    (s.newUid.2).rotation = s.rotation := rfl
@[simp] theorem State.newUid_patience (s : State) :
    (s.newUid.2).patience = s.patience := rfl
@[simp] theorem State.newUid_cur (s : State) :
    (s.newUid.2).cur = s.cur := rfl
@[simp] theorem State.newUid_others (s : State) :
    (s.newUid.2).others = s.others := rfl
@[simp] theorem State.newUid_clusters (s : State) :
    (s.newUid.2).clusters = s.clusters := rfl
@[simp] theorem State.newUid_dies (s : State) :
    (s.newUid.2).dies = s.dies := rfl
@[simp] theorem State.newUid_stackBases (s : State) :
    (s.newUid.2).stackBases = s.stackBases := rfl
@[simp] theorem State.newUid_mem (s : State) :
    (s.newUid.2).mem = s.mem := rfl
@[simp] theorem State.newUid_poison (s : State) :
    (s.newUid.2).poison = s.poison := rfl
@[simp] theorem State.newUid_hostMem (s : State) :
    (s.newUid.2).hostMem = s.hostMem := rfl
@[simp] theorem State.newUid_hostPoison (s : State) :
    (s.newUid.2).hostPoison = s.hostPoison := rfl
@[simp] theorem State.newUid_l2 (s : State) :
    (s.newUid.2).l2 = s.l2 := rfl
@[simp] theorem State.newUid_frames (s : State) :
    (s.newUid.2).frames = s.frames := rfl
@[simp] theorem State.newUid_s2map (s : State) :
    (s.newUid.2).s2map = s.s2map := rfl
@[simp] theorem State.newUid_parts (s : State) :
    (s.newUid.2).parts = s.parts := rfl
@[simp] theorem State.newUid_regs (s : State) :
    (s.newUid.2).regs = s.regs := rfl
@[simp] theorem State.newUid_biv (s : State) :
    (s.newUid.2).biv = s.biv := rfl
@[simp] theorem State.newUid_walks (s : State) :
    (s.newUid.2).walks = s.walks := rfl
@[simp] theorem State.newUid_faults (s : State) :
    (s.newUid.2).faults = s.faults := rfl
@[simp] theorem State.newUid_reqs (s : State) :
    (s.newUid.2).reqs = s.reqs := rfl
@[simp] theorem State.newUid_syscs (s : State) :
    (s.newUid.2).syscs = s.syscs := rfl
@[simp] theorem State.newUid_pf (s : State) :
    (s.newUid.2).pf = s.pf := rfl
@[simp] theorem State.newUid_cmds (s : State) :
    (s.newUid.2).cmds = s.cmds := rfl
@[simp] theorem State.newUid_events (s : State) :
    (s.newUid.2).events = s.events := rfl
@[simp] theorem State.newUid_boot (s : State) :
    (s.newUid.2).boot = s.boot := rfl
@[simp] theorem State.newUid_link (s : State) :
    (s.newUid.2).link = s.link := rfl
@[simp] theorem State.newUid_irqs (s : State) :
    (s.newUid.2).irqs = s.irqs := rfl
@[simp] theorem State.newUid_sent (s : State) :
    (s.newUid.2).sent = s.sent := rfl
@[simp] theorem State.newUid_arrivals (s : State) :
    (s.newUid.2).arrivals = s.arrivals := rfl
@[simp] theorem State.newUid_inbound (s : State) :
    (s.newUid.2).inbound = s.inbound := rfl

/-! ### `State.newToken` -/

@[simp] theorem State.newToken_tick (s : State) :
    (s.newToken.2).tick = s.tick := rfl
@[simp] theorem State.newToken_fresh (s : State) :
    (s.newToken.2).fresh = s.fresh := rfl
@[simp] theorem State.newToken_uidNext (s : State) :
    (s.newToken.2).uidNext = s.uidNext := rfl
@[simp] theorem State.newToken_agenda (s : State) :
    (s.newToken.2).agenda = s.agenda := rfl
@[simp] theorem State.newToken_rotation (s : State) :
    (s.newToken.2).rotation = s.rotation := rfl
@[simp] theorem State.newToken_patience (s : State) :
    (s.newToken.2).patience = s.patience := rfl
@[simp] theorem State.newToken_cur (s : State) :
    (s.newToken.2).cur = s.cur := rfl
@[simp] theorem State.newToken_others (s : State) :
    (s.newToken.2).others = s.others := rfl
@[simp] theorem State.newToken_clusters (s : State) :
    (s.newToken.2).clusters = s.clusters := rfl
@[simp] theorem State.newToken_dies (s : State) :
    (s.newToken.2).dies = s.dies := rfl
@[simp] theorem State.newToken_stackBases (s : State) :
    (s.newToken.2).stackBases = s.stackBases := rfl
@[simp] theorem State.newToken_mem (s : State) :
    (s.newToken.2).mem = s.mem := rfl
@[simp] theorem State.newToken_poison (s : State) :
    (s.newToken.2).poison = s.poison := rfl
@[simp] theorem State.newToken_hostMem (s : State) :
    (s.newToken.2).hostMem = s.hostMem := rfl
@[simp] theorem State.newToken_hostPoison (s : State) :
    (s.newToken.2).hostPoison = s.hostPoison := rfl
@[simp] theorem State.newToken_l2 (s : State) :
    (s.newToken.2).l2 = s.l2 := rfl
@[simp] theorem State.newToken_frames (s : State) :
    (s.newToken.2).frames = s.frames := rfl
@[simp] theorem State.newToken_s2map (s : State) :
    (s.newToken.2).s2map = s.s2map := rfl
@[simp] theorem State.newToken_parts (s : State) :
    (s.newToken.2).parts = s.parts := rfl
@[simp] theorem State.newToken_regs (s : State) :
    (s.newToken.2).regs = s.regs := rfl
@[simp] theorem State.newToken_biv (s : State) :
    (s.newToken.2).biv = s.biv := rfl
@[simp] theorem State.newToken_walks (s : State) :
    (s.newToken.2).walks = s.walks := rfl
@[simp] theorem State.newToken_faults (s : State) :
    (s.newToken.2).faults = s.faults := rfl
@[simp] theorem State.newToken_reqs (s : State) :
    (s.newToken.2).reqs = s.reqs := rfl
@[simp] theorem State.newToken_syscs (s : State) :
    (s.newToken.2).syscs = s.syscs := rfl
@[simp] theorem State.newToken_pf (s : State) :
    (s.newToken.2).pf = s.pf := rfl
@[simp] theorem State.newToken_cmds (s : State) :
    (s.newToken.2).cmds = s.cmds := rfl
@[simp] theorem State.newToken_events (s : State) :
    (s.newToken.2).events = s.events := rfl
@[simp] theorem State.newToken_boot (s : State) :
    (s.newToken.2).boot = s.boot := rfl
@[simp] theorem State.newToken_link (s : State) :
    (s.newToken.2).link = s.link := rfl
@[simp] theorem State.newToken_irqs (s : State) :
    (s.newToken.2).irqs = s.irqs := rfl
@[simp] theorem State.newToken_sent (s : State) :
    (s.newToken.2).sent = s.sent := rfl
@[simp] theorem State.newToken_arrivals (s : State) :
    (s.newToken.2).arrivals = s.arrivals := rfl
@[simp] theorem State.newToken_inbound (s : State) :
    (s.newToken.2).inbound = s.inbound := rfl

/-! ### `State.freeW` -/

@[simp] theorem State.freeW_tick (s : State) :
    (s.freeW.2).tick = s.tick := rfl
@[simp] theorem State.freeW_uidNext (s : State) :
    (s.freeW.2).uidNext = s.uidNext := rfl
@[simp] theorem State.freeW_tokenNext (s : State) :
    (s.freeW.2).tokenNext = s.tokenNext := rfl
@[simp] theorem State.freeW_agenda (s : State) :
    (s.freeW.2).agenda = s.agenda := rfl
@[simp] theorem State.freeW_rotation (s : State) :
    (s.freeW.2).rotation = s.rotation := rfl
@[simp] theorem State.freeW_patience (s : State) :
    (s.freeW.2).patience = s.patience := rfl
@[simp] theorem State.freeW_cur (s : State) :
    (s.freeW.2).cur = s.cur := rfl
@[simp] theorem State.freeW_others (s : State) :
    (s.freeW.2).others = s.others := rfl
@[simp] theorem State.freeW_clusters (s : State) :
    (s.freeW.2).clusters = s.clusters := rfl
@[simp] theorem State.freeW_dies (s : State) :
    (s.freeW.2).dies = s.dies := rfl
@[simp] theorem State.freeW_stackBases (s : State) :
    (s.freeW.2).stackBases = s.stackBases := rfl
@[simp] theorem State.freeW_mem (s : State) :
    (s.freeW.2).mem = s.mem := rfl
@[simp] theorem State.freeW_poison (s : State) :
    (s.freeW.2).poison = s.poison := rfl
@[simp] theorem State.freeW_hostMem (s : State) :
    (s.freeW.2).hostMem = s.hostMem := rfl
@[simp] theorem State.freeW_hostPoison (s : State) :
    (s.freeW.2).hostPoison = s.hostPoison := rfl
@[simp] theorem State.freeW_l2 (s : State) :
    (s.freeW.2).l2 = s.l2 := rfl
@[simp] theorem State.freeW_frames (s : State) :
    (s.freeW.2).frames = s.frames := rfl
@[simp] theorem State.freeW_s2map (s : State) :
    (s.freeW.2).s2map = s.s2map := rfl
@[simp] theorem State.freeW_parts (s : State) :
    (s.freeW.2).parts = s.parts := rfl
@[simp] theorem State.freeW_regs (s : State) :
    (s.freeW.2).regs = s.regs := rfl
@[simp] theorem State.freeW_biv (s : State) :
    (s.freeW.2).biv = s.biv := rfl
@[simp] theorem State.freeW_walks (s : State) :
    (s.freeW.2).walks = s.walks := rfl
@[simp] theorem State.freeW_faults (s : State) :
    (s.freeW.2).faults = s.faults := rfl
@[simp] theorem State.freeW_reqs (s : State) :
    (s.freeW.2).reqs = s.reqs := rfl
@[simp] theorem State.freeW_syscs (s : State) :
    (s.freeW.2).syscs = s.syscs := rfl
@[simp] theorem State.freeW_pf (s : State) :
    (s.freeW.2).pf = s.pf := rfl
@[simp] theorem State.freeW_cmds (s : State) :
    (s.freeW.2).cmds = s.cmds := rfl
@[simp] theorem State.freeW_events (s : State) :
    (s.freeW.2).events = s.events := rfl
@[simp] theorem State.freeW_boot (s : State) :
    (s.freeW.2).boot = s.boot := rfl
@[simp] theorem State.freeW_link (s : State) :
    (s.freeW.2).link = s.link := rfl
@[simp] theorem State.freeW_irqs (s : State) :
    (s.freeW.2).irqs = s.irqs := rfl
@[simp] theorem State.freeW_sent (s : State) :
    (s.freeW.2).sent = s.sent := rfl
@[simp] theorem State.freeW_arrivals (s : State) :
    (s.freeW.2).arrivals = s.arrivals := rfl
@[simp] theorem State.freeW_inbound (s : State) :
    (s.freeW.2).inbound = s.inbound := rfl

/-! ### `State.freeB` -/

@[simp] theorem State.freeB_tick (s : State) :
    (s.freeB.2).tick = s.tick := rfl
@[simp] theorem State.freeB_uidNext (s : State) :
    (s.freeB.2).uidNext = s.uidNext := rfl
@[simp] theorem State.freeB_tokenNext (s : State) :
    (s.freeB.2).tokenNext = s.tokenNext := rfl
@[simp] theorem State.freeB_agenda (s : State) :
    (s.freeB.2).agenda = s.agenda := rfl
@[simp] theorem State.freeB_rotation (s : State) :
    (s.freeB.2).rotation = s.rotation := rfl
@[simp] theorem State.freeB_patience (s : State) :
    (s.freeB.2).patience = s.patience := rfl
@[simp] theorem State.freeB_cur (s : State) :
    (s.freeB.2).cur = s.cur := rfl
@[simp] theorem State.freeB_others (s : State) :
    (s.freeB.2).others = s.others := rfl
@[simp] theorem State.freeB_clusters (s : State) :
    (s.freeB.2).clusters = s.clusters := rfl
@[simp] theorem State.freeB_dies (s : State) :
    (s.freeB.2).dies = s.dies := rfl
@[simp] theorem State.freeB_stackBases (s : State) :
    (s.freeB.2).stackBases = s.stackBases := rfl
@[simp] theorem State.freeB_mem (s : State) :
    (s.freeB.2).mem = s.mem := rfl
@[simp] theorem State.freeB_poison (s : State) :
    (s.freeB.2).poison = s.poison := rfl
@[simp] theorem State.freeB_hostMem (s : State) :
    (s.freeB.2).hostMem = s.hostMem := rfl
@[simp] theorem State.freeB_hostPoison (s : State) :
    (s.freeB.2).hostPoison = s.hostPoison := rfl
@[simp] theorem State.freeB_l2 (s : State) :
    (s.freeB.2).l2 = s.l2 := rfl
@[simp] theorem State.freeB_frames (s : State) :
    (s.freeB.2).frames = s.frames := rfl
@[simp] theorem State.freeB_s2map (s : State) :
    (s.freeB.2).s2map = s.s2map := rfl
@[simp] theorem State.freeB_parts (s : State) :
    (s.freeB.2).parts = s.parts := rfl
@[simp] theorem State.freeB_regs (s : State) :
    (s.freeB.2).regs = s.regs := rfl
@[simp] theorem State.freeB_biv (s : State) :
    (s.freeB.2).biv = s.biv := rfl
@[simp] theorem State.freeB_walks (s : State) :
    (s.freeB.2).walks = s.walks := rfl
@[simp] theorem State.freeB_faults (s : State) :
    (s.freeB.2).faults = s.faults := rfl
@[simp] theorem State.freeB_reqs (s : State) :
    (s.freeB.2).reqs = s.reqs := rfl
@[simp] theorem State.freeB_syscs (s : State) :
    (s.freeB.2).syscs = s.syscs := rfl
@[simp] theorem State.freeB_pf (s : State) :
    (s.freeB.2).pf = s.pf := rfl
@[simp] theorem State.freeB_cmds (s : State) :
    (s.freeB.2).cmds = s.cmds := rfl
@[simp] theorem State.freeB_events (s : State) :
    (s.freeB.2).events = s.events := rfl
@[simp] theorem State.freeB_boot (s : State) :
    (s.freeB.2).boot = s.boot := rfl
@[simp] theorem State.freeB_link (s : State) :
    (s.freeB.2).link = s.link := rfl
@[simp] theorem State.freeB_irqs (s : State) :
    (s.freeB.2).irqs = s.irqs := rfl
@[simp] theorem State.freeB_sent (s : State) :
    (s.freeB.2).sent = s.sent := rfl
@[simp] theorem State.freeB_arrivals (s : State) :
    (s.freeB.2).arrivals = s.arrivals := rfl
@[simp] theorem State.freeB_inbound (s : State) :
    (s.freeB.2).inbound = s.inbound := rfl

/-! ### `State.raiseFlags` -/

@[simp] theorem State.raiseFlags_tick (s : State) (f : FFlags) :
    (s.raiseFlags f).tick = s.tick := rfl
@[simp] theorem State.raiseFlags_fresh (s : State) (f : FFlags) :
    (s.raiseFlags f).fresh = s.fresh := rfl
@[simp] theorem State.raiseFlags_uidNext (s : State) (f : FFlags) :
    (s.raiseFlags f).uidNext = s.uidNext := rfl
@[simp] theorem State.raiseFlags_tokenNext (s : State) (f : FFlags) :
    (s.raiseFlags f).tokenNext = s.tokenNext := rfl
@[simp] theorem State.raiseFlags_agenda (s : State) (f : FFlags) :
    (s.raiseFlags f).agenda = s.agenda := rfl
@[simp] theorem State.raiseFlags_rotation (s : State) (f : FFlags) :
    (s.raiseFlags f).rotation = s.rotation := rfl
@[simp] theorem State.raiseFlags_patience (s : State) (f : FFlags) :
    (s.raiseFlags f).patience = s.patience := rfl
@[simp] theorem State.raiseFlags_others (s : State) (f : FFlags) :
    (s.raiseFlags f).others = s.others := rfl
@[simp] theorem State.raiseFlags_clusters (s : State) (f : FFlags) :
    (s.raiseFlags f).clusters = s.clusters := rfl
@[simp] theorem State.raiseFlags_dies (s : State) (f : FFlags) :
    (s.raiseFlags f).dies = s.dies := rfl
@[simp] theorem State.raiseFlags_stackBases (s : State) (f : FFlags) :
    (s.raiseFlags f).stackBases = s.stackBases := rfl
@[simp] theorem State.raiseFlags_mem (s : State) (f : FFlags) :
    (s.raiseFlags f).mem = s.mem := rfl
@[simp] theorem State.raiseFlags_poison (s : State) (f : FFlags) :
    (s.raiseFlags f).poison = s.poison := rfl
@[simp] theorem State.raiseFlags_hostMem (s : State) (f : FFlags) :
    (s.raiseFlags f).hostMem = s.hostMem := rfl
@[simp] theorem State.raiseFlags_hostPoison (s : State) (f : FFlags) :
    (s.raiseFlags f).hostPoison = s.hostPoison := rfl
@[simp] theorem State.raiseFlags_l2 (s : State) (f : FFlags) :
    (s.raiseFlags f).l2 = s.l2 := rfl
@[simp] theorem State.raiseFlags_frames (s : State) (f : FFlags) :
    (s.raiseFlags f).frames = s.frames := rfl
@[simp] theorem State.raiseFlags_s2map (s : State) (f : FFlags) :
    (s.raiseFlags f).s2map = s.s2map := rfl
@[simp] theorem State.raiseFlags_parts (s : State) (f : FFlags) :
    (s.raiseFlags f).parts = s.parts := rfl
@[simp] theorem State.raiseFlags_regs (s : State) (f : FFlags) :
    (s.raiseFlags f).regs = s.regs := rfl
@[simp] theorem State.raiseFlags_biv (s : State) (f : FFlags) :
    (s.raiseFlags f).biv = s.biv := rfl
@[simp] theorem State.raiseFlags_walks (s : State) (f : FFlags) :
    (s.raiseFlags f).walks = s.walks := rfl
@[simp] theorem State.raiseFlags_faults (s : State) (f : FFlags) :
    (s.raiseFlags f).faults = s.faults := rfl
@[simp] theorem State.raiseFlags_reqs (s : State) (f : FFlags) :
    (s.raiseFlags f).reqs = s.reqs := rfl
@[simp] theorem State.raiseFlags_syscs (s : State) (f : FFlags) :
    (s.raiseFlags f).syscs = s.syscs := rfl
@[simp] theorem State.raiseFlags_pf (s : State) (f : FFlags) :
    (s.raiseFlags f).pf = s.pf := rfl
@[simp] theorem State.raiseFlags_cmds (s : State) (f : FFlags) :
    (s.raiseFlags f).cmds = s.cmds := rfl
@[simp] theorem State.raiseFlags_events (s : State) (f : FFlags) :
    (s.raiseFlags f).events = s.events := rfl
@[simp] theorem State.raiseFlags_boot (s : State) (f : FFlags) :
    (s.raiseFlags f).boot = s.boot := rfl
@[simp] theorem State.raiseFlags_link (s : State) (f : FFlags) :
    (s.raiseFlags f).link = s.link := rfl
@[simp] theorem State.raiseFlags_irqs (s : State) (f : FFlags) :
    (s.raiseFlags f).irqs = s.irqs := rfl
@[simp] theorem State.raiseFlags_sent (s : State) (f : FFlags) :
    (s.raiseFlags f).sent = s.sent := rfl
@[simp] theorem State.raiseFlags_arrivals (s : State) (f : FFlags) :
    (s.raiseFlags f).arrivals = s.arrivals := rfl
@[simp] theorem State.raiseFlags_inbound (s : State) (f : FFlags) :
    (s.raiseFlags f).inbound = s.inbound := rfl

end Sys2Proof.Machine
end

