-- ==== Sys2Proof/Laws/Regs.lean ====
section
/-! SUPPORT. The laws of the registers of the running thread: what each update of them reads as afterwards. -/

namespace Sys2Proof.Machine

/-! ### Register sets -/

@[simp] theorem Regs.readG_zero (r : Regs) : r.readG 0#5 = 0#64 := rfl

theorem Regs.get_set_self (v : Vector Word 32) (d : Reg) (w : Word) : (v.set d.toNat w d.isLt).get d.toFin = w :=
  Vector.getElem_set_self (xs := v) (i := d.toNat) d.isLt

theorem Regs.get_set_other (v : Vector Word 32) (d n : Reg) (w : Word) (h : n ≠ d) :
    (v.set d.toNat w d.isLt).get n.toFin = v.get n.toFin :=
  Vector.getElem_set_ne (xs := v) (i := d.toNat) d.isLt n.isLt fun e => h (BitVec.eq_of_toNat_eq e.symm)

theorem Regs.getX_set_self (v : Vector Word 8) (d : XReg) (w : Word) : (v.set d.toNat w d.isLt).get d.toFin = w :=
  Vector.getElem_set_self (xs := v) (i := d.toNat) d.isLt

theorem Regs.getX_set_other (v : Vector Word 8) (d n : XReg) (w : Word) (h : n ≠ d) :
    (v.set d.toNat w d.isLt).get n.toFin = v.get n.toFin :=
  Vector.getElem_set_ne (xs := v) (i := d.toNat) d.isLt n.isLt fun e => h (BitVec.eq_of_toNat_eq e.symm)

/-- A `g` register read after one was written: g0 reads 0 and takes no value (03 R80). -/
@[simp] theorem Regs.readG_writeG (r : Regs) (d n : Reg) (v : Word) :
    (r.writeG d v).readG n = if n = d ∧ d ≠ 0#5 then v else r.readG n := by
  by_cases hd : d = 0#5
  · simp [Regs.writeG, hd]
  · by_cases hn : n = 0#5
    · have h0 : ¬ (0#5 = d) := fun h => hd h.symm
      simp [hn, h0]
    · by_cases h : n = d
      · subst h
        simpa [Regs.writeG, Regs.readG, hd] using Regs.get_set_self r.g n v
      · simpa [Regs.writeG, Regs.readG, hd, hn, h] using Regs.get_set_other r.g d n v h

/-- An `x` register read after one was written. -/
@[simp] theorem Regs.readX_writeX (r : Regs) (d n : XReg) (v : Word) :
    (r.writeX d v).readX n = if n = d then v else r.readX n := by
  by_cases h : n = d
  · subst h
    simpa [Regs.writeX, Regs.readX] using Regs.getX_set_self r.x n v
  · simpa [Regs.writeX, Regs.readX, h] using Regs.getX_set_other r.x d n v h

@[simp] theorem Regs.writeX_g (r : Regs) (d : XReg) (v : Word) : (r.writeX d v).g = r.g := rfl
@[simp] theorem Regs.raiseFlags_g (r : Regs) (f : FFlags) : (r.raiseFlags f).g = r.g := rfl
@[simp] theorem Regs.writeG_x (r : Regs) (d : Reg) (v : Word) : (r.writeG d v).x = r.x := by
  unfold Regs.writeG; split <;> rfl
@[simp] theorem Regs.raiseFlags_x (r : Regs) (f : FFlags) : (r.raiseFlags f).x = r.x := rfl
@[simp] theorem Regs.writeG_pc (r : Regs) (d : Reg) (v : Word) : (r.writeG d v).pc = r.pc := by
  unfold Regs.writeG; split <;> rfl
@[simp] theorem Regs.writeX_pc (r : Regs) (d : XReg) (v : Word) : (r.writeX d v).pc = r.pc := rfl
@[simp] theorem Regs.raiseFlags_pc (r : Regs) (f : FFlags) : (r.raiseFlags f).pc = r.pc := rfl
@[simp] theorem Regs.writeG_status (r : Regs) (d : Reg) (v : Word) : (r.writeG d v).status = r.status := by
  unfold Regs.writeG; split <;> rfl
@[simp] theorem Regs.writeX_status (r : Regs) (d : XReg) (v : Word) : (r.writeX d v).status = r.status := rfl
@[simp] theorem Regs.writeG_tvec (r : Regs) (d : Reg) (v : Word) : (r.writeG d v).tvec = r.tvec := by
  unfold Regs.writeG; split <;> rfl
@[simp] theorem Regs.writeX_tvec (r : Regs) (d : XReg) (v : Word) : (r.writeX d v).tvec = r.tvec := rfl
@[simp] theorem Regs.raiseFlags_tvec (r : Regs) (f : FFlags) : (r.raiseFlags f).tvec = r.tvec := rfl
@[simp] theorem Regs.writeG_tpc (r : Regs) (d : Reg) (v : Word) : (r.writeG d v).tpc = r.tpc := by
  unfold Regs.writeG; split <;> rfl
@[simp] theorem Regs.writeX_tpc (r : Regs) (d : XReg) (v : Word) : (r.writeX d v).tpc = r.tpc := rfl
@[simp] theorem Regs.raiseFlags_tpc (r : Regs) (f : FFlags) : (r.raiseFlags f).tpc = r.tpc := rfl
@[simp] theorem Regs.writeG_tkind (r : Regs) (d : Reg) (v : Word) : (r.writeG d v).tkind = r.tkind := by
  unfold Regs.writeG; split <;> rfl
@[simp] theorem Regs.writeX_tkind (r : Regs) (d : XReg) (v : Word) : (r.writeX d v).tkind = r.tkind := rfl
@[simp] theorem Regs.raiseFlags_tkind (r : Regs) (f : FFlags) : (r.raiseFlags f).tkind = r.tkind := rfl
@[simp] theorem Regs.writeG_taddr (r : Regs) (d : Reg) (v : Word) : (r.writeG d v).taddr = r.taddr := by
  unfold Regs.writeG; split <;> rfl
@[simp] theorem Regs.writeX_taddr (r : Regs) (d : XReg) (v : Word) : (r.writeX d v).taddr = r.taddr := rfl
@[simp] theorem Regs.raiseFlags_taddr (r : Regs) (f : FFlags) : (r.raiseFlags f).taddr = r.taddr := rfl
@[simp] theorem Regs.writeG_tinfo (r : Regs) (d : Reg) (v : Word) : (r.writeG d v).tinfo = r.tinfo := by
  unfold Regs.writeG; split <;> rfl
@[simp] theorem Regs.writeX_tinfo (r : Regs) (d : XReg) (v : Word) : (r.writeX d v).tinfo = r.tinfo := rfl
@[simp] theorem Regs.raiseFlags_tinfo (r : Regs) (f : FFlags) : (r.raiseFlags f).tinfo = r.tinfo := rfl
@[simp] theorem Regs.writeG_tnest (r : Regs) (d : Reg) (v : Word) : (r.writeG d v).tnest = r.tnest := by
  unfold Regs.writeG; split <;> rfl
@[simp] theorem Regs.writeX_tnest (r : Regs) (d : XReg) (v : Word) : (r.writeX d v).tnest = r.tnest := rfl
@[simp] theorem Regs.raiseFlags_tnest (r : Regs) (f : FFlags) : (r.raiseFlags f).tnest = r.tnest := rfl
@[simp] theorem Regs.writeG_tsave (r : Regs) (d : Reg) (v : Word) : (r.writeG d v).tsave = r.tsave := by
  unfold Regs.writeG; split <;> rfl
@[simp] theorem Regs.writeX_tsave (r : Regs) (d : XReg) (v : Word) : (r.writeX d v).tsave = r.tsave := rfl
@[simp] theorem Regs.raiseFlags_tsave (r : Regs) (f : FFlags) : (r.raiseFlags f).tsave = r.tsave := rfl
@[simp] theorem Regs.writeG_event (r : Regs) (d : Reg) (v : Word) : (r.writeG d v).event = r.event := by
  unfold Regs.writeG; split <;> rfl
@[simp] theorem Regs.writeX_event (r : Regs) (d : XReg) (v : Word) : (r.writeX d v).event = r.event := rfl
@[simp] theorem Regs.raiseFlags_event (r : Regs) (f : FFlags) : (r.raiseFlags f).event = r.event := rfl
@[simp] theorem Regs.raiseFlags_status (r : Regs) (f : FFlags) : (r.raiseFlags f).status = r.status ||| f.mask := rfl
@[simp] theorem Regs.raiseFlags_readG (r : Regs) (f : FFlags) (n : Reg) : (r.raiseFlags f).readG n = r.readG n := rfl
@[simp] theorem Regs.raiseFlags_readX (r : Regs) (f : FFlags) (n : XReg) : (r.raiseFlags f).readX n = r.readX n := rfl
@[simp] theorem Regs.writeX_readG (r : Regs) (d : XReg) (v : Word) (n : Reg) : (r.writeX d v).readG n = r.readG n := rfl
@[simp] theorem Regs.writeG_readX (r : Regs) (d : Reg) (v : Word) (n : XReg) : (r.writeG d v).readX n = r.readX n := by
  unfold Regs.writeG; split <;> rfl
/-! ### The running thread -/

@[simp] theorem State.g_zero (s : State) : s.g 0#5 = 0#64 := rfl

@[simp] theorem State.mapRegs_cur (s : State) (f : Regs → Regs) : (s.mapRegs f).cur = { s.cur with regs := f s.cur.regs } := rfl
@[simp] theorem State.mapTask_cur (s : State) (f : Task → Task) : (s.mapTask f).cur = { s.cur with task := s.cur.task.map f } := rfl
@[simp] theorem State.mapCur_cur (s : State) (f : Thread → Thread) : (s.mapCur f).cur = f s.cur := rfl
@[simp] theorem State.setWait_cur (s : State) (w : Wait) : (s.setWait w).cur = { s.cur with wait := w } := rfl
@[simp] theorem State.setG_cur (s : State) (d : Reg) (v : Word) :
    (s.setG d v).cur = { s.cur with regs := s.cur.regs.writeG d v } := rfl
@[simp] theorem State.setX_cur (s : State) (d : XReg) (v : Word) :
    (s.setX d v).cur = { s.cur with regs := s.cur.regs.writeX d v } := rfl
@[simp] theorem State.setPc_cur (s : State) (v : Word) : (s.setPc v).cur = { s.cur with regs := { s.cur.regs with pc := v } } := rfl
@[simp] theorem State.raiseFlags_cur (s : State) (f : FFlags) :
    (s.raiseFlags f).cur = { s.cur with regs := s.cur.regs.raiseFlags f } := rfl
@[simp] theorem State.advance_cur (s : State) (n : Nat) :
    (s.advance n).cur = { s.cur with
      regs := { s.cur.regs with pc := s.cur.regs.pc + word n }
      task := s.cur.task.map fun k => { k with retired := k.retired + 1 }
      mid := false } := rfl
@[simp] theorem State.jump_cur (s : State) (v : Word) :
    (s.jump v).cur = { s.cur with
      regs := { s.cur.regs with pc := v }
      task := s.cur.task.map fun k => { k with retired := k.retired + 1 }
      mid := false } := rfl

@[simp] theorem State.setG_g (s : State) (d n : Reg) (v : Word) :
    (s.setG d v).g n = if n = d ∧ d ≠ 0#5 then v else s.g n := by simp [State.g]
@[simp] theorem State.setX_x (s : State) (d n : XReg) (v : Word) :
    (s.setX d v).x n = if n = d then v else s.x n := by simp [State.x]
@[simp] theorem State.advance_g (s : State) (n : Nat) (r : Reg) : (s.advance n).g r = s.g r := rfl
@[simp] theorem State.advance_x (s : State) (n : Nat) (r : XReg) : (s.advance n).x r = s.x r := rfl
@[simp] theorem State.advance_mode (s : State) (n : Nat) : (s.advance n).mode = s.mode := rfl
@[simp] theorem State.jump_g (s : State) (v : Word) (r : Reg) : (s.jump v).g r = s.g r := rfl
@[simp] theorem State.jump_x (s : State) (v : Word) (r : XReg) : (s.jump v).x r = s.x r := rfl
@[simp] theorem State.jump_mode (s : State) (v : Word) : (s.jump v).mode = s.mode := rfl
@[simp] theorem State.setPc_g (s : State) (v : Word) (r : Reg) : (s.setPc v).g r = s.g r := rfl
@[simp] theorem State.setPc_x (s : State) (v : Word) (r : XReg) : (s.setPc v).x r = s.x r := rfl
@[simp] theorem State.setPc_mode (s : State) (v : Word) : (s.setPc v).mode = s.mode := rfl
@[simp] theorem State.mapTask_g (s : State) (f : Task → Task) (r : Reg) : (s.mapTask f).g r = s.g r := rfl
@[simp] theorem State.mapTask_x (s : State) (f : Task → Task) (r : XReg) : (s.mapTask f).x r = s.x r := rfl
@[simp] theorem State.mapTask_pc (s : State) (f : Task → Task) : (s.mapTask f).pc = s.pc := rfl
@[simp] theorem State.mapTask_mode (s : State) (f : Task → Task) : (s.mapTask f).mode = s.mode := rfl
@[simp] theorem State.setWait_g (s : State) (w : Wait) (r : Reg) : (s.setWait w).g r = s.g r := rfl
@[simp] theorem State.setWait_x (s : State) (w : Wait) (r : XReg) : (s.setWait w).x r = s.x r := rfl
@[simp] theorem State.setWait_pc (s : State) (w : Wait) : (s.setWait w).pc = s.pc := rfl
@[simp] theorem State.setWait_mode (s : State) (w : Wait) : (s.setWait w).mode = s.mode := rfl
@[simp] theorem State.raiseFlags_g (s : State) (f : FFlags) (r : Reg) : (s.raiseFlags f).g r = s.g r := rfl
@[simp] theorem State.raiseFlags_x (s : State) (f : FFlags) (r : XReg) : (s.raiseFlags f).x r = s.x r := rfl
@[simp] theorem State.raiseFlags_pc (s : State) (f : FFlags) : (s.raiseFlags f).pc = s.pc := rfl
@[simp] theorem State.setX_g (s : State) (d : XReg) (v : Word) (r : Reg) : (s.setX d v).g r = s.g r := rfl
@[simp] theorem State.setX_pc (s : State) (d : XReg) (v : Word) : (s.setX d v).pc = s.pc := rfl
@[simp] theorem State.setX_mode (s : State) (d : XReg) (v : Word) : (s.setX d v).mode = s.mode := rfl
@[simp] theorem State.mapCluster_g (s : State) (cl : Nat) (f : Cluster → Cluster) (r : Reg) : (s.mapCluster cl f).g r = s.g r := rfl
@[simp] theorem State.mapCluster_x (s : State) (cl : Nat) (f : Cluster → Cluster) (r : XReg) : (s.mapCluster cl f).x r = s.x r := rfl
@[simp] theorem State.mapCluster_pc (s : State) (cl : Nat) (f : Cluster → Cluster) : (s.mapCluster cl f).pc = s.pc := rfl
@[simp] theorem State.mapCluster_mode (s : State) (cl : Nat) (f : Cluster → Cluster) : (s.mapCluster cl f).mode = s.mode := rfl
@[simp] theorem State.mapDie_g (s : State) (d : Nat) (f : Die → Die) (r : Reg) : (s.mapDie d f).g r = s.g r := rfl
@[simp] theorem State.mapDie_x (s : State) (d : Nat) (f : Die → Die) (r : XReg) : (s.mapDie d f).x r = s.x r := rfl
@[simp] theorem State.mapDie_pc (s : State) (d : Nat) (f : Die → Die) : (s.mapDie d f).pc = s.pc := rfl
@[simp] theorem State.mapDie_mode (s : State) (d : Nat) (f : Die → Die) : (s.mapDie d f).mode = s.mode := rfl
@[simp] theorem State.mapPart_g (s : State) (p : Nat) (f : Part → Part) (r : Reg) : (s.mapPart p f).g r = s.g r := rfl
@[simp] theorem State.mapPart_x (s : State) (p : Nat) (f : Part → Part) (r : XReg) : (s.mapPart p f).x r = s.x r := rfl
@[simp] theorem State.mapPart_pc (s : State) (p : Nat) (f : Part → Part) : (s.mapPart p f).pc = s.pc := rfl
@[simp] theorem State.mapPart_mode (s : State) (p : Nat) (f : Part → Part) : (s.mapPart p f).mode = s.mode := rfl
@[simp] theorem State.raise_g (s : State) (k : UnitKind) (a b c : Nat) (r : Reg) : (s.raise k a b c).g r = s.g r := rfl
@[simp] theorem State.raise_x (s : State) (k : UnitKind) (a b c : Nat) (r : XReg) : (s.raise k a b c).x r = s.x r := rfl
@[simp] theorem State.raise_pc (s : State) (k : UnitKind) (a b c : Nat) : (s.raise k a b c).pc = s.pc := rfl
@[simp] theorem State.raise_mode (s : State) (k : UnitKind) (a b c : Nat) : (s.raise k a b c).mode = s.mode := rfl
@[simp] theorem State.advance_pc (s : State) (n : Nat) : (s.advance n).pc = s.pc + word n := rfl
@[simp] theorem State.jump_pc (s : State) (v : Word) : (s.jump v).pc = v := rfl
@[simp] theorem State.setPc_pc (s : State) (v : Word) : (s.setPc v).pc = v := rfl
@[simp] theorem State.setG_x (s : State) (d : Reg) (v : Word) (n : XReg) : (s.setG d v).x n = s.x n := by simp [State.x]
@[simp] theorem State.setG_pc (s : State) (d : Reg) (v : Word) : (s.setG d v).pc = s.pc := by simp [State.pc]
@[simp] theorem State.setG_mode (s : State) (d : Reg) (v : Word) : (s.setG d v).mode = s.mode := by simp [State.mode, Regs.mode]
end Sys2Proof.Machine
end

