-- ==== Sys2Proof/Laws/Ops.lean ====
section
/-! SUPPORT. What each shared operation can do, said once: how an instruction ends, taking an exception and returning from it,
the steps of an access, and the canonical form of the memories under every write of the state. -/

namespace Sys2Proof.Machine

/-! ### A step of an instruction and what follows it -/

@[simp] theorem Acc.bind_ok {α β : Type} (v : α) (s : State) (f : α → State → Acc β) : (Acc.ok v s).bind f = f v s := rfl
@[simp] theorem Acc.bind_trap {α β : Type} (r : TrapRec) (s : State) (f : α → State → Acc β) : (Acc.trap r s).bind f = .trap r s := rfl
@[simp] theorem Acc.bind_wait {α β : Type} (s : State) (f : α → State → Acc β) : (Acc.wait s).bind f = .wait s := rfl
@[simp] theorem Acc.run_ok {α : Type} (v : α) (s : State) (f : α → State → State) : (Acc.ok v s).run f = .next (f v s) := rfl
@[simp] theorem Acc.run_trap {α : Type} (r : TrapRec) (s : State) (f : α → State → State) : (Acc.trap r s).run f = .next (s.takeTrap r) := rfl
@[simp] theorem Acc.run_wait {α : Type} (s : State) (f : α → State → State) : (Acc.wait s).run f = .next s := rfl

/-- A chain of steps ends in a value exactly when each of its two parts does. -/
theorem Acc.bind_eq_ok {α β : Type} {a : Acc α} {f : α → State → Acc β} {w : β} {t : State} (h : a.bind f = .ok w t) :
    ∃ v u, a = .ok v u ∧ f v u = .ok w t := by
  cases a with
  | ok v u => exact ⟨v, u, rfl, h⟩
  | trap r u => simp at h
  | wait u => simp at h

/-- How an instruction made of steps can answer: by its value, by a trap taken, or by a dropped thread. -/
theorem Acc.run_cases {α : Type} (a : Acc α) (f : α → State → State) :
    (∃ v t, a = .ok v t ∧ a.run f = .next (f v t)) ∨ (∃ r t, a = .trap r t ∧ a.run f = .next (t.takeTrap r)) ∨
    ∃ t, a = .wait t ∧ a.run f = .next t := by
  cases a with
  | ok v t => exact .inl ⟨v, t, rfl, rfl⟩
  | trap r t => exact .inr (.inl ⟨r, t, rfl, rfl⟩)
  | wait t => exact .inr (.inr ⟨t, rfl, rfl⟩)

/-! ### Taking an exception and returning from it (10 R255, R256, R262) -/

@[simp] theorem Regs.writeTrap_pc (r : Regs) (t : TrapRec) : (r.writeTrap t).pc = r.pc := rfl
@[simp] theorem Regs.writeTrap_g (r : Regs) (t : TrapRec) : (r.writeTrap t).g = r.g := rfl
@[simp] theorem Regs.writeTrap_status (r : Regs) (t : TrapRec) : (r.writeTrap t).status = r.status := rfl
@[simp] theorem Regs.enterTrap_pc (r : Regs) (t : TrapRec) : (r.enterTrap t).pc = r.tvec := rfl
@[simp] theorem Regs.enterTrap_tpc (r : Regs) (t : TrapRec) : (r.enterTrap t).tpc = r.pc := rfl
@[simp] theorem Regs.enterTrap_tkind (r : Regs) (t : TrapRec) : (r.enterTrap t).tkind = word t.kind := rfl
@[simp] theorem Regs.enterTrap_taddr (r : Regs) (t : TrapRec) : (r.enterTrap t).taddr = t.taddr := rfl
@[simp] theorem Regs.enterTrap_tinfo (r : Regs) (t : TrapRec) : (r.enterTrap t).tinfo = t.tinfo := rfl
@[simp] theorem Regs.enterTrap_tnest (r : Regs) (t : TrapRec) : (r.enterTrap t).tnest = 0 := rfl
@[simp] theorem Regs.enterTrap_tvec (r : Regs) (t : TrapRec) : (r.enterTrap t).tvec = r.tvec := rfl
@[simp] theorem Regs.enterTrap_tsave (r : Regs) (t : TrapRec) : (r.enterTrap t).tsave = r.tsave := rfl
@[simp] theorem Regs.enterTrap_event (r : Regs) (t : TrapRec) : (r.enterTrap t).event = r.event := rfl
@[simp] theorem Regs.enterTrap_g (r : Regs) (t : TrapRec) : (r.enterTrap t).g = r.g := rfl
@[simp] theorem Regs.enterTrap_x (r : Regs) (t : TrapRec) : (r.enterTrap t).x = r.x := rfl

/-- A trap outside a handler, on a core that has a handler: the entry of R255, and the thread goes on at `TVEC`. -/
theorem State.takeTrap_enters {s : State} (t : TrapRec) (k : s.cur.id.kind ≠ .memory) (h : s.cur.regs.ta = false) :
    s.takeTrap t = ((s.mapRegs fun r => r.enterTrap t).setWait .ready).mapCur fun t => { t with mid := false } := by
  cases e : s.cur.id.kind with
  | memory => exact absurd e k
  | command => simp [State.takeTrap, e, h]
  | barrel => simp [State.takeTrap, e, h]

/-- A trap inside a handler ends the task of a barrel core (10 R258). -/
theorem State.takeTrap_nested {s : State} (t : TrapRec) (k : s.cur.id.kind = .barrel) (h : s.cur.regs.ta = true) :
    s.takeTrap t = (s.mapRegs fun r => r.writeTrap t).terminate t := by
  simp [State.takeTrap, k, h]

/-- Any trap ends a loader program (10 R259). -/
theorem State.takeTrap_loader {s : State} (t : TrapRec) (k : s.cur.id.kind = .memory) :
    s.takeTrap t = s.endLoader (some t.kind) t.taddr := by
  simp [State.takeTrap, k]

/-- A return to an even `TPC` goes there, with the mode that stood in `PMODE` and `TA` clear. -/
theorem State.returnFromTrap_even {s : State} (h : bit s.cur.regs.tpc 0 = false) :
    s.returnFromTrap =
      (s.mapRegs fun r => { r with status := setBits (setBits r.status 11 2 (bits r.status 13 2)) 15 1 0 }).jump s.cur.regs.tpc := by
  simp [State.returnFromTrap, h]

/-- The trap of an odd `TPC` is taken in the mode returned to. -/
theorem State.returnFromTrap_odd {s : State} (h : bit s.cur.regs.tpc 0 = true) :
    s.returnFromTrap =
      (s.mapRegs fun r => { r with status := setBits (setBits r.status 11 2 (bits r.status 13 2)) 15 1 0 }).takeTrap
        { kind := 0x02, taddr := s.cur.regs.tpc, tinfo := 0 } := by
  simp [State.returnFromTrap, h]

/-! ### The steps of an access (05 R129) -/

/-- A misaligned access traps at once. -/
theorem State.access_misaligned {s : State} {a : Access} (h : a.va.toNat % a.op.size ≠ 0) : s.access a = .trap (a.trap 0x02) s := by
  simp [State.access, h]

/-- An access that completes is aligned, has been located, and was granted by its home or needed none. -/
theorem State.access_ok {s t : State} {a : Access} (h : s.access a = .ok () t) :
    a.va.toNat % a.op.size = 0 ∧
    ∃ l u, s.locate a.va (if a.op.writes then 1 else 0) (a.trap 0) = .ok l u ∧ u.meetHome a l false = .ok () t := by
  by_cases m : a.va.toNat % a.op.size = 0
  · simp only [State.access, m, ne_eq, not_true, if_false] at h
    obtain ⟨l, u, hl, hu⟩ := Acc.bind_eq_ok h
    exact ⟨m, l, u, hl, hu⟩
  · simp [State.access, m] at h

/-- On a command core every populated address is a physical one, and any other traps unmapped. -/
theorem State.locate_command {s : State} (k : s.cur.id.kind = .command) (va : Word) (acc : Nat) (r : TrapRec) :
    s.locate va acc r = if populated va.toNat then .ok (.phys va.toNat) s else .trap { r with kind := 0x04 } s := by
  simp [State.locate, k]

/-- Elsewhere the address alone decides about the scratchpads and the unmapped ranges. -/
theorem State.locate_place {s : State} (k : s.cur.id.kind ≠ .command) (va : Word) (acc : Nat) (r : TrapRec) :
    s.locate va acc r = match s.place s.curPart s.curCluster va with
      | .at l => .ok l s
      | .unmapped => .trap { r with kind := 0x04 } s
      | .paged => s.translatePaged va acc r := by
  cases e : s.cur.id.kind with
  | command => exact absurd e k
  | memory => unfold State.locate; rewrite [e]; cases s.place s.curPart s.curCluster va <;> rfl
  | barrel => unfold State.locate; rewrite [e]; cases s.place s.curPart s.curCluster va <;> rfl

/-- A misaligned structure traps at once, with the code of an acquire access of eight bytes. -/
theorem State.structure_misaligned {s : State} {va : Word} {align acc : Nat} (h : va.toNat % align ≠ 0) :
    s.structure_ va align acc = .trap { kind := 0x02, taddr := va, tinfo := accInfo 1 3 1 } s := by
  simp [State.structure_, h]

/-- The location of a structure is that of its address. -/
theorem State.locateStruct_ok {s u : State} {va : Word} {acc : Nat} {r : TrapRec} {l : Loc} :
    s.locateStruct va acc r = .ok l u ↔ s.locate va acc r = .ok l u := by
  unfold State.locateStruct
  cases s.locate va acc r <;> simp

/-- A structure that is found is aligned and stands in device memory, outside every view range. -/
theorem State.structure_ok {s t : State} {va : Word} {align acc : Nat} {l : Loc} (h : s.structure_ va align acc = .ok l t) :
    va.toNat % align = 0 ∧ ∃ p g u, l = .dram p g ∧
      s.firstAccess.locate va acc { kind := 0, taddr := va, tinfo := accInfo 1 3 1 } = .ok l u ∧
      ((u.part p).windowAt g).isSome = false := by
  by_cases m : va.toNat % align = 0
  · simp only [State.structure_, m, ne_eq, not_true, if_false] at h
    obtain ⟨l', u, hl, hu⟩ := Acc.bind_eq_ok h
    rw [State.locateStruct_ok] at hl
    refine ⟨m, ?_⟩
    cases l' with
    | dram p g =>
      simp only at hu
      split at hu
      · simp at hu
      · rename_i w
        obtain ⟨_, v, _, hv⟩ := Acc.bind_eq_ok hu
        generalize (if v.speculative = true then _ else _ : Bool) = c at hv
        generalize (v.speculative && !v.holdsSummit) = d at hv
        cases c
        · simp only [Bool.false_eq_true, if_false, Acc.ok.injEq] at hv
          obtain ⟨rfl, -⟩ := hv
          exact ⟨p, g, u, rfl, hl, by simpa using w⟩
        · cases d <;> simp at hv
    | scratch c o => simp at hu
    | phys a => simp at hu
    | host a => simp at hu
  · simp [State.structure_, m] at h

/-- A block of no lines is empty. -/
@[simp] theorem State.readBlock_zero (s : State) (va info : Word) (k : Nat) : s.readBlock va info 0 k = .ok [] s := rfl

/-! ### Registers and tables -/

@[simp] theorem State.cluster_mapCluster (s : State) (c d : Nat) (f : Cluster → Cluster) :
    (s.mapCluster c f).cluster d = if c = d then f (s.cluster c) else s.cluster d := by
  simp [State.mapCluster, State.setCluster, State.cluster]

@[simp] theorem State.die_mapDie (s : State) (c d : Nat) (f : Die → Die) :
    (s.mapDie c f).die d = if c = d then f (s.die c) else s.die d := by
  simp [State.mapDie, State.die]

@[simp] theorem State.part_mapPart (s : State) (p q : Nat) (f : Part → Part) :
    (s.mapPart p f).part q = if p = q then f (s.part p) else s.part q := by
  simp [State.mapPart, State.part]

/-! ### The canonical form of the memories -/

/-- Device memory, host memory, every scratchpad and every saved scratchpad are in canonical form. -/
def State.memWf (s : State) : Prop :=
  s.mem.wf = true ∧ s.hostMem.wf = true ∧ (∀ e ∈ s.clusters, e.2.scratch.wf = true) ∧
  ∀ e ∈ s.parts, ∀ a ∈ e.2.saves, a.cluster.scratch.wf = true

theorem State.memWf_reset : State.reset.memWf := by
  refine ⟨rfl, rfl, ?_, ?_⟩ <;> simp [State.reset]

theorem Tbl.mem_put {α : Type} {t : Tbl α} {a : Nat} {v : α} {e : Nat × α} (h : e ∈ t.put a v) : e ∈ t ∨ e = (a, v) := by
  induction t with
  | nil => simpa [Tbl.put] using h
  | cons x t ih =>
    obtain ⟨k, w⟩ := x
    simp only [Tbl.put] at h
    split at h
    · simp only [List.mem_cons] at h ⊢; tauto
    · simp only [List.mem_cons] at h ⊢
      rcases h with h | h
      · exact .inl (.inl h)
      · rcases ih h with h | h
        · exact .inl (.inr h)
        · exact .inr h

theorem Tbl.get?_mem {α : Type} {t : Tbl α} {a : Nat} {v : α} (h : Tbl.get? t a = some v) : ∃ e ∈ t, e.2 = v := by
  induction t with
  | nil => simp [Tbl.get?] at h
  | cons x t ih =>
    obtain ⟨k, w⟩ := x
    simp only [Tbl.get?] at h
    split at h
    · exact ⟨(k, w), by simp, by simpa using h⟩
    · obtain ⟨e, he, q⟩ := ih h
      exact ⟨e, by simp [he], q⟩

/-- The scratchpad of any cluster of a state in canonical form. -/
theorem State.scratch_wf {s : State} (h : s.memWf) (c : Nat) : (s.cluster c).scratch.wf = true := by
  unfold State.cluster Tbl.getD
  cases e : Tbl.get? s.clusters c with
  | none => rfl
  | some x =>
    obtain ⟨y, hy, rfl⟩ := Tbl.get?_mem e
    exact h.2.2.1 y hy

theorem State.memWf_mapCluster {s : State} (h : s.memWf) (c : Nat) {f : Cluster → Cluster}
    (hf : (f (s.cluster c)).scratch.wf = true) : (s.mapCluster c f).memWf := by
  refine ⟨h.1, h.2.1, ?_, h.2.2.2⟩
  intro e he
  rcases Tbl.mem_put he with he | rfl
  · exact h.2.2.1 e he
  · exact hf

/-- The saves of any partition of a state in canonical form. -/
theorem State.saves_wf {s : State} (h : s.memWf) (p : Nat) : ∀ a ∈ (s.part p).saves, a.cluster.scratch.wf = true := by
  unfold State.part Tbl.getD
  cases e : Tbl.get? s.parts p with
  | none => simp [Part.reset]
  | some x =>
    obtain ⟨y, hy, rfl⟩ := Tbl.get?_mem e
    exact h.2.2.2 y hy

theorem State.memWf_mapPart {s : State} (h : s.memWf) (p : Nat) {f : Part → Part} (hf : (f (s.part p)).saves = (s.part p).saves) :
    (s.mapPart p f).memWf := by
  refine ⟨h.1, h.2.1, h.2.2.1, ?_⟩
  intro e he
  rcases Tbl.mem_put he with he | rfl
  · exact h.2.2.2 e he
  · simpa [hf] using State.saves_wf h p

theorem State.memWf_mapDie {s : State} (h : s.memWf) (d : Nat) (f : Die → Die) : (s.mapDie d f).memWf := h

theorem State.memWf_raise {s : State} (h : s.memWf) (k : UnitKind) (a b c : Nat) : (s.raise k a b c).memWf := h

/-- A byte written anywhere keeps the canonical form. -/
theorem State.memWf_pokeByte {s : State} (h : s.memWf) (l : Loc) (b : Byte) : (s.pokeByte l b).memWf := by
  cases l with
  | dram p g =>
    unfold State.pokeByte
    cases e : s.frameAt p g with
    | none => simpa [e] using h
    | some a => simpa [e] using ⟨Memory.wf_write h.1 a b, h.2.1, h.2.2.1, h.2.2.2⟩
  | scratch c o => exact State.memWf_mapCluster h c (Memory.wf_write (State.scratch_wf h c) o b)
  | phys a => exact ⟨Memory.wf_write h.1 a b, h.2.1, h.2.2.1, h.2.2.2⟩
  | host a => exact ⟨h.1, Memory.wf_write h.2.1 a b, h.2.2.1, h.2.2.2⟩

theorem State.memWf_pokeBytes : {s : State} → s.memWf → (l : Loc) → (bs : List Byte) → (s.pokeBytes l bs).memWf
  | _, h, _, [] => h
  | _, h, l, b :: bs => State.memWf_pokeBytes (State.memWf_pokeByte h l b) (l.shift 1) bs

theorem State.memWf_setPoison {s : State} (h : s.memWf) (l : Loc) (on : Bool) : (s.setPoison l on).memWf := by
  cases l with
  | dram p g =>
    unfold State.setPoison
    cases e : s.frameAt p g with
    | none => simpa [e] using h
    | some a => simp only [e]; exact h
  | scratch c o => exact State.memWf_mapCluster h c (State.scratch_wf h c)
  | phys a => exact h
  | host a => exact h

theorem State.memWf_foldl {α : Type} {f : State → α → State} (hf : ∀ s x, s.memWf → (f s x).memWf) :
    (l : List α) → {s : State} → s.memWf → (l.foldl f s).memWf
  | [], _, h => h
  | x :: l, _, h => State.memWf_foldl hf l (hf _ x h)

theorem State.memWf_clearPoison {s : State} (h : s.memWf) (l : Loc) (n : Nat) : (s.clearPoison l n).memWf := by
  refine State.memWf_foldl (fun s k hs => ?_) _ h
  split
  · exact State.memWf_setPoison hs _ _
  · exact hs

theorem State.memWf_dropViews {s : State} (h : s.memWf) (p g : Nat) : (s.dropViews p g).memWf := by
  unfold State.dropViews
  simp only
  split
  · exact h
  · exact h

theorem State.memWf_noteWrite {s : State} (h : s.memWf) (l : Loc) : (s.noteWrite l).memWf := by
  have k (p g : Nat) : ((s.markDirtyPage p g).dropViews p g).memWf := State.memWf_dropViews (State.memWf_mapPart h p rfl) p g
  cases l with
  | dram p g => exact k p g
  | scratch c o => exact h
  | phys a =>
    unfold State.noteWrite
    cases e : s.guestOf a with
    | none => simpa [e] using h
    | some x => simpa [e] using k x.1 x.2
  | host a => exact h

/-- A write at a home keeps the canonical form of every memory. -/
theorem State.memWf_writeHome {s : State} (h : s.memWf) (l : Loc) (bs : List Byte) : (s.writeHome l bs).memWf :=
  State.memWf_noteWrite (State.memWf_clearPoison (State.memWf_pokeBytes h l bs) l bs.length) l

theorem State.memWf_sendInvalidations {s : State} (h : s.memWf) (p g : Nat) (own : Option Nat) (w : Nat) :
    (s.sendInvalidations p g own w).memWf := by
  unfold State.sendInvalidations
  refine State.memWf_foldl (fun s e (hs : s.memWf) => ?_) _ ?_
  · exact State.memWf_raise (State.memWf_mapDie hs _ _) _ _ _ _
  · exact h

theorem State.memWf_writeHost {s : State} (h : s.memWf) (cl w a : Nat) (bs : List Byte) : (s.writeHost cl w a bs).memWf := by
  unfold State.writeHost
  refine State.memWf_foldl (fun s d hs => ?_) _ (State.memWf_writeHome h (.host a) bs)
  split
  · exact hs
  · split
    · exact State.memWf_mapDie hs _ _
    · exact State.memWf_raise (State.memWf_mapDie hs _ _) _ _ _ _

theorem State.memWf_storeHome {s : State} (h : s.memWf) (cl w : Nat) (l : Loc) (bs : List Byte) : (s.storeHome cl w l bs).memWf := by
  have k := State.memWf_writeHome h l bs
  cases l with
  | dram p g =>
    unfold State.storeHome
    refine State.memWf_sendInvalidations ?_ _ _ _ _
    split
    · exact k
    · exact k
  | scratch c o => exact k
  | phys a =>
    unfold State.storeHome
    cases e : s.guestOf a with
    | none => simpa [e] using k
    | some x => simpa [e] using State.memWf_sendInvalidations k x.1 x.2 none w
  | host a => exact State.memWf_writeHost h cl w a bs

theorem State.memWf_agentWrite {s : State} (h : s.memWf) (w : Nat) (l : Loc) (bs : List Byte) : (s.agentWrite w l bs).memWf := by
  have k := State.memWf_writeHome h l bs
  cases l with
  | dram p g => exact State.memWf_sendInvalidations k _ _ _ _
  | scratch c o => exact k
  | phys a =>
    unfold State.agentWrite
    cases e : s.guestOf a with
    | none => simpa [e] using k
    | some x => simpa [e] using State.memWf_sendInvalidations k x.1 x.2 none w
  | host a => exact k

theorem State.memWf_agentPoison {s : State} (h : s.memWf) (l : Loc) (fl : List Bool) : (s.agentPoison l fl).memWf := by
  refine State.memWf_foldl (fun s e hs => ?_) _ h
  split
  · exact State.memWf_setPoison hs _ _
  · exact hs

end Sys2Proof.Machine
end

