-- ==== Sys2Proof/Laws/Partitions.lean ====
section
/-! SUPPORT. The canonical form of the memories under the writes and reads of save areas (22 R417). -/

namespace Sys2Proof.Machine

theorem Memory.wf_writeAll (a len : Nat) : (img : Memory) → {m : Memory} → m.wf = true →
    (img.foldl (fun (mem : Memory) e => if e.1 < len then mem.write (a + e.1) e.2 else mem) m).wf = true
  | [], _, h => h
  | e :: img, m, h => by
    simp only [List.foldl_cons]
    refine Memory.wf_writeAll a len img ?_
    split
    · exact Memory.wf_write h _ _
    · exact h

/-- An image put into memory of a partition without format windows keeps the canonical form of every memory. -/
theorem State.memWf_putImage {s : State} (h : s.memWf) (p gpa len : Nat) (img : Memory) (bad : List Nat)
    (none : (s.part p).conf.windows = []) : (s.putImage p gpa len img bad).memWf := by
  unfold State.putImage
  split
  · exact h
  · rw [none]
    simp only [List.isEmpty_nil, Bool.not_true, Bool.false_eq_true, if_false]
    refine State.memWf_foldl (fun s k hs => State.memWf_mapPart hs p rfl) _ ?_
    refine ⟨Memory.wf_writeAll _ _ _ (Memory.wf_clear h.1 _ _), h.2.1, ?_, h.2.2.2⟩
    intro e he
    simp only [List.mem_map] at he
    obtain ⟨x, hx, rfl⟩ := he
    exact h.2.2.1 x hx

end Sys2Proof.Machine
end

