-- ==== Sys2Proof/Laws/PerInstr.lean ====
section
/-! SUPPORT. What holds of every instruction as syntax, one lemma per constructor. -/

namespace Sys2Proof.Laws.Length

/-- The encoding of an instruction has the length of the instruction, and bits 15:14 of its first halfword are 11 exactly when it is 32 bits
long (03 R77). -/
def Statement (i : Instr) : Prop :=
  (encode i).length = i.len ∧
  match encode i with
  | _ :: b1 :: _ => i.len = 4 ↔ b1.extractLsb' 6 2 = 3
  | _ => i.len = 0

theorem of_none {i : Instr} (h : encodeWords i = .none) : Statement i := by
  simp [Statement, encode, Instr.len, h]

theorem of_half {i : Instr} {w : BitVec 16} (h : encodeWords i = .half w) (t : w.extractLsb' 14 2 ≠ 3) : Statement i := by
  have e : (w.extractLsb' 8 8).extractLsb' 6 2 = w.extractLsb' 14 2 := by
    apply BitVec.eq_of_getLsbD_eq
    intro i hi
    simp only [BitVec.getLsbD_extractLsb']
    have h8 : 6 + i < 8 := by omega
    simp [h8, hi, ← Nat.add_assoc]
  simpa [Statement, encode, Instr.len, h, halfBytes, e] using t

theorem of_word {i : Instr} {w : BitVec 32} (h : encodeWords i = .word w) (t : w.extractLsb' 30 2 = 3) : Statement i := by
  have e : ((w.extractLsb' 16 16).extractLsb' 8 8).extractLsb' 6 2 = w.extractLsb' 30 2 := by
    apply BitVec.eq_of_getLsbD_eq
    intro i hi
    simp only [BitVec.getLsbD_extractLsb']
    have h8 : 6 + i < 8 := by omega
    have h16 : 14 + i < 16 := by omega
    simp [h8, h16, hi, ← Nat.add_assoc]
  simp [Statement, encode, Instr.len, h, halfBytes, e, t]

theorem top_wordA (m : BitVec 6) (d a b : BitVec 5) (f : BitVec 9) : (wordA m d a b f).extractLsb' 30 2 = 3 := by
  apply BitVec.eq_of_getLsbD_eq
  intro i hi
  have : i = 0 ∨ i = 1 := by omega
  rcases this with rfl | rfl <;> simp only [wordA, BitVec.getLsbD_extractLsb', BitVec.getLsbD_append] <;> rfl

theorem top_wordI14 (m : BitVec 6) (d a : BitVec 5) (i : BitVec 14) : (wordI14 m d a i).extractLsb' 30 2 = 3 := by
  apply BitVec.eq_of_getLsbD_eq
  intro i hi
  have : i = 0 ∨ i = 1 := by omega
  rcases this with rfl | rfl <;> simp only [wordI14, BitVec.getLsbD_extractLsb', BitVec.getLsbD_append] <;> rfl

theorem top_wordM (m : BitVec 6) (v b : BitVec 5) (k : BitVec 3) (o : BitVec 2) (i : BitVec 9) : (wordM m v b k o i).extractLsb' 30 2 = 3 := by
  apply BitVec.eq_of_getLsbD_eq
  intro i hi
  have : i = 0 ∨ i = 1 := by omega
  rcases this with rfl | rfl <;> simp only [wordM, BitVec.getLsbD_extractLsb', BitVec.getLsbD_append] <;> rfl

theorem top_half0 (o d s : BitVec 4) (e : BitVec 2) : (half0 o d s e).extractLsb' 14 2 = 0 := by
  apply BitVec.eq_of_getLsbD_eq
  intro i hi
  have : i = 0 ∨ i = 1 := by omega
  rcases this with rfl | rfl <;> simp only [half0, BitVec.getLsbD_extractLsb', BitVec.getLsbD_append] <;> rfl

theorem top_half1 (o : BitVec 3) (d : BitVec 4) (i : BitVec 7) : (half1 o d i).extractLsb' 14 2 = 1 := by
  apply BitVec.eq_of_getLsbD_eq
  intro i hi
  have : i = 0 ∨ i = 1 := by omega
  rcases this with rfl | rfl <;> simp only [half1, BitVec.getLsbD_extractLsb', BitVec.getLsbD_append] <;> rfl

theorem top_half2 (o : BitVec 2) (i : BitVec 12) : (half2 o i).extractLsb' 14 2 = 2 := by
  apply BitVec.eq_of_getLsbD_eq
  intro i hi
  have : i = 0 ∨ i = 1 := by omega
  rcases this with rfl | rfl <;> simp only [half2, BitVec.getLsbD_extractLsb', BitVec.getLsbD_append] <;> rfl

theorem top_li (m : BitVec 6) (d : BitVec 5) (i : BitVec 19) : ((3 : BitVec 2) ++ m ++ d ++ i).extractLsb' 30 2 = 3 := by
  apply BitVec.eq_of_getLsbD_eq
  intro i hi
  have : i = 0 ∨ i = 1 := by omega
  rcases this with rfl | rfl <;> simp only [BitVec.getLsbD_extractLsb', BitVec.getLsbD_append] <;> rfl

theorem top_lix (m : BitVec 6) (d : BitVec 3) (i : BitVec 21) : ((3 : BitVec 2) ++ m ++ d ++ i).extractLsb' 30 2 = 3 := by
  apply BitVec.eq_of_getLsbD_eq
  intro i hi
  have : i = 0 ∨ i = 1 := by omega
  rcases this with rfl | rfl <;> simp only [BitVec.getLsbD_extractLsb', BitVec.getLsbD_append] <;> rfl

theorem top_j (m : BitVec 6) (o : BitVec 24) : ((3 : BitVec 2) ++ m ++ o).extractLsb' 30 2 = 3 := by
  apply BitVec.eq_of_getLsbD_eq
  intro i hi
  have : i = 0 ∨ i = 1 := by omega
  rcases this with rfl | rfl <;> simp only [BitVec.getLsbD_extractLsb', BitVec.getLsbD_append] <;> rfl

theorem top_serve (m : BitVec 6) (d a : BitVec 5) (n r : BitVec 3) (s : BitVec 8) :
    ((3 : BitVec 2) ++ m ++ d ++ a ++ n ++ r ++ s).extractLsb' 30 2 = 3 := by
  apply BitVec.eq_of_getLsbD_eq
  intro i hi
  have : i = 0 ∨ i = 1 := by omega
  rcases this with rfl | rfl <;> simp only [BitVec.getLsbD_extractLsb', BitVec.getLsbD_append] <;> rfl

theorem top_udf (x : BitVec 10) : ((0 : BitVec 6) ++ x).extractLsb' 14 2 = 0 := by
  apply BitVec.eq_of_getLsbD_eq
  intro i hi
  have : i = 0 ∨ i = 1 := by omega
  rcases this with rfl | rfl <;> simp only [BitVec.getLsbD_extractLsb', BitVec.getLsbD_append] <;> rfl

/-! ### One lemma per constructor -/

theorem add (d : Reg) (a : Reg) (b : Reg) : Statement (.add d a b) := of_word rfl (top_wordA ..)
theorem sub (d : Reg) (a : Reg) (b : Reg) : Statement (.sub d a b) := of_word rfl (top_wordA ..)
theorem mul (d : Reg) (a : Reg) (b : Reg) : Statement (.mul d a b) := of_word rfl (top_wordA ..)
theorem mulh (d : Reg) (a : Reg) (b : Reg) : Statement (.mulh d a b) := of_word rfl (top_wordA ..)
theorem mulhn (d : Reg) (a : Reg) (b : Reg) : Statement (.mulhn d a b) := of_word rfl (top_wordA ..)
theorem div (d : Reg) (a : Reg) (b : Reg) : Statement (.div d a b) := of_word rfl (top_wordA ..)
theorem divn (d : Reg) (a : Reg) (b : Reg) : Statement (.divn d a b) := of_word rfl (top_wordA ..)
theorem rem (d : Reg) (a : Reg) (b : Reg) : Statement (.rem d a b) := of_word rfl (top_wordA ..)
theorem remn (d : Reg) (a : Reg) (b : Reg) : Statement (.remn d a b) := of_word rfl (top_wordA ..)
theorem and (d : Reg) (a : Reg) (b : Reg) : Statement (.and d a b) := of_word rfl (top_wordA ..)
theorem or (d : Reg) (a : Reg) (b : Reg) : Statement (.or d a b) := of_word rfl (top_wordA ..)
theorem xor (d : Reg) (a : Reg) (b : Reg) : Statement (.xor d a b) := of_word rfl (top_wordA ..)
theorem andn (d : Reg) (a : Reg) (b : Reg) : Statement (.andn d a b) := of_word rfl (top_wordA ..)
theorem orn (d : Reg) (a : Reg) (b : Reg) : Statement (.orn d a b) := of_word rfl (top_wordA ..)
theorem shl (d : Reg) (a : Reg) (b : Reg) : Statement (.shl d a b) := of_word rfl (top_wordA ..)
theorem shr (d : Reg) (a : Reg) (b : Reg) : Statement (.shr d a b) := of_word rfl (top_wordA ..)
theorem sra (d : Reg) (a : Reg) (b : Reg) : Statement (.sra d a b) := of_word rfl (top_wordA ..)
theorem rol (d : Reg) (a : Reg) (b : Reg) : Statement (.rol d a b) := of_word rfl (top_wordA ..)
theorem ror (d : Reg) (a : Reg) (b : Reg) : Statement (.ror d a b) := of_word rfl (top_wordA ..)
theorem min (d : Reg) (a : Reg) (b : Reg) : Statement (.min d a b) := of_word rfl (top_wordA ..)
theorem max (d : Reg) (a : Reg) (b : Reg) : Statement (.max d a b) := of_word rfl (top_wordA ..)
theorem minn (d : Reg) (a : Reg) (b : Reg) : Statement (.minn d a b) := of_word rfl (top_wordA ..)
theorem maxn (d : Reg) (a : Reg) (b : Reg) : Statement (.maxn d a b) := of_word rfl (top_wordA ..)
theorem slt (d : Reg) (a : Reg) (b : Reg) : Statement (.slt d a b) := of_word rfl (top_wordA ..)
theorem sltn (d : Reg) (a : Reg) (b : Reg) : Statement (.sltn d a b) := of_word rfl (top_wordA ..)
theorem seq (d : Reg) (a : Reg) (b : Reg) : Statement (.seq d a b) := of_word rfl (top_wordA ..)
theorem sne (d : Reg) (a : Reg) (b : Reg) : Statement (.sne d a b) := of_word rfl (top_wordA ..)
theorem clz (d : Reg) (a : Reg) : Statement (.clz d a) := of_word rfl (top_wordA ..)
theorem ctz (d : Reg) (a : Reg) : Statement (.ctz d a) := of_word rfl (top_wordA ..)
theorem popc (d : Reg) (a : Reg) : Statement (.popc d a) := of_word rfl (top_wordA ..)
theorem brev (d : Reg) (a : Reg) : Statement (.brev d a) := of_word rfl (top_wordA ..)
theorem bswap (d : Reg) (a : Reg) : Statement (.bswap d a) := of_word rfl (top_wordA ..)
theorem sext (d : Reg) (a : Reg) (b : Reg) : Statement (.sext d a b) := of_word rfl (top_wordA ..)
theorem zext (d : Reg) (a : Reg) (b : Reg) : Statement (.zext d a b) := of_word rfl (top_wordA ..)
theorem bfx (d : Reg) (a : Reg) (b : Reg) : Statement (.bfx d a b) := of_word rfl (top_wordA ..)
theorem bfi (d : Reg) (a : Reg) (b : Reg) : Statement (.bfi d a b) := of_word rfl (top_wordA ..)
theorem cmovz (d : Reg) (a : Reg) (b : Reg) : Statement (.cmovz d a b) := of_word rfl (top_wordA ..)
theorem cmovnz (d : Reg) (a : Reg) (b : Reg) : Statement (.cmovnz d a b) := of_word rfl (top_wordA ..)
theorem addw (d : Reg) (a : Reg) (b : Reg) : Statement (.addw d a b) := of_word rfl (top_wordA ..)
theorem subw (d : Reg) (a : Reg) (b : Reg) : Statement (.subw d a b) := of_word rfl (top_wordA ..)
theorem mulw (d : Reg) (a : Reg) (b : Reg) : Statement (.mulw d a b) := of_word rfl (top_wordA ..)
theorem shlw (d : Reg) (a : Reg) (b : Reg) : Statement (.shlw d a b) := of_word rfl (top_wordA ..)
theorem shrw (d : Reg) (a : Reg) (b : Reg) : Statement (.shrw d a b) := of_word rfl (top_wordA ..)
theorem sraw (d : Reg) (a : Reg) (b : Reg) : Statement (.sraw d a b) := of_word rfl (top_wordA ..)
theorem addi (d : Reg) (a : Reg) (i : BitVec 14) : Statement (.addi d a i) := of_word rfl (top_wordI14 ..)
theorem addwi (d : Reg) (a : Reg) (i : BitVec 14) : Statement (.addwi d a i) := of_word rfl (top_wordI14 ..)
theorem andi (d : Reg) (a : Reg) (i : BitVec 14) : Statement (.andi d a i) := of_word rfl (top_wordI14 ..)
theorem ori (d : Reg) (a : Reg) (i : BitVec 14) : Statement (.ori d a i) := of_word rfl (top_wordI14 ..)
theorem xori (d : Reg) (a : Reg) (i : BitVec 14) : Statement (.xori d a i) := of_word rfl (top_wordI14 ..)
theorem shli (d : Reg) (a : Reg) (i : BitVec 6) : Statement (.shli d a i) := of_word rfl (top_wordI14 ..)
theorem shri (d : Reg) (a : Reg) (i : BitVec 6) : Statement (.shri d a i) := of_word rfl (top_wordI14 ..)
theorem srai (d : Reg) (a : Reg) (i : BitVec 6) : Statement (.srai d a i) := of_word rfl (top_wordI14 ..)
theorem slti (d : Reg) (a : Reg) (i : BitVec 14) : Statement (.slti d a i) := of_word rfl (top_wordI14 ..)
theorem sltni (d : Reg) (a : Reg) (i : BitVec 14) : Statement (.sltni d a i) := of_word rfl (top_wordI14 ..)
theorem li (d : Reg) (i : BitVec 19) : Statement (.li d i) := of_word rfl (top_li ..)
theorem lix (k : XReg) (i : BitVec 21) : Statement (.lix k i) := of_word rfl (top_lix ..)
theorem xmov (d : XReg) (a : Reg) : Statement (.xmov d a) := of_word rfl (top_wordA ..)
theorem movgx (d : Reg) (a : XReg) : Statement (.movgx d a) := of_word rfl (top_wordA ..)
theorem xclr (d : XReg) : Statement (.xclr d) := of_word rfl (top_wordA ..)
theorem ldb (v : Reg) (b : Reg) (o : MemOrder) (i : BitVec 9) : Statement (.ldb v b o i) := of_word rfl (top_wordM ..)
theorem ldbz (v : Reg) (b : Reg) (o : MemOrder) (i : BitVec 9) : Statement (.ldbz v b o i) := of_word rfl (top_wordM ..)
theorem ldh (v : Reg) (b : Reg) (o : MemOrder) (i : BitVec 9) : Statement (.ldh v b o i) := of_word rfl (top_wordM ..)
theorem ldhz (v : Reg) (b : Reg) (o : MemOrder) (i : BitVec 9) : Statement (.ldhz v b o i) := of_word rfl (top_wordM ..)
theorem ldw (v : Reg) (b : Reg) (o : MemOrder) (i : BitVec 9) : Statement (.ldw v b o i) := of_word rfl (top_wordM ..)
theorem ldwz (v : Reg) (b : Reg) (o : MemOrder) (i : BitVec 9) : Statement (.ldwz v b o i) := of_word rfl (top_wordM ..)
theorem ldd (v : Reg) (b : Reg) (o : MemOrder) (i : BitVec 9) : Statement (.ldd v b o i) := of_word rfl (top_wordM ..)
theorem stb (v : Reg) (b : Reg) (o : MemOrder) (i : BitVec 9) : Statement (.stb v b o i) := of_word rfl (top_wordM ..)
theorem sth (v : Reg) (b : Reg) (o : MemOrder) (i : BitVec 9) : Statement (.sth v b o i) := of_word rfl (top_wordM ..)
theorem stw (v : Reg) (b : Reg) (o : MemOrder) (i : BitVec 9) : Statement (.stw v b o i) := of_word rfl (top_wordM ..)
theorem std (v : Reg) (b : Reg) (o : MemOrder) (i : BitVec 9) : Statement (.std v b o i) := of_word rfl (top_wordM ..)
theorem ldx (d : Reg) (a : Reg) (b : Reg) (k : LdKind) (o : MemOrder) : Statement (.ldx d a b k o) := of_word rfl (top_wordA ..)
theorem stx (d : Reg) (a : Reg) (b : Reg) (k : StKind) (o : MemOrder) : Statement (.stx d a b k o) := of_word rfl (top_wordA ..)
theorem aadd (d : Reg) (a : Reg) (b : Reg) (s : AtomSize) (o : AtomOrder) (c : Scope) : Statement (.aadd d a b s o c) := of_word rfl (top_wordA ..)
theorem aand (d : Reg) (a : Reg) (b : Reg) (s : AtomSize) (o : AtomOrder) (c : Scope) : Statement (.aand d a b s o c) := of_word rfl (top_wordA ..)
theorem aor (d : Reg) (a : Reg) (b : Reg) (s : AtomSize) (o : AtomOrder) (c : Scope) : Statement (.aor d a b s o c) := of_word rfl (top_wordA ..)
theorem axor (d : Reg) (a : Reg) (b : Reg) (s : AtomSize) (o : AtomOrder) (c : Scope) : Statement (.axor d a b s o c) := of_word rfl (top_wordA ..)
theorem amin (d : Reg) (a : Reg) (b : Reg) (s : AtomSize) (o : AtomOrder) (c : Scope) : Statement (.amin d a b s o c) := of_word rfl (top_wordA ..)
theorem amax (d : Reg) (a : Reg) (b : Reg) (s : AtomSize) (o : AtomOrder) (c : Scope) : Statement (.amax d a b s o c) := of_word rfl (top_wordA ..)
theorem aminn (d : Reg) (a : Reg) (b : Reg) (s : AtomSize) (o : AtomOrder) (c : Scope) : Statement (.aminn d a b s o c) := of_word rfl (top_wordA ..)
theorem amaxn (d : Reg) (a : Reg) (b : Reg) (s : AtomSize) (o : AtomOrder) (c : Scope) : Statement (.amaxn d a b s o c) := of_word rfl (top_wordA ..)
theorem aswap (d : Reg) (a : Reg) (b : Reg) (s : AtomSize) (o : AtomOrder) (c : Scope) : Statement (.aswap d a b s o c) := of_word rfl (top_wordA ..)
theorem cas (d : Reg) (a : Reg) (b : Reg) (s : AtomSize) (o : AtomOrder) (c : Scope) : Statement (.cas d a b s o c) := of_word rfl (top_wordA ..)
theorem fence (o : AtomOrder) (c : Scope) : Statement (.fence o c) := of_word rfl (top_wordA ..)
theorem fencei : Statement (.fencei) := of_word rfl (top_wordA ..)
theorem j (o : BitVec 24) : Statement (.j o) := of_word rfl (top_j ..)
theorem jl (o : BitVec 24) : Statement (.jl o) := of_word rfl (top_j ..)
theorem jr (a : Reg) : Statement (.jr a) := of_word rfl (top_wordA ..)
theorem jlr (a : Reg) : Statement (.jlr a) := of_word rfl (top_wordA ..)
theorem beq (a : Reg) (b : Reg) (o : BitVec 14) : Statement (.beq a b o) := of_word rfl (top_wordI14 ..)
theorem bne (a : Reg) (b : Reg) (o : BitVec 14) : Statement (.bne a b o) := of_word rfl (top_wordI14 ..)
theorem blt (a : Reg) (b : Reg) (o : BitVec 14) : Statement (.blt a b o) := of_word rfl (top_wordI14 ..)
theorem bge (a : Reg) (b : Reg) (o : BitVec 14) : Statement (.bge a b o) := of_word rfl (top_wordI14 ..)
theorem bltn (a : Reg) (b : Reg) (o : BitVec 14) : Statement (.bltn a b o) := of_word rfl (top_wordI14 ..)
theorem bgen (a : Reg) (b : Reg) (o : BitVec 14) : Statement (.bgen a b o) := of_word rfl (top_wordI14 ..)
theorem fadd (d : Reg) (a : Reg) (b : Reg) (f : FpFmt) (m : RoundMode) : Statement (.fadd d a b f m) := of_word rfl (top_wordA ..)
theorem fsub (d : Reg) (a : Reg) (b : Reg) (f : FpFmt) (m : RoundMode) : Statement (.fsub d a b f m) := of_word rfl (top_wordA ..)
theorem fmul (d : Reg) (a : Reg) (b : Reg) (f : FpFmt) (m : RoundMode) : Statement (.fmul d a b f m) := of_word rfl (top_wordA ..)
theorem fdiv (d : Reg) (a : Reg) (b : Reg) (f : FpFmt) (m : RoundMode) : Statement (.fdiv d a b f m) := of_word rfl (top_wordA ..)
theorem fsqrt (d : Reg) (a : Reg) (f : FpFmt) (m : RoundMode) : Statement (.fsqrt d a f m) := of_word rfl (top_wordA ..)
theorem fmad (d : Reg) (a : Reg) (b : Reg) (f : FpFmt) (m : RoundMode) : Statement (.fmad d a b f m) := of_word rfl (top_wordA ..)
theorem fnmad (d : Reg) (a : Reg) (b : Reg) (f : FpFmt) (m : RoundMode) : Statement (.fnmad d a b f m) := of_word rfl (top_wordA ..)
theorem fmin (d : Reg) (a : Reg) (b : Reg) (f : FpFmt) : Statement (.fmin d a b f) := of_word rfl (top_wordA ..)
theorem fmax (d : Reg) (a : Reg) (b : Reg) (f : FpFmt) : Statement (.fmax d a b f) := of_word rfl (top_wordA ..)
theorem fneg (d : Reg) (a : Reg) (f : FpFmt) : Statement (.fneg d a f) := of_word rfl (top_wordA ..)
theorem fabs (d : Reg) (a : Reg) (f : FpFmt) : Statement (.fabs d a f) := of_word rfl (top_wordA ..)
theorem fcpys (d : Reg) (a : Reg) (b : Reg) (f : FpFmt) : Statement (.fcpys d a b f) := of_word rfl (top_wordA ..)
theorem feq (d : Reg) (a : Reg) (b : Reg) (f : FpFmt) : Statement (.feq d a b f) := of_word rfl (top_wordA ..)
theorem flt (d : Reg) (a : Reg) (b : Reg) (f : FpFmt) : Statement (.flt d a b f) := of_word rfl (top_wordA ..)
theorem fle (d : Reg) (a : Reg) (b : Reg) (f : FpFmt) : Statement (.fle d a b f) := of_word rfl (top_wordA ..)
theorem fclass (d : Reg) (a : Reg) (f : FpFmt) : Statement (.fclass d a f) := of_word rfl (top_wordA ..)
theorem frnd (d : Reg) (a : Reg) (f : FpFmt) (m : RoundMode) : Statement (.frnd d a f m) := of_word rfl (top_wordA ..)
theorem fcvt (d : Reg) (a : Reg) (t : FpFmt) (s : FpFmt) (m : RoundMode) : Statement (.fcvt d a t s m) := of_word rfl (top_wordA ..)
theorem ftoi (d : Reg) (a : Reg) (s : FpFmt) (m : RoundMode) : Statement (.ftoi d a s m) := of_word rfl (top_wordA ..)
theorem fton (d : Reg) (a : Reg) (s : FpFmt) (m : RoundMode) : Statement (.fton d a s m) := of_word rfl (top_wordA ..)
theorem itof (d : Reg) (a : Reg) (t : FpFmt) (m : RoundMode) : Statement (.itof d a t m) := of_word rfl (top_wordA ..)
theorem ntof (d : Reg) (a : Reg) (t : FpFmt) (m : RoundMode) : Statement (.ntof d a t m) := of_word rfl (top_wordA ..)
theorem b8tof (d : Reg) (a : Reg) (t : FpFmt) : Statement (.b8tof d a t) := of_word rfl (top_wordA ..)
theorem ftob8 (d : Reg) (a : Reg) (s : FpFmt) : Statement (.ftob8 d a s) := of_word rfl (top_wordA ..)
theorem padd (d : Reg) (a : Reg) (b : Reg) (h : PkShape) : Statement (.padd d a b h) := of_word rfl (top_wordA ..)
theorem psub (d : Reg) (a : Reg) (b : Reg) (h : PkShape) : Statement (.psub d a b h) := of_word rfl (top_wordA ..)
theorem pmul (d : Reg) (a : Reg) (b : Reg) (h : PkShape) : Statement (.pmul d a b h) := of_word rfl (top_wordA ..)
theorem padds (d : Reg) (a : Reg) (b : Reg) (h : PkShape) : Statement (.padds d a b h) := of_word rfl (top_wordA ..)
theorem psubs (d : Reg) (a : Reg) (b : Reg) (h : PkShape) : Statement (.psubs d a b h) := of_word rfl (top_wordA ..)
theorem pmin (d : Reg) (a : Reg) (b : Reg) (h : PkShape) : Statement (.pmin d a b h) := of_word rfl (top_wordA ..)
theorem pmax (d : Reg) (a : Reg) (b : Reg) (h : PkShape) : Statement (.pmax d a b h) := of_word rfl (top_wordA ..)
theorem pminn (d : Reg) (a : Reg) (b : Reg) (h : PkShape) : Statement (.pminn d a b h) := of_word rfl (top_wordA ..)
theorem pmaxn (d : Reg) (a : Reg) (b : Reg) (h : PkShape) : Statement (.pmaxn d a b h) := of_word rfl (top_wordA ..)
theorem pceq (d : Reg) (a : Reg) (b : Reg) (h : PkShape) : Statement (.pceq d a b h) := of_word rfl (top_wordA ..)
theorem pcgt (d : Reg) (a : Reg) (b : Reg) (h : PkShape) : Statement (.pcgt d a b h) := of_word rfl (top_wordA ..)
theorem pshuf (d : Reg) (a : Reg) (b : Reg) (h : PkShape) : Statement (.pshuf d a b h) := of_word rfl (top_wordA ..)
theorem pdot (d : Reg) (a : Reg) (b : Reg) (h : PkShape) : Statement (.pdot d a b h) := of_word rfl (top_wordA ..)
theorem rngp (d : Reg) (a : Reg) (b : Reg) : Statement (.rngp d a b) := of_word rfl (top_wordA ..)
theorem rngf64 (d : Reg) (a : Reg) : Statement (.rngf64 d a) := of_word rfl (top_wordA ..)
theorem rngf32 (d : Reg) (a : Reg) : Statement (.rngf32 d a) := of_word rfl (top_wordA ..)
theorem rpinit (a : Reg) (b : Reg) : Statement (.rpinit a b) := of_word rfl (top_wordA ..)
theorem rparr (d : Reg) (a : Reg) (b : Reg) : Statement (.rparr d a b) := of_word rfl (top_wordA ..)
theorem rpexp (a : Reg) (b : Reg) : Statement (.rpexp a b) := of_word rfl (top_wordA ..)
theorem rpwait (d : Reg) (a : Reg) (b : Reg) : Statement (.rpwait d a b) := of_word rfl (top_wordA ..)
theorem rptest (d : Reg) (a : Reg) : Statement (.rptest d a) := of_word rfl (top_wordA ..)
theorem dcdec (a : Reg) : Statement (.dcdec a) := of_word rfl (top_wordA ..)
theorem fres (a : Reg) (b : Reg) : Statement (.fres a b) := of_word rfl (top_wordA ..)
theorem fpois (a : Reg) (b : Reg) : Statement (.fpois a b) := of_word rfl (top_wordA ..)
theorem fwait (d : Reg) (a : Reg) (b : Reg) : Statement (.fwait d a b) := of_word rfl (top_wordA ..)
theorem flink (a : Reg) (b : Reg) : Statement (.flink a b) := of_word rfl (top_wordA ..)
theorem ftest (d : Reg) (a : Reg) : Statement (.ftest d a) := of_word rfl (top_wordA ..)
theorem spawn (a : Reg) : Statement (.spawn a) := of_word rfl (top_wordA ..)
theorem spawnr (d : Reg) (a : Reg) (b : Reg) : Statement (.spawnr d a b) := of_word rfl (top_wordA ..)
theorem exit : Statement (.exit) := of_word rfl (top_wordA ..)
theorem yield : Statement (.yield) := of_word rfl (top_wordA ..)
theorem tkey (d : Reg) (a : Reg) (b : Reg) : Statement (.tkey d a b) := of_word rfl (top_wordA ..)
theorem rsset (d : Reg) (a : Reg) (b : Reg) : Statement (.rsset d a b) := of_word rfl (top_wordA ..)
theorem rsclr (a : Reg) (b : Reg) : Statement (.rsclr a b) := of_word rfl (top_wordA ..)
theorem rsqry (d : Reg) (a : Reg) : Statement (.rsqry d a) := of_word rfl (top_wordA ..)
theorem waitwp (d : Reg) (w : BitVec 4) (b : Reg) : Statement (.waitwp d w b) := of_word rfl (top_wordA ..)
theorem msnd (a : Reg) (b : Reg) : Statement (.msnd a b) := of_word rfl (top_wordA ..)
theorem mrcv (d : Reg) (b : Reg) : Statement (.mrcv d b) := of_word rfl (top_wordA ..)
theorem clid (d : Reg) : Statement (.clid d) := of_word rfl (top_wordA ..)
theorem serve (d : Reg) (a : Reg) (n : BitVec 3) (r : BitVec 3) (s : BitVec 8) : Statement (.serve d a n r s) := of_word rfl (top_serve ..)
theorem strm (a : Reg) (b : Reg) : Statement (.strm a b) := of_word rfl (top_wordA ..)
theorem strmr (a : Reg) : Statement (.strmr a) := of_word rfl (top_wordA ..)
theorem copy (a : Reg) : Statement (.copy a) := of_word rfl (top_wordA ..)
theorem copyp (a : Reg) : Statement (.copyp a) := of_word rfl (top_wordA ..)
theorem gather (a : Reg) : Statement (.gather a) := of_word rfl (top_wordA ..)
theorem umbra (d : Reg) (a : Reg) (b : Reg) : Statement (.umbra d a b) := of_word rfl (top_wordA ..)
theorem publish (a : Reg) (b : Reg) : Statement (.publish a b) := of_word rfl (top_wordA ..)
theorem rcopy (a : Reg) : Statement (.rcopy a) := of_word rfl (top_wordA ..)
theorem talloc (d : Reg) (a : Reg) : Statement (.talloc d a) := of_word rfl (top_wordA ..)
theorem tfree (a : Reg) : Statement (.tfree a) := of_word rfl (top_wordA ..)
theorem tshape (d : TileName) (a : Reg) : Statement (.tshape d a) := of_word rfl (top_wordA ..)
theorem tshget (d : Reg) (a : TileName) : Statement (.tshget d a) := of_word rfl (top_wordA ..)
theorem tld (d : TileName) (a : Reg) (b : Reg) : Statement (.tld d a b) := of_word rfl (top_wordA ..)
theorem tst (d : TileName) (a : Reg) (b : Reg) : Statement (.tst d a b) := of_word rfl (top_wordA ..)
theorem tzero (d : TileName) : Statement (.tzero d) := of_word rfl (top_wordA ..)
theorem tmma (d : TileName) (a : TileName) (b : TileName) : Statement (.tmma d a b) := of_word rfl (top_wordA ..)
theorem tadd (d : TileName) (a : TileName) (b : TileName) : Statement (.tadd d a b) := of_word rfl (top_wordA ..)
theorem tmul (d : TileName) (a : TileName) (b : TileName) : Statement (.tmul d a b) := of_word rfl (top_wordA ..)
theorem tmax (d : TileName) (a : TileName) (b : TileName) : Statement (.tmax d a b) := of_word rfl (top_wordA ..)
theorem trsum (d : TileName) (a : TileName) : Statement (.trsum d a) := of_word rfl (top_wordA ..)
theorem trmax (d : TileName) (a : TileName) : Statement (.trmax d a) := of_word rfl (top_wordA ..)
theorem texp2 (d : TileName) (a : TileName) : Statement (.texp2 d a) := of_word rfl (top_wordA ..)
theorem tscan (d : TileName) (a : TileName) (b : TileName) : Statement (.tscan d a b) := of_word rfl (top_wordA ..)
theorem tcvt (d : TileName) (a : TileName) (b : Reg) : Statement (.tcvt d a b) := of_word rfl (top_wordA ..)
theorem tgete (d : Reg) (a : TileName) (b : Reg) : Statement (.tgete d a b) := of_word rfl (top_wordA ..)
theorem tsete (d : TileName) (a : Reg) (b : Reg) : Statement (.tsete d a b) := of_word rfl (top_wordA ..)
theorem tchain (d : TileName) (a : Reg) : Statement (.tchain d a) := of_word rfl (top_wordA ..)
theorem tsync : Statement (.tsync) := of_word rfl (top_wordA ..)
theorem cfmt (d : SetName) (a : Reg) : Statement (.cfmt d a) := of_word rfl (top_wordA ..)
theorem cstep (d : SetName) (a : TileName) (b : TileName) : Statement (.cstep d a b) := of_word rfl (top_wordA ..)
theorem cmerge (d : SetName) : Statement (.cmerge d) := of_word rfl (top_wordA ..)
theorem cdrain (d : TileName) (a : SetName) (b : TileName) : Statement (.cdrain d a b) := of_word rfl (top_wordA ..)
theorem cclr (d : SetName) : Statement (.cclr d) := of_word rfl (top_wordA ..)
theorem cdepth (d : Reg) (a : SetName) : Statement (.cdepth d a) := of_word rfl (top_wordA ..)
theorem calloc (d : Reg) (a : Reg) : Statement (.calloc d a) := of_word rfl (top_wordA ..)
theorem cfree (a : Reg) : Statement (.cfree a) := of_word rfl (top_wordA ..)
theorem trap (c : BitVec 12) : Statement (.trap c) := of_word rfl (top_wordA ..)
theorem sysc (d : Reg) (a : Reg) (b : Reg) : Statement (.sysc d a b) := of_word rfl (top_wordA ..)
theorem eret : Statement (.eret) := of_word rfl (top_wordA ..)
theorem mfs (d : Reg) (n : BitVec 10) : Statement (.mfs d n) := of_word rfl (top_wordA ..)
theorem mts (s : Reg) (n : BitVec 10) : Statement (.mts s n) := of_word rfl (top_wordA ..)
theorem cyc (d : Reg) : Statement (.cyc d) := of_word rfl (top_wordA ..)
theorem perf (d : Reg) (a : Reg) : Statement (.perf d a) := of_word rfl (top_wordA ..)
theorem cinv (a : Reg) (b : Reg) : Statement (.cinv a b) := of_word rfl (top_wordA ..)
theorem tlbinv (a : Reg) (b : Reg) : Statement (.tlbinv a b) := of_word rfl (top_wordA ..)
theorem brk : Statement (.brk) := of_word rfl (top_wordA ..)
theorem nop : Statement (.nop) := of_word rfl (top_wordA ..)
theorem wake (d : Reg) (a : Reg) (b : Reg) : Statement (.wake d a b) := of_word rfl (top_wordA ..)
theorem halt : Statement (.halt) := of_word rfl (top_wordA ..)
theorem udf (x : BitVec 10) : Statement (.udf x) := of_half rfl (by rw [top_udf]; decide)
theorem mov16 (d : Reg4) (s : Reg4) : Statement (.mov16 d s) := of_half rfl (by rw [top_half0]; decide)
theorem add16 (d : Reg4) (s : Reg4) : Statement (.add16 d s) := of_half rfl (by rw [top_half0]; decide)
theorem sub16 (d : Reg4) (s : Reg4) : Statement (.sub16 d s) := of_half rfl (by rw [top_half0]; decide)
theorem and16 (d : Reg4) (s : Reg4) : Statement (.and16 d s) := of_half rfl (by rw [top_half0]; decide)
theorem or16 (d : Reg4) (s : Reg4) : Statement (.or16 d s) := of_half rfl (by rw [top_half0]; decide)
theorem xor16 (d : Reg4) (s : Reg4) : Statement (.xor16 d s) := of_half rfl (by rw [top_half0]; decide)
theorem shl16 (d : Reg4) (s : Reg4) : Statement (.shl16 d s) := of_half rfl (by rw [top_half0]; decide)
theorem shr16 (d : Reg4) (s : Reg4) : Statement (.shr16 d s) := of_half rfl (by rw [top_half0]; decide)
theorem sra16 (d : Reg4) (s : Reg4) : Statement (.sra16 d s) := of_half rfl (by rw [top_half0]; decide)
theorem ldd16 (d : Reg4) (s : Reg4) : Statement (.ldd16 d s) := of_half rfl (by rw [top_half0]; decide)
theorem std16 (d : Reg4) (s : Reg4) : Statement (.std16 d s) := of_half rfl (by rw [top_half0]; decide)
theorem ldw16 (d : Reg4) (s : Reg4) : Statement (.ldw16 d s) := of_half rfl (by rw [top_half0]; decide)
theorem stw16 (d : Reg4) (s : Reg4) : Statement (.stw16 d s) := of_half rfl (by rw [top_half0]; decide)
theorem jr16 (s : Reg4) : Statement (.jr16 s) := of_half rfl (by rw [top_half0]; decide)
theorem jlr16 (s : Reg4) : Statement (.jlr16 s) := of_half rfl (by rw [top_half0]; decide)
theorem nop16 : Statement (.nop16) := of_half rfl (by rw [top_half0]; decide)
theorem ret16 : Statement (.ret16) := of_half rfl (by rw [top_half0]; decide)
theorem exit16 : Statement (.exit16) := of_half rfl (by rw [top_half0]; decide)
theorem yield16 : Statement (.yield16) := of_half rfl (by rw [top_half0]; decide)
theorem addi16 (d : Reg4) (i : BitVec 7) : Statement (.addi16 d i) := of_half rfl (by rw [top_half1]; decide)
theorem li16 (d : Reg4) (i : BitVec 7) : Statement (.li16 d i) := of_half rfl (by rw [top_half1]; decide)
theorem shli16 (d : Reg4) (i : BitVec 6) : Statement (.shli16 d i) := of_half rfl (by rw [top_half1]; decide)
theorem shri16 (d : Reg4) (i : BitVec 6) : Statement (.shri16 d i) := of_half rfl (by rw [top_half1]; decide)
theorem ldsp (d : Reg4) (i : BitVec 7) : Statement (.ldsp d i) := of_half rfl (by rw [top_half1]; decide)
theorem stsp (d : Reg4) (i : BitVec 7) : Statement (.stsp d i) := of_half rfl (by rw [top_half1]; decide)
theorem beqz (d : Reg4) (i : BitVec 7) : Statement (.beqz d i) := of_half rfl (by rw [top_half1]; decide)
theorem bnez (d : Reg4) (i : BitVec 7) : Statement (.bnez d i) := of_half rfl (by rw [top_half1]; decide)
theorem j16 (i : BitVec 12) : Statement (.j16 i) := of_half rfl (by rw [top_half2]; decide)
theorem jl16 (i : BitVec 12) : Statement (.jl16 i) := of_half rfl (by rw [top_half2]; decide)
theorem trap16 (i : BitVec 12) : Statement (.trap16 i) := of_half rfl (by rw [top_half2]; decide)
theorem illegalEncoding (cause : BitVec 8) (w : BitVec 32) : Statement (.illegalEncoding cause w) := of_none rfl
theorem instructionFetchFault : Statement (.instructionFetchFault) := of_none rfl
theorem taskForwardArrive (die : Nat) : Statement (.taskForwardArrive die) := of_none rfl
theorem taskDispatch (cl : Nat) : Statement (.taskDispatch cl) := of_none rfl
theorem rangeInstancePlace (p : Nat) (die : Nat) : Statement (.rangeInstancePlace p die) := of_none rfl
theorem rangeSteal (p : Nat) (die : Nat) : Statement (.rangeSteal p die) := of_none rfl
theorem taskAging (cl : Nat) : Statement (.taskAging cl) := of_none rfl
theorem checkpointTake (t : Tid) : Statement (.checkpointTake t) := of_none rfl
theorem summitHolderDispatch (p : Nat) (c : Nat) : Statement (.summitHolderDispatch p c) := of_none rfl
theorem summitReport (die : Nat) (p : Nat) (c : Nat) : Statement (.summitReport die p c) := of_none rfl
theorem commit (p : Nat) (c : Nat) : Statement (.commit p c) := of_none rfl
theorem irrevocableCommit (p : Nat) (c : Nat) : Statement (.irrevocableCommit p c) := of_none rfl
theorem tileRequestGrant (cl : Nat) : Statement (.tileRequestGrant cl) := of_none rfl
theorem tileQueueExecute (u : Nat) : Statement (.tileQueueExecute u) := of_none rfl
theorem tchainMessageArrive (cl : Nat) : Statement (.tchainMessageArrive cl) := of_none rfl
theorem directoryUpdate (die : Nat) : Statement (.directoryUpdate die) := of_none rfl
theorem memoryAccessRetire (t : Tid) : Statement (.memoryAccessRetire t) := of_none rfl
theorem rdcInvalidate (die : Nat) : Statement (.rdcInvalidate die) := of_none rfl
theorem walkComplete (n : Nat) : Statement (.walkComplete n) := of_none rfl
theorem engineLineDeliver (r : Nat) : Statement (.engineLineDeliver r) := of_none rfl
theorem engineComplete (r : Nat) : Statement (.engineComplete r) := of_none rfl
theorem publishFlip (p : Nat) (u : Nat) : Statement (.publishFlip p u) := of_none rfl
theorem imageFetchDone (cl : Nat) (f : Nat) : Statement (.imageFetchDone cl f) := of_none rfl
theorem imageLoadDone (cl : Nat) (f : Nat) : Statement (.imageLoadDone cl f) := of_none rfl
theorem packetEntry (cl : Nat) (f : Nat) : Statement (.packetEntry cl f) := of_none rfl
theorem elementFire (cl : Nat) (f : Nat) (e : Nat) : Statement (.elementFire cl f e) := of_none rfl
theorem ageAccessComplete (cl : Nat) (f : Nat) (e : Nat) : Statement (.ageAccessComplete cl f e) := of_none rfl
theorem delayEmit (cl : Nat) (f : Nat) (e : Nat) : Statement (.delayEmit cl f e) := of_none rfl
theorem streamEngineEmit (cl : Nat) (f : Nat) (e : Nat) : Statement (.streamEngineEmit cl f e) := of_none rfl
theorem serveResultsReturn (cl : Nat) (f : Nat) : Statement (.serveResultsReturn cl f) := of_none rfl
theorem streamComplete (cl : Nat) (f : Nat) : Statement (.streamComplete cl f) := of_none rfl
theorem streamFatalStop (cl : Nat) (f : Nat) : Statement (.streamFatalStop cl f) := of_none rfl
theorem fabricRelease (cl : Nat) (f : Nat) : Statement (.fabricRelease cl f) := of_none rfl
theorem rateWindow : Statement (.rateWindow) := of_none rfl
theorem belayGrant (die : Nat) : Statement (.belayGrant die) := of_none rfl
theorem belayStretchLimit (die : Nat) : Statement (.belayStretchLimit die) := of_none rfl
theorem tailDoorbell (p : Nat) (q : Nat) (v : Word) : Statement (.tailDoorbell p q v) := of_none rfl
theorem svcheadWrite (p : Nat) (v : Word) : Statement (.svcheadWrite p v) := of_none rfl
theorem eventHandoff (core : Nat) : Statement (.eventHandoff core) := of_none rfl
theorem pad (p : Nat) (q : Nat) : Statement (.pad p q) := of_none rfl
theorem nopPacket (p : Nat) (q : Nat) : Statement (.nopPacket p q) := of_none rfl
theorem launch (p : Nat) (q : Nat) : Statement (.launch p q) := of_none rfl
theorem signalResolve (p : Nat) (q : Nat) : Statement (.signalResolve p q) := of_none rfl
theorem signalRopeBytes (p : Nat) (q : Nat) : Statement (.signalRopeBytes p q) := of_none rfl
theorem signalBadKind (p : Nat) (q : Nat) : Statement (.signalBadKind p q) := of_none rfl
theorem waitf (p : Nat) (q : Nat) : Statement (.waitf p q) := of_none rfl
theorem waitfResolved (p : Nat) (q : Nat) : Statement (.waitfResolved p q) := of_none rfl
theorem reply (p : Nat) (q : Nat) : Statement (.reply p q) := of_none rfl
theorem queueSwitchOut (p : Nat) (q : Nat) : Statement (.queueSwitchOut p q) := of_none rfl
theorem queueSwitchIn (p : Nat) (q : Nat) : Statement (.queueSwitchIn p q) := of_none rfl
theorem watchdogExpire (core : Nat) : Statement (.watchdogExpire core) := of_none rfl
theorem watchdogRecovery (core : Nat) : Statement (.watchdogRecovery core) := of_none rfl
theorem hostCxlMemAccess (write : Bool) (pa : Nat) (size : Nat) (v : Word) : Statement (.hostCxlMemAccess write pa size v) := of_none rfl
theorem atsPageResponse (t : Tid) (kind : BitVec 2) : Statement (.atsPageResponse t kind) := of_none rfl
theorem pdescWrite (p : Nat) (v : Word) : Statement (.pdescWrite p v) := of_none rfl
theorem pshareWrite (p : Nat) (v : Word) : Statement (.pshareWrite p v) := of_none rfl
theorem umbpoolWrite (p : Nat) (v : Word) : Statement (.umbpoolWrite p v) := of_none rfl
theorem sdctlShootdown (p : Nat) (v : Word) : Statement (.sdctlShootdown p v) := of_none rfl
theorem shootdownReceive (p : Nat) (cl : Nat) : Statement (.shootdownReceive p cl) := of_none rfl
theorem s2Install (p : Nat) (v : Word) : Statement (.s2Install p v) := of_none rfl
theorem s2Free (p : Nat) (v : Word) : Statement (.s2Free p v) := of_none rfl
theorem s2Protect (p : Nat) (v : Word) : Statement (.s2Protect p v) := of_none rfl
theorem s2cmdUnassigned (p : Nat) (v : Word) : Statement (.s2cmdUnassigned p v) := of_none rfl
theorem frameScrubDone (p : Nat) : Statement (.frameScrubDone p) := of_none rfl
theorem protectWritebackDone (p : Nat) : Statement (.protectWritebackDone p) := of_none rfl
theorem s2wakeWrite (p : Nat) (v : Word) : Statement (.s2wakeWrite p v) := of_none rfl
theorem ctxcmdSliceEnd (p : Nat) (v : Word) : Statement (.ctxcmdSliceEnd p v) := of_none rfl
theorem terminatorTokenArrive (p : Nat) (l : Nat) : Statement (.terminatorTokenArrive p l) := of_none rfl
theorem ctxcmdStop (p : Nat) (v : Word) : Statement (.ctxcmdStop p v) := of_none rfl
theorem ctxcmdFabricDrain (p : Nat) (v : Word) : Statement (.ctxcmdFabricDrain p v) := of_none rfl
theorem ctxcmdDirtyReport (p : Nat) (v : Word) : Statement (.ctxcmdDirtyReport p v) := of_none rfl
theorem ctxcmdIgnored (p : Nat) (v : Word) : Statement (.ctxcmdIgnored p v) := of_none rfl
theorem fabricHangReport (cl : Nat) (f : Nat) : Statement (.fabricHangReport cl f) := of_none rfl
theorem functionLevelReset (p : Nat) : Statement (.functionLevelReset p) := of_none rfl
theorem pcapWrite (v : Word) : Statement (.pcapWrite v) := of_none rfl
theorem watchSample : Statement (.watchSample) := of_none rfl
theorem patrolScrub (w : ScrubWord) (found : ScrubFinding) : Statement (.patrolScrub w found) := of_none rfl
theorem datapathErrorLate (cl : Nat) : Statement (.datapathErrorLate cl) := of_none rfl
theorem deviceResetBoot (image : BootImage) : Statement (.deviceResetBoot image) := of_none rfl
theorem registerWrite (sp : RegSpace) (off : Nat) (v : Word) : Statement (.registerWrite sp off v) := of_none rfl
theorem queueRearm (p : Nat) (q : Nat) : Statement (.queueRearm p q) := of_none rfl
theorem cxlLinkTraining (width : LinkWidth) (rate : LinkRate) : Statement (.cxlLinkTraining width rate) := of_none rfl
theorem flitCrcReplay (link : FlitLink) : Statement (.flitCrcReplay link) := of_none rfl
theorem spdmRequest (nonce : Word) : Statement (.spdmRequest nonce) := of_none rfl
theorem recoveryImageWrite (image : BootImage) : Statement (.recoveryImageWrite image) := of_none rfl
theorem vfResetComplete (p : Nat) : Statement (.vfResetComplete p) := of_none rfl
theorem rcopyRemoteArrival (p : Nat) (rdst : Word) (data : PeerData) (last : Bool) (rtgt : Word) (pub : Bool) (len : Word) : Statement (.rcopyRemoteArrival p rdst data last rtgt pub len) := of_none rfl

end Sys2Proof.Laws.Length
end

