-- ==== Sys2Proof/Tests/Slice0.lean ====
section
/-! SUPPORT. Tests: the well-formedness smoke, the decoding of words written out in the spec, and one step of each family on values worked in the spec. -/

namespace Sys2Proof.Tests

open Sys2Proof Sys2Proof.Machine

/-! ### Well-formedness: an ill-formed term for each check -/

theorem test_wf_operands : [Instr.fence .rlx .cl, .fcvt 3 4 .f32 .f32 .rne, .fcvt 3 4 .f64 .f32 .ru, .serve 30 4 0 2 7, .serve 3 31 1 0 7,
    .mfs 5 8, .mts 5 0x41, .illegalEncoding 0 0, .illegalEncoding 6 0].all (fun i => !i.wf) = true := by decide

theorem test_wf_tasks : [Instr.taskForwardArrive 4, .taskDispatch 512, .rangeInstancePlace 64 0, .rangeInstancePlace 0 4, .rangeSteal 64 0, .rangeSteal 0 4,
    .taskAging 512, .checkpointTake ⟨.barrel, 512, 0⟩, .checkpointTake ⟨.barrel, 0, 128⟩, .checkpointTake ⟨.memory, 0, 4⟩,
    .checkpointTake ⟨.command, 12, 0⟩, .checkpointTake ⟨.command, 0, 1⟩, .summitHolderDispatch 64 0, .summitHolderDispatch 0 8,
    .summitReport 4 0 0, .summitReport 0 64 0, .summitReport 0 0 8, .commit 64 0, .commit 0 8, .irrevocableCommit 64 0, .irrevocableCommit 0 8,
    .tileRequestGrant 512, .tchainMessageArrive 512, .directoryUpdate 4].all (fun i => !i.wf) = true := by decide

theorem test_wf_units : [Instr.memoryAccessRetire ⟨.memory, 512, 0⟩, .rdcInvalidate 4, .publishFlip 64 0, .imageFetchDone 512 0, .imageFetchDone 0 4,
    .imageLoadDone 512 0, .imageLoadDone 0 4, .packetEntry 512 0, .packetEntry 0 4, .elementFire 512 0 0, .elementFire 0 4 0, .elementFire 0 0 88,
    .ageAccessComplete 0 0 88, .delayEmit 0 4 0, .streamEngineEmit 512 0 0, .serveResultsReturn 0 4, .streamComplete 512 0, .streamFatalStop 0 4,
    .fabricRelease 512 0, .belayGrant 4, .belayStretchLimit 4, .fabricHangReport 0 4, .datapathErrorLate 512,
    .flitCrcReplay (.bridge 3), .flitCrcReplay (.shuig 16), .flitCrcReplay (.mesh 4)].all (fun i => !i.wf) = true := by decide

theorem test_wf_host : [Instr.tailDoorbell 64 0 0, .tailDoorbell 0 16 0, .svcheadWrite 64 0, .eventHandoff 12, .pad 64 0, .pad 0 16, .nopPacket 0 16, .launch 64 0,
    .signalResolve 0 16, .signalRopeBytes 64 0, .signalBadKind 0 16, .waitf 64 0, .waitfResolved 0 16, .reply 64 0, .queueSwitchOut 0 16,
    .queueSwitchIn 64 0, .queueRearm 0 16, .watchdogExpire 12, .watchdogRecovery 12, .hostCxlMemAccess false 0 0 0, .hostCxlMemAccess false 0 65 0,
    .hostCxlMemAccess true 63 2 0, .atsPageResponse ⟨.barrel, 512, 0⟩ 0, .atsPageResponse ⟨.barrel, 0, 0⟩ 3,
    .rcopyRemoteArrival 64 0 ⟨[], []⟩ true 0 false 0].all (fun i => !i.wf) = true := by decide

theorem test_wf_partitions : [Instr.pdescWrite 64 0, .pshareWrite 64 0, .umbpoolWrite 64 0, .sdctlShootdown 64 0, .shootdownReceive 64 0, .shootdownReceive 0 512,
    .s2Install 64 0, .s2Free 64 0, .s2Protect 64 0, .s2cmdUnassigned 64 0, .frameScrubDone 64, .protectWritebackDone 64, .s2wakeWrite 64 0,
    .ctxcmdSliceEnd 64 0, .terminatorTokenArrive 64 0, .terminatorTokenArrive 0 512, .ctxcmdStop 64 0, .ctxcmdFabricDrain 64 0,
    .ctxcmdDirtyReport 64 0, .ctxcmdIgnored 64 0, .functionLevelReset 64, .vfResetComplete 64, .registerWrite (.vf 64) 0 0].all (fun i => !i.wf) = true := by
  decide

theorem test_wf_boundaries : [Instr.serve 24 24 7 7 0, .mfs 5 0x40, .checkpointTake ⟨.barrel, 511, 127⟩, .checkpointTake ⟨.memory, 511, 3⟩,
    .checkpointTake ⟨.command, 11, 0⟩, .hostCxlMemAccess true 0 64 0, .elementFire 511 3 87, .tailDoorbell 63 15 0].all (fun i => i.wf) = true := by decide

/-! ### Decoding: words from the spec's encodings, bit by bit where its tables group them -/

/-- 05 R116. -/
theorem test_decode_int :
    decode32 (0b11#2 ++ 0b000000#6 ++ 0b00101#5 ++ 0b00110#5 ++ 0b00111#5 ++ 0b000000011#9) = .ok (.mulh 5 6 7) ∧
    decode32 (0b11#2 ++ 0b000000#6 ++ 0b00011#5 ++ 0b00100#5 ++ 0b00101#5 ++ 0b000100010#9) = .ok (.bfx 3 4 5) ∧
    decode32 0xC0190A00 = .ok (.add 3 4 5) :=
  ⟨rfl, rfl, rfl⟩

/-- 03 R84; 05 R118. -/
theorem test_decode_immediate :
    decode32 (0b11#2 ++ 0b000001#6 ++ 0b00101#5 ++ 0b00110#5 ++ 0b00001111101000#14) = .ok (.addi 5 6 1000) ∧
    decode32 (0b11#2 ++ 0b001000#6 ++ 0b00011#5 ++ 0b00100#5 ++ 0b00000000000101#14) = .ok (.srai 3 4 5) ∧
    decode32 (0b11#2 ++ 0b001011#6 ++ 0b01100#5 ++ 0b0010010001101000101#19) = .ok (.li 12 0x12345) ∧
    decode32 (0b11#2 ++ 0b001100#6 ++ 0b011#3 ++ 0b000100000000000000000#21) = .ok (.lix 3 0x20000) :=
  ⟨rfl, rfl, rfl, rfl⟩

/-- 05 R120. -/
theorem test_decode_xop :
    decode32 (0b11#2 ++ 0b001101#6 ++ 0b00011#5 ++ 0b00000#5 ++ 0b00000#5 ++ 0b000000010#9) = .ok (.xclr 3) ∧
    decode32 (0b11#2 ++ 0b001101#6 ++ 0b00101#5 ++ 0b00011#5 ++ 0b00000#5 ++ 0b000000001#9) = .ok (.movgx 5 3) ∧
    decode32 (0b11#2 ++ 0b001101#6 ++ 0b00111#5 ++ 0b00111#5 ++ 0b00000#5 ++ 0b000000000#9) = .ok (.xmov 7 7) :=
  ⟨rfl, rfl, rfl⟩

/-- 03 R86; 05 R121. -/
theorem test_decode_memory :
    decode32 (0b11#2 ++ 0b010000#6 ++ 0b00111#5 ++ 0b00110#5 ++ 0b110#3 ++ 0b01#2 ++ 0b000000010#9) = .ok (.ldd 7 6 .acqRel 2) ∧
    decode32 (0b11#2 ++ 0b010001#6 ++ 0b01001#5 ++ 0b00100#5 ++ 0b100#3 ++ 0b01#2 ++ 0b111111111#9) = .ok (.stw 9 4 .acqRel (-1)) ∧
    decode32 (0b11#2 ++ 0b010010#6 ++ 0b00101#5 ++ 0b00110#5 ++ 0b00111#5 ++ 0b000#3 ++ 0b100#3 ++ 0b01#2 ++ 0b0#1) = .ok (.ldx 5 6 7 .w .acqRel) ∧
    decode32 (0b11#2 ++ 0b010000#6 ++ 0b00011#5 ++ 0b00100#5 ++ 0b000#3 ++ 0b00#2 ++ 0b111111111#9) = .ok (.ldb 3 4 .plain (-1)) ∧
    decode32 (0b11#2 ++ 0b010001#6 ++ 0b00111#5 ++ 0b00110#5 ++ 0b110#3 ++ 0b10#2 ++ 0b000000001#9) = .ok (.std 7 6 .direct 1) ∧
    decode32 (0b11#2 ++ 0b010010#6 ++ 0b01001#5 ++ 0b00100#5 ++ 0b00101#5 ++ 0b001#3 ++ 0b100#3 ++ 0b01#2 ++ 0b0#1) = .ok (.stx 9 4 5 .w .acqRel) :=
  ⟨rfl, rfl, rfl, rfl, rfl, rfl⟩

/-- 07 R157. -/
theorem test_decode_atomics :
    decode32 (0b11#2 ++ 0b010011#6 ++ 0b00011#5 ++ 0b00100#5 ++ 0b00101#5 ++ 0b0000#4 ++ 0b0#1 ++ 0b00#2 ++ 0b00#2) = .ok (.aadd 3 4 5 .w .rlx .cl) ∧
    decode32 (0b11#2 ++ 0b010011#6 ++ 0b01000#5 ++ 0b01001#5 ++ 0b01010#5 ++ 0b0101#4 ++ 0b1#1 ++ 0b01#2 ++ 0b01#2) = .ok (.amax 8 9 10 .d .acq .die) ∧
    decode32 (0b11#2 ++ 0b010011#6 ++ 0b00011#5 ++ 0b00100#5 ++ 0b00101#5 ++ 0b1000#4 ++ 0b1#1 ++ 0b10#2 ++ 0b11#2) = .ok (.aswap 3 4 5 .d .rel .sys) ∧
    decode32 (0b11#2 ++ 0b010011#6 ++ 0b00101#5 ++ 0b00110#5 ++ 0b00111#5 ++ 0b1001#4 ++ 0b1#1 ++ 0b11#2 ++ 0b10#2) = .ok (.cas 5 6 7 .d .ar .prt) :=
  ⟨rfl, rfl, rfl, rfl⟩

/-- 05 R132 to R134. -/
theorem test_decode_control :
    decode32 (0b11#2 ++ 0b011101#6 ++ 0b00011#5 ++ 0b00100#5 ++ 0b11111111111010#14) = .ok (.blt 3 4 (-6)) ∧
    decode32 (0b11#2 ++ 0b100000#6 ++ 0b00011#5 ++ 0b00100#5 ++ 0b00000000001010#14) = .ok (.bgen 3 4 10) ∧
    decode32 (0b11#2 ++ 0b011000#6 ++ 0b000000000001000000000000#24) = .ok (.j 4096) ∧
    decode32 0xD9FFFF9C = .ok (.jl (-100)) ∧
    decode32 (0b11#2 ++ 0b011010#6 ++ 0b00000#5 ++ 0b01001#5 ++ 0b00000#5 ++ 0b000000001#9) = .ok (.jlr 9) :=
  ⟨rfl, rfl, rfl, rfl, rfl⟩

/-- 06 R139. -/
theorem test_decode_fp :
    decode32 (0b11#2 ++ 0b100100#6 ++ 0b00011#5 ++ 0b00100#5 ++ 0b00101#5 ++ 0b000000000#9) = .ok (.fadd 3 4 5 .f64 .rne) ∧
    decode32 (0b11#2 ++ 0b100100#6 ++ 0b01000#5 ++ 0b01001#5 ++ 0b01010#5 ++ 0b000110111#9) = .ok (.fdiv 8 9 10 .f32 .ru) ∧
    decode32 (0b11#2 ++ 0b100100#6 ++ 0b00011#5 ++ 0b00100#5 ++ 0b00000#5 ++ 0b001000000#9) = .ok (.fsqrt 3 4 .f64 .rne) ∧
    decode32 (0b11#2 ++ 0b100100#6 ++ 0b00101#5 ++ 0b00110#5 ++ 0b00000#5 ++ 0b011110100#9) = .ok (.fclass 5 6 .f32) ∧
    decode32 (0b11#2 ++ 0b100100#6 ++ 0b00011#5 ++ 0b00100#5 ++ 0b00000#5 ++ 0b100000010#9) = .ok (.frnd 3 4 .f64 .rd) :=
  ⟨rfl, rfl, rfl, rfl, rfl⟩

/-- 06 R144. -/
theorem test_decode_fcvt :
    decode32 (0b11#2 ++ 0b100101#6 ++ 0b00101#5 ++ 0b00110#5 ++ 0b00000#5 ++ 0b000010000#9) = .ok (.fcvt 5 6 .f32 .f64 .rne) ∧
    decode32 (0b11#2 ++ 0b100101#6 ++ 0b00101#5 ++ 0b00110#5 ++ 0b00000#5 ++ 0b001000001#9) = .ok (.ftoi 5 6 .f64 .rz) ∧
    decode32 (0b11#2 ++ 0b100101#6 ++ 0b00101#5 ++ 0b00011#5 ++ 0b00000#5 ++ 0b101010000#9) = .ok (.b8tof 5 3 .f32) ∧
    decode32 (0b11#2 ++ 0b100101#6 ++ 0b01000#5 ++ 0b00110#5 ++ 0b00000#5 ++ 0b110000100#9) = .ok (.ftob8 8 6 .f32) :=
  ⟨rfl, rfl, rfl, rfl⟩

/-- 06 R149, R150. -/
theorem test_decode_packed :
    decode32 (0b11#2 ++ 0b101000#6 ++ 0b00011#5 ++ 0b00100#5 ++ 0b00101#5 ++ 0b000110100#9) = .ok (.padds 3 4 5 .h4) ∧
    decode32 (0b11#2 ++ 0b101000#6 ++ 0b00110#5 ++ 0b00111#5 ++ 0b01000#5 ++ 0b011000000#9) = .ok (.pdot 6 7 8 .b8) ∧
    decode32 (0b11#2 ++ 0b101001#6 ++ 0b00101#5 ++ 0b00110#5 ++ 0b00111#5 ++ 0b000000000#9) = .ok (.rngp 5 6 7) ∧
    decode32 (0b11#2 ++ 0b101001#6 ++ 0b01000#5 ++ 0b00101#5 ++ 0b00000#5 ++ 0b000000001#9) = .ok (.rngf64 8 5) ∧
    decode32 (0b11#2 ++ 0b101001#6 ++ 0b00110#5 ++ 0b00101#5 ++ 0b00000#5 ++ 0b000000010#9) = .ok (.rngf32 6 5) :=
  ⟨rfl, rfl, rfl, rfl, rfl⟩

/-- 07 R152, R169 to R188. -/
theorem test_decode_sync_task :
    decode32 (0b11#2 ++ 0b101100#6 ++ 0b01000#5 ++ 0b00100#5 ++ 0b00110#5 ++ 0b000000011#9) = .ok (.rpwait 8 4 6) ∧
    decode32 (0b11#2 ++ 0b101101#6 ++ 0b00101#5 ++ 0b00011#5 ++ 0b00110#5 ++ 0b000001000#9) = .ok (.waitwp 5 3 6) ∧
    decode32 0xED394C01 = .ok (.spawnr 7 5 6) ∧
    decode32 0xED000002 = .ok (.exit) ∧
    decode32 0xED000003 = .ok (.yield) ∧
    decode32 0xED298E04 = .ok (.tkey 5 6 7) ∧
    decode32 0xED298E05 = .ok (.rsset 5 6 7) ∧
    decode32 0xED018E06 = .ok (.rsclr 6 7) ∧
    decode32 0xED298007 = .ok (.rsqry 5 6) ∧
    decode32 0xED018E09 = .ok (.msnd 6 7) ∧
    decode32 0xED280C0A = .ok (.mrcv 5 6) ∧
    decode32 0xED28000B = .ok (.clid 5) :=
  ⟨rfl, rfl, rfl, rfl, rfl, rfl, rfl, rfl, rfl, rfl, rfl, rfl⟩

/-- 08 R189, R197. -/
theorem test_decode_engines :
    decode32 (0b11#2 ++ 0b110000#6 ++ 0b01010#5 ++ 0b00100#5 ++ 0b000#3 ++ 0b000#3 ++ 0b00000111#8) = .ok (.serve 10 4 0 0 7) ∧
    decode32 (0b11#2 ++ 0b110000#6 ++ 0b01010#5 ++ 0b00100#5 ++ 0b010#3 ++ 0b001#3 ++ 0b00001001#8) = .ok (.serve 10 4 2 1 9) ∧
    decode32 (0b11#2 ++ 0b110001#6 ++ 0b00000#5 ++ 0b00101#5 ++ 0b00110#5 ++ 0b000000000#9) = .ok (.strm 5 6) ∧
    decode32 0xF1014001 = .ok (.strmr 5) ∧
    decode32 0xF1014002 = .ok (.copy 5) ∧
    decode32 0xF1014003 = .ok (.copyp 5) ∧
    decode32 0xF1014004 = .ok (.gather 5) ∧
    decode32 (0b11#2 ++ 0b110001#6 ++ 0b00011#5 ++ 0b00101#5 ++ 0b00110#5 ++ 0b000000101#9) = .ok (.umbra 3 5 6) ∧
    decode32 0xF100C006 = .ok (.publish 3 0) ∧
    decode32 0xF1014007 = .ok (.rcopy 5) :=
  ⟨rfl, rfl, rfl, rfl, rfl, rfl, rfl, rfl, rfl, rfl⟩

/-- 09 R217 to R242. -/
theorem test_decode_tiles :
    decode32 0xF4298000 = .ok (.talloc 5 6) ∧
    decode32 0xF4018001 = .ok (.tfree 6) ∧
    decode32 0xF419C002 = .ok (.tshape 3 7) ∧
    decode32 0xF428C003 = .ok (.tshget 5 3) ∧
    decode32 0xF4010A04 = .ok (.tld 0 4 5) ∧
    decode32 0xF4110A05 = .ok (.tst 2 4 5) ∧
    decode32 0xF4100006 = .ok (.tzero 2) ∧
    decode32 (0b11#2 ++ 0b110100#6 ++ 0b00010#5 ++ 0b00000#5 ++ 0b00001#5 ++ 0b000000111#9) = .ok (.tmma 2 0 1) ∧
    decode32 0xF4214C08 = .ok (.tadd 4 5 6) ∧
    decode32 0xF4214C09 = .ok (.tmul 4 5 6) ∧
    decode32 0xF4214C0A = .ok (.tmax 4 5 6) ∧
    decode32 0xF439400B = .ok (.trsum 7 5) ∧
    decode32 0xF439400C = .ok (.trmax 7 5) ∧
    decode32 0xF429400D = .ok (.texp2 5 5) ∧
    decode32 0xF442540E = .ok (.tscan 8 9 10) ∧
    decode32 0xF4188E0F = .ok (.tcvt 3 2 7) ∧
    decode32 0xF4288C10 = .ok (.tgete 5 2 6) ∧
    decode32 0xF4114C11 = .ok (.tsete 2 5 6) ∧
    decode32 0xF4114012 = .ok (.tchain 2 5) ∧
    decode32 0xF4000013 = .ok (.tsync) :=
  ⟨rfl, rfl, rfl, rfl, rfl, rfl, rfl, rfl, rfl, rfl, rfl, rfl, rfl, rfl, rfl, rfl, rfl, rfl, rfl, rfl⟩

/-- 09 R244 to R249. -/
theorem test_decode_counting :
    decode32 0xF5014000 = .ok (.cfmt 0 5) ∧
    decode32 (0b11#2 ++ 0b110101#6 ++ 0b00001#5 ++ 0b00000#5 ++ 0b00001#5 ++ 0b000000001#9) = .ok (.cstep 1 0 1) ∧
    decode32 0xF5000002 = .ok (.cmerge 0) ∧
    decode32 0xF5100603 = .ok (.cdrain 2 0 3) ∧
    decode32 0xF5080004 = .ok (.cclr 1) ∧
    decode32 0xF5280005 = .ok (.cdepth 5 0) ∧
    decode32 0xF5298006 = .ok (.calloc 5 6) ∧
    decode32 0xF5018007 = .ok (.cfree 6) :=
  ⟨rfl, rfl, rfl, rfl, rfl, rfl, rfl, rfl⟩

/-- 10 R252 to R268. -/
theorem test_decode_system :
    decode32 0xF8024600 = .ok (.trap 0x123) ∧
    decode32 0xF8298E01 = .ok (.sysc 5 6 7) ∧
    decode32 0xF8000002 = .ok (.eret) ∧
    decode32 (0b11#2 ++ 0b111000#6 ++ 0b00101#5 ++ 0b00000#5 ++ 0b00011#5 ++ 0b000000011#9) = .ok (.mfs 5 3) ∧
    decode32 0xF8280004 = .ok (.mts 5 0) ∧
    decode32 0xF8280005 = .ok (.cyc 5) ∧
    decode32 0xF8298006 = .ok (.perf 5 6) ∧
    decode32 0xF8018E07 = .ok (.cinv 6 7) ∧
    decode32 0xF8018E08 = .ok (.tlbinv 6 7) ∧
    decode32 0xF8000009 = .ok (.brk) ∧
    decode32 0xF800000A = .ok (.nop) ∧
    decode32 0xF8298E0B = .ok (.wake 5 6 7) ∧
    decode32 0xF800000C = .ok (.halt) :=
  ⟨rfl, rfl, rfl, rfl, rfl, rfl, rfl, rfl, rfl, rfl, rfl, rfl, rfl⟩

/-- 03 R88, R101; 05 R134, R136; 06. -/
theorem test_decode_short :
    decodeBytes (halfBytes (0b00#2 ++ 0b0010#4 ++ 0b0110#4 ++ 0b0101#4 ++ 0b00#2)) = some (.add16 6 5, []) ∧
    decodeBytes (halfBytes (0b01#2 ++ 0b000#3 ++ 0b0011#4 ++ 0b0000001#7)) = some (.addi16 3 1, []) ∧
    decodeBytes (halfBytes (0b01#2 ++ 0b001#3 ++ 0b0111#4 ++ 0b0000100#7)) = some (.li16 7 4, []) ∧
    decodeBytes (halfBytes (0b00#2 ++ 0b1011#4 ++ 0b0101#4 ++ 0b0001#4 ++ 0b00#2)) = some (.std16 5 1, []) ∧
    decodeBytes (halfBytes (0b00#2 ++ 0b1110#4 ++ 0b0000#4 ++ 0b1001#4 ++ 0b01#2)) = some (.jlr16 9, []) :=
  ⟨rfl, rfl, rfl, rfl, rfl⟩

/-- 04 R110 to R113, 09: a set field of 2 is illegal with cause 3, an unassigned func with cause 2, an unassigned major with cause 1, a fence of order `.rlx` with cause 3. -/
theorem test_decode_illegal : decode32 0xF5100201 = .error 3 ∧ decode32 0xC000002C = .error 2 ∧ decodeBytes [0, 0xFF] = some (.illegalEncoding 1 0xFF000000, []) ∧
    decodeBytes [0, 0] = some (.udf 0, []) := ⟨rfl, rfl, rfl, rfl⟩

/-- 00 R5, R6: the first halfword of an instruction lies at the lower address, each with its low byte first. -/
theorem test_encode_bytes : encode (.addi 5 6 1000) = [0x29, 0xC1, 0xE8, 0x83] := rfl

/-! ### One step of a register instruction on worked values -/

/-- The running thread with A in g4, B in g5, D in g3 and a word in x7. -/
def operands (A B D x7 : Word) : State :=
  { State.reset with cur := { Thread.idle ⟨.barrel, 0, 0⟩ with
      wait := .ready, task := some (Task.placed 0), regs := ((({ Regs.reset with pc := 0x1000 }.writeG 4 A).writeG 5 B).writeG 3 D).writeX 7 x7 } }

/-- What an instruction leaves in g3 and in `STATUS`. -/
def gives (i : Instr) (A B D x7 : Word) : Option (Word × Word) :=
  match exec i (operands A B D x7) with
  | .next t => some (t.g 3, t.cur.regs.status)
  | _ => none

/-- The PC, g3 and g31 after an instruction at 0x1000. -/
def goes (i : Instr) (A B : Word) : Option (Word × Word × Word) :=
  match exec i (operands A B 0 0) with
  | .next t => some (t.pc, t.g 3, t.g 31)
  | _ => none

/-- 05, worked from R44. -/
theorem test_div_overflow : gives (.div 3 4 5) 0x8000000000000000 0xFFFFFFFFFFFFFFFF 0 0 = some (0x8000000000000000, 0) := by decide

/-- 05. -/
theorem test_rem_overflow : gives (.rem 3 4 5) 0x8000000000000000 0xFFFFFFFFFFFFFFFF 0 0 = some (0, 0) := by decide

/-- 05. -/
theorem test_divn_by_zero : gives (.divn 3 4 5) 7 0 0 0 = some (0xFFFFFFFFFFFFFFFF, 0) := by decide

/-- 05. -/
theorem test_remn_by_zero : gives (.remn 3 4 5) 7 0 0 0 = some (7, 0) := by decide

/-- 05. -/
theorem test_rem_sign : gives (.rem 3 4 5) 0xFFFFFFFFFFFFFFF9 2 0 0 = some (0xFFFFFFFFFFFFFFFF, 0) := by decide

/-- 05. -/
theorem test_mulh : gives (.mulh 3 4 5) 0xFFFFFFFFFFFFFFFF 2 0 0 = some (0xFFFFFFFFFFFFFFFF, 0) := by decide

/-- 05. -/
theorem test_mulhn : gives (.mulhn 3 4 5) 0xFFFFFFFFFFFFFFFF 2 0 0 = some (1, 0) := by decide

/-- 05. -/
theorem test_shl_65 : gives (.shl 3 4 5) 1 65 0 0 = some (2, 0) := by decide

/-- 05. -/
theorem test_shrw_zero : gives (.shrw 3 4 5) 0x80000000 0 0 0 = some (0xFFFFFFFF80000000, 0) := by decide

/-- 05. -/
theorem test_clz_zero : gives (.clz 3 4) 0 0 0 0 = some (64, 0) := by decide

/-- 05. -/
theorem test_bfx : gives (.bfx 3 4 5) 0xABCD00 0xC08 0 0 = some (0xBCD, 0) := by decide

/-- 05 R117: p = 60, L = 8. -/
theorem test_bfx_top : gives (.bfx 3 4 5) 0xA000000000000000 0x83C 0 0 = some (0xA, 0) := by decide

/-- 05 R118: `SLTNI gd, ga, -1` is 0 for 2^64 - 1 only. -/
theorem test_sltni_minus_one : gives (.sltni 3 4 (-1)) 0xFFFFFFFFFFFFFFFF 0 0 0 = some (0, 0) := by decide

/-- 05 R118: `SLTNI gd, ga, 1` tests for zero. -/
theorem test_sltni_one : gives (.sltni 3 4 1) 0 0 0 0 = some (1, 0) := by decide

/-- 06, special values. -/
theorem test_fdiv_by_zero : gives (.fdiv 3 4 5 .f32 .rne) 0x3F800000 0 0 0 = some (0x7F800000, 8) := by decide

/-- 06. -/
theorem test_fdiv_zero_zero : gives (.fdiv 3 4 5 .f32 .rne) 0 0 0 0 = some (0x7FC00000, 16) := by decide

/-- 06. -/
theorem test_fsqrt_minus_zero : gives (.fsqrt 3 4 .f32 .rne) 0x80000000 0 0 0 = some (0x80000000, 0) := by decide

/-- 06. -/
theorem test_fsqrt_negative : gives (.fsqrt 3 4 .f32 .rne) 0xBF800000 0 0 0 = some (0x7FC00000, 16) := by decide

/-- 06. -/
theorem test_fadd_tie : gives (.fadd 3 4 5 .f32 .rne) 0x3F800000 0x33800000 0 0 = some (0x3F800000, 1) := by decide

/-- 06. -/
theorem test_fadd_ru : gives (.fadd 3 4 5 .f32 .ru) 0x3F800000 0x33800000 0 0 = some (0x3F800001, 1) := by decide

/-- 06. -/
theorem test_fmul_overflow : gives (.fmul 3 4 5 .f32 .rne) 0x7F7FFFFF 0x40000000 0 0 = some (0x7F800000, 5) := by decide

/-- 06. -/
theorem test_fmul_overflow_rz : gives (.fmul 3 4 5 .f32 .rz) 0x7F7FFFFF 0x40000000 0 0 = some (0x7F7FFFFF, 5) := by decide

/-- 06. -/
theorem test_fmin_nan : gives (.fmin 3 4 5 .f32) 0x7FC00000 0x40000000 0 0 = some (0x40000000, 0) := by decide

/-- 06. -/
theorem test_fmad_fused : gives (.fmad 3 4 5 .f32 .rne) 0x3F800800 0x3F800800 0xBF800000 0 = some (0x3A000400, 0) := by decide

/-- 06 R143: -2.5 down is -3. -/
theorem test_frnd_rd : gives (.frnd 3 4 .f64 .rd) 0xC004000000000000 0 0 0 = some (0xC008000000000000, 0) := by decide

/-- 06 R143: -0.5 to even is -0. -/
theorem test_frnd_minus_half : gives (.frnd 3 4 .f64 .rne) 0xBFE0000000000000 0 0 0 = some (0x8000000000000000, 0) := by decide

/-- 06: -2.7. -/
theorem test_ftoi_rz : gives (.ftoi 3 4 .f64 .rz) 0xC00599999999999A 0 0 0 = some (0xFFFFFFFFFFFFFFFE, 1) := by decide

/-- 06: 2^70. -/
theorem test_ftoi_saturates : gives (.ftoi 3 4 .f64 .rne) 0x4450000000000000 0 0 0 = some (0x7FFFFFFFFFFFFFFF, 16) := by decide

/-- 06: -0.3. -/
theorem test_fton_rounds_to_zero : gives (.fton 3 4 .f64 .rne) 0xBFD3333333333333 0 0 0 = some (0, 1) := by decide

/-- 06: -1. -/
theorem test_fton_negative : gives (.fton 3 4 .f64 .rne) 0xBFF0000000000000 0 0 0 = some (0, 16) := by decide

/-- 06. -/
theorem test_ftoi_nan : gives (.ftoi 3 4 .f32 .rne) 0x7FC00000 0 0 0 = some (0, 16) := by decide

/-- 06: 2^24 + 1. -/
theorem test_itof_tie : gives (.itof 3 4 .f32 .rne) 0x1000001 0 0 0 = some (0x4B800000, 1) := by decide

/-- 06. -/
theorem test_itof_ru : gives (.itof 3 4 .f32 .ru) 0x1000001 0 0 0 = some (0x4B800001, 1) := by decide

/-- 06. -/
theorem test_fcvt_bf16 : gives (.fcvt 3 4 .bf16 .f32 .rne) 0x3F808000 0 0 0 = some (0x3F80, 1) := by decide

/-- 02: 0.1 in binary8p4. -/
theorem test_ftob8_rounds : gives (.ftob8 3 4 .f32) 0x3DCCCCCD 0 0 4 = some (0x25, 1) := by decide

/-- 02: 300. -/
theorem test_ftob8_saturates : gives (.ftob8 3 4 .f32) 0x43960000 0 0 4 = some (0x7F, 5) := by decide

/-- 02: 0.001. -/
theorem test_ftob8_subnormal : gives (.ftob8 3 4 .f32) 0x3A83126F 0 0 4 = some (0x01, 3) := by decide

/-- 02 R53: code 0x7F of finite binary8p4 is 240. -/
theorem test_b8tof_largest : gives (.b8tof 3 4 .f32) 0x7F 0 0 4 = some (0x43700000, 0) := by decide

/-- 06. -/
theorem test_padds_b8 : gives (.padds 3 4 5 .b8) 0x807F 0xFF01 0 0 = some (0x807F, 0) := by decide

/-- 06. -/
theorem test_padd_b8 : gives (.padd 3 4 5 .b8) 0x807F 0xFF01 0 0 = some (0x7F80, 0) := by decide

/-- 06. -/
theorem test_pshuf_b8 : gives (.pshuf 3 4 5 .b8) 0x8877665544332211 0x0001020380050607 0 0 = some (0x1122334400667788, 0) := by decide

/-- 06. -/
theorem test_pdot_b8 : gives (.pdot 3 4 5 .b8) 0xFCFDFEFF04030201 0x0202020201010101 100 0 = some (90, 0) := by decide

/-- 02 R70: the known answer of a zero counter and key. -/
theorem test_rngp : gives (.rngp 3 0 0) 0 0 0 0 = some (0xE169C58D6627E8D5, 0) := by decide

/-- 06: of the known answer. -/
theorem test_rngf32 : gives (.rngf32 3 4) 0xE169C58D6627E8D5 0 0 0 = some (0x3ECC4FD1, 0) := by decide

/-- 06: of the known answer. -/
theorem test_rngf64 : gives (.rngf64 3 4) 0xE169C58D6627E8D5 0 0 0 = some (0x3FEC2D38B1ACC4FD, 0) := by decide

/-- 05 R132: signed, 12 bytes back. -/
theorem test_blt_taken : goes (.blt 4 5 (-6)) 0xFFFFFFFFFFFFFFFF 0 = some (0xFF4, 0, 0) := by decide

/-- 05 R132: unsigned. -/
theorem test_bltn_not_taken : goes (.bltn 4 5 (-6)) 0xFFFFFFFFFFFFFFFF 0 = some (0x1004, 0, 0) := by decide

/-- 05 R133: 100 halfwords back. -/
theorem test_jl : goes (.jl (-100)) 0 0 = some (0xF38, 0, 0x1004) := by decide

/-- 05 R134: the short link is PC + 2. -/
theorem test_jlr16 : goes (.jlr16 4) 0x2000 0 = some (0x2000, 0, 0x1002) := by decide

/-- 03 R80: a write of g0 is discarded. -/
theorem test_write_g0 : goes (.addi 0 4 1) 5 0 = some (0x1004, 0, 0) := by decide

end Sys2Proof.Tests
end

