-- ==== Sys2Proof/Tests/Witnesses.lean ====
section
/-! SUPPORT. Witnesses: concrete states and operands that meet the hypotheses of the statements, clause by clause. -/

namespace Sys2Proof.Tests

open Sys2Proof Sys2Proof.Machine Sys2Proof.Claims

/-! ### Small states -/

/-- Registers with some of them written, and the PC at 0x20000. -/
def regsOf (l : List (Reg × Word)) : Regs := l.foldl (fun r e => r.writeG e.1 e.2) { Regs.reset with pc := 0x20000 }

/-- A free task of partition 0, context 0. -/
def freeTask : Task := { Task.placed 0 with uid := 7, reg := 1, hdr := 0x18000 }

/-- An ordered task of partition 0, context 0, with a key. -/
def orderedTask : Task := { freeTask with cls := .ordered, key := 0x100 }

/-- The translation of the page at 0x10000 to guest-physical 2^25, with every right. -/
def page : TlbEntry := { host := false, hdm := false, vmid := 0, asid := 0, glob := true, va := 0x10000, bits := 16, gpa := 2 ^ 25, r := true, w := true, x := true,
                         u := true, d := true, leaf := 0 }

/-- Partition 0 over column 0. -/
def part0 : Part := { Part.reset with pdesc := word (2 ^ 63), running := true }

/-- A line of the L2 that holds the write mark. -/
def l2At (line : Nat) : L2Line := { vmid := 0, line := line, slice := 1, mark := true, dirty := true }

/-- A thread of cluster 0 with some registers and a task; the page at 0x10000 is mapped, and its first eight lines stand in the L2. -/
def world (rs : List (Reg × Word)) (k : Task) : State :=
  { State.reset with
    cur := { Thread.idle ⟨.barrel, 0, 0⟩ with wait := .ready, regs := regsOf rs, task := some k }
    clusters := [(0, { Cluster.reset with tlb := [page] })]
    parts := [(0, part0)]
    s2map := [(1, { w := true, frame := 1 })]
    frames := [(1, .owned 0)]
    l2 := [l2At (2 ^ 19), l2At (2 ^ 19 + 1), l2At (2 ^ 19 + 2), l2At (2 ^ 19 + 3), l2At (2 ^ 19 + 4), l2At (2 ^ 19 + 5)] }

/-- The same state with bytes of the page, by their offset in it. -/
def State.holding (s : State) (l : List (Nat × Nat)) : State :=
  { s with mem := l.foldl (fun m e => m.writeBytes (2 ^ 25 + e.1) (leBytes 8 e.2)) [] }

/-- What an answer holds, if it is a next state. -/
def after (o : Out) (p : State → Bool) : Bool :=
  match o with
  | .next t => p t
  | _ => false

/-! ### Integer, floating point, packed lanes and control -/

theorem isNum {f : FpFmt} {w : Word} {n : Bool} (m : Nat) (e : Int) (h : fval f w = .num n m e) : IsNum f w n (rat n m e) := ⟨m, e, h, rfl⟩

theorem witness_IntegerMajorGivesItsRow : intFields (.bfi 3 4 5) = some (3, 4, 5) ∧ intFields (.clz 31 0) = some (31, 0, 0) := ⟨rfl, rfl⟩

theorem witness_FloatingPointFrame : fpResult (.fadd 3 4 5 .f32 .rne) = some (3, 32) ∧ fpResult (.feq 0 4 5 .f64) = some (0, 1) ∧
    fpResult (.ftob8 3 4 .bf16) = some (3, 8) := ⟨rfl, rfl, rfl⟩

/-- A = 2 in g4, B = 1 in g5, D = 1 in g3, in f64: no sum, difference, product or fused sum of them is zero, and A is positive. -/
theorem witness_ArithmeticIsCorrectlyRounded :
    let s := world [(4, 0x4000000000000000), (5, 0x3FF0000000000000), (3, 0x3FF0000000000000)] freeTask
    let A := rat false (2 ^ 52) (-51)
    let B := rat false (2 ^ 52) (-52)
    IsNum .f64 (s.g 4) false A ∧ IsNum .f64 (s.g 5) false B ∧ IsNum .f64 (s.g 3) false B ∧
    A + B ≠ 0 ∧ A - B ≠ 0 ∧ A * B ≠ 0 ∧ A ≠ 0 ∧ B ≠ 0 ∧ 0 < A ∧ A * B + B ≠ 0 ∧ B - A * B ≠ 0 := by
  refine ⟨⟨_, _, rfl, rfl⟩, ⟨_, _, rfl, rfl⟩, ⟨_, _, rfl, rfl⟩, ?_⟩
  norm_num [rat, zpow_neg]

/-- Zero, one, minus one and the infinities of f32, with signs, meet every case of a special sum, product, quotient and root. -/
theorem witness_ZeroAndInfiniteResults :
    let one := rat false (2 ^ 23) (-23)
    let minus := rat true (2 ^ 23) (-23)
    IsNum .f32 0x3F800000 false one ∧ IsNum .f32 0xBF800000 true minus ∧ (∃ e, IsNum .f32 0 false (rat false 0 e)) ∧
    (∃ e, IsNum .f32 0x80000000 true (rat true 0 e)) ∧ IsInf .f32 0x7F800000 false ∧ IsInf .f32 0xFF800000 true ∧
    fval .f32 0x7FC00000 = .nan false ∧ (∀ n e, rat n 0 e = 0) ∧ one ≠ 0 ∧ one + minus = 0 ∧ one - one = 0 ∧ minus < 0 := by
  refine ⟨⟨_, _, rfl, rfl⟩, ⟨_, _, rfl, rfl⟩, ⟨_, _, _, rfl, rfl⟩, ⟨_, _, _, rfl, rfl⟩, rfl, rfl, rfl, ?_, ?_⟩
  · intro n e; simp [rat]
  · norm_num [rat, zpow_neg]

theorem witness_NanOperandsGiveTheCanonicalNan : IsNan .f32 0x7FC00000 ∧ ¬ IsSnan .f32 0x7FC00000 ∧ IsNan .f32 0x7F800001 ∧
    IsSnan .f32 0x7F800001 := ⟨⟨_, rfl⟩, by unfold IsSnan; decide, ⟨_, rfl⟩, rfl⟩

theorem not_less_nan {x : Word} (h : ∃ n m e, fval .f32 x = .num n m e) : ¬ IsNan .f32 x := by
  rintro ⟨q, hq⟩
  obtain ⟨n, m, e, h⟩ := h
  rw [h] at hq
  cases hq

/-- Every case of `FMIN`, `FMAX` and the comparisons: below and above, equal with signs, one NaN and two, none. -/
theorem witness_MinimumMaximumAndComparison :
    Less .f32 0xBF800000 0x3F800000 ∧ Less .f32 0xFF800000 0x3F800000 ∧ Less .f32 0x3F800000 0x7F800000 ∧ Same .f32 0x80000000 0 ∧
    Same .f32 0x3F800000 0x3F800000 ∧ Same .f32 0x7F800000 0x7F800000 ∧ (BitVec.getLsbD (0x80000000 : Word) 31 = true) ∧
    (BitVec.getLsbD (0 : Word) 31 = false) ∧ IsNan .f32 0x7FC00000 ∧ ¬ IsNan .f32 0x3F800000 ∧ ¬ IsNan .f32 0xBF800000 ∧ ¬ Same .f32 0xBF800000 0x3F800000 ∧
    ¬ Less .f32 0x3F800000 0xBF800000 := by
  have h1 : ¬ IsNan .f32 0x3F800000 := not_less_nan ⟨_, _, _, rfl⟩
  have h2 : ¬ IsNan .f32 0xBF800000 := not_less_nan ⟨_, _, _, rfl⟩
  have hn : ∀ n A, IsNum .f32 0x3F800000 n A → A = rat false (2 ^ 23) (-23) := by
    rintro n A ⟨m, e, h, rfl⟩
    have : fval .f32 0x3F800000 = .num false (2 ^ 23) (-23) := rfl
    rw [this] at h; cases h; rfl
  have hm : ∀ n A, IsNum .f32 0xBF800000 n A → A = rat true (2 ^ 23) (-23) := by
    rintro n A ⟨m, e, h, rfl⟩
    have : fval .f32 0xBF800000 = .num true (2 ^ 23) (-23) := rfl
    rw [this] at h; cases h; rfl
  have i1 : ∀ n, ¬ IsInf .f32 0x3F800000 n := by intro n h; unfold IsInf at h; revert h; cases n <;> decide
  have i2 : ∀ n, ¬ IsInf .f32 0xBF800000 n := by intro n h; unfold IsInf at h; revert h; cases n <;> decide
  refine ⟨.inr (.inr ⟨true, false, _, _, isNum (2 ^ 23) (-23) rfl, isNum (2 ^ 23) (-23) rfl, ?_⟩), .inl ⟨rfl, h1, i1 _⟩, .inr (.inl ⟨rfl, h1, i1 _⟩),
    .inr ⟨true, false, 0, ⟨0, -149, rfl, ?_⟩, ⟨0, -149, rfl, ?_⟩⟩, .inr ⟨_, _, _, ⟨_, _, rfl, rfl⟩, ⟨_, _, rfl, rfl⟩⟩, .inl ⟨_, rfl, rfl⟩, rfl, rfl, ⟨_, rfl⟩,
    h1, h2, ?_, ?_⟩
  · norm_num [rat, zpow_neg]
  · simp [rat]
  · simp [rat]
  · rintro (⟨n, h, -⟩ | ⟨n, k, A, hA, hB⟩)
    · exact i2 _ h
    · have := hm _ _ hA; rw [hn _ _ hB] at this; norm_num [rat, zpow_neg] at this
  · rintro (⟨h, -⟩ | ⟨h, -⟩ | ⟨n, k, A, B, hA, hB, h⟩)
    · exact i1 _ h
    · exact i2 _ h
    · rw [hn _ _ hA, hm _ _ hB] at h; norm_num [rat, zpow_neg] at h

/-- One operand of each class in f32: the largest subnormal and the smallest normal of either sign among them. -/
theorem witness_SignOperationsAndClass :
    let tiny : ℚ := (2 : ℚ) ^ (specOf .f32).emin
    (∃ q, IsNum .f32 0x00800000 false q ∧ tiny ≤ q) ∧ (∃ q, IsNum .f32 0x007FFFFF false q ∧ 0 < q ∧ q < tiny) ∧
    (∃ q, IsNum .f32 0x80800000 true q ∧ q ≤ -tiny) ∧ (∃ q, IsNum .f32 0x807FFFFF true q ∧ q < 0 ∧ -tiny < q) ∧
    (∃ q, IsNum .f32 0 false q ∧ q = 0) ∧ (∃ q, IsNum .f32 0x80000000 true q ∧ q = 0) := by
  have e : (specOf .f32).emin = -126 := rfl
  refine ⟨⟨_, isNum (2 ^ 23) (-149) rfl, ?_⟩, ⟨_, isNum (2 ^ 23 - 1) (-149) rfl, ?_⟩, ⟨_, isNum (2 ^ 23) (-149) rfl, ?_⟩, ⟨_, isNum (2 ^ 23 - 1) (-149) rfl, ?_⟩,
    ⟨_, isNum 0 (-149) rfl, ?_⟩, ⟨_, isNum 0 (-149) rfl, ?_⟩⟩ <;> norm_num [rat, zpow_neg, e]

/-- Rounded integers at and beyond both ends of the two ranges, zero, a NaN, an infinity and an exact widening. -/
theorem witness_Conversions : RoundsToInt .rz (-5 / 2) (-2) ∧ RoundsToInt .rne (5 / 2) 2 ∧ RoundsToInt .rd (-1 / 2) (-1) ∧ RoundsToInt .ru (1 / 2) 1 ∧
    RoundsToInt .rne (2 ^ 63) (2 ^ 63) ∧ RoundsToInt .rne (-2 ^ 63) (-2 ^ 63) ∧ RoundsToInt .rne (2 ^ 70) (2 ^ 70) ∧ RoundsToInt .rne (-2 ^ 70) (-2 ^ 70) ∧
    (∃ q, IsNum .f64 0xC004000000000000 true q ∧ q = -5 / 2) ∧ (∃ q, IsNum .f64 0x43E0000000000000 false q ∧ q = 2 ^ 63) ∧
    (∃ q, IsNum .f64 0xC450000000000000 true q ∧ q = -2 ^ 70) ∧ IsNan .f64 0x7FF8000000000000 ∧ IsInf .f64 0xFFF0000000000000 true ∧
    IsNum .f32 0x3F800000 false (rat false (2 ^ 23) (-23)) ∧ exactWidening .f64 .f32 = true := by
  refine ⟨?_, ?_, ?_, ?_, ?_, ?_, ?_, ?_, ⟨_, isNum (5 * 2 ^ 50) (-51) rfl, ?_⟩, ⟨_, isNum (2 ^ 52) 11 rfl, ?_⟩,
    ⟨_, isNum (2 ^ 52) 18 rfl, ?_⟩, ⟨_, rfl⟩, rfl, ⟨_, _, rfl, rfl⟩, rfl⟩ <;>
    norm_num [RoundsToInt, rat, zpow_neg, abs_of_pos, abs_of_neg]

/-- `P` = 0; the NaN code; the infinity of the extended variant; an ordinary code, signed and unsigned. -/
theorem witness_BinaryEightConversions :
    (0x10 : Word).toNat % 8 = 0 ∧ 1 ≤ (0x14 : Word).toNat % 8 ∧ (0x80 : Word).toNat % 256 = 0x80 ∧ (0x14 : Word).getLsbD 4 = true ∧ (0x14 : Word).getLsbD 3 = false ∧
    (0xFF : Word).toNat % 256 % 128 = 0x7F ∧ (0x1C : Word).getLsbD 3 = true ∧ (0xFE : Word).toNat % 256 = 0xFE ∧ (0x38 : Word).toNat % 256 ≠ 0x80 ∧ (0x04 : Word).getLsbD 4 = false := by
  decide

/-- The worked cases of 02 R57 in binary8p4: 0.1 rounds to code 0x25, 300 past the largest code; ties in binary8p1, down and up in the directed
modes, a magnitude that rounds to 0; and operands of f32 and f64 for each case of `FTOB8` and for `B8TOF` into f16. -/
theorem witness_BinaryEightRounding :
    B8RoundsTo 4 false .rne false (13421773 * (2 : ℚ) ^ (-27 : Int)) 0x25 ∧ B8RoundsTo 4 false .rne true 300 0x81 ∧ B8RoundsTo 1 false .rne false 3 0x42 ∧
    B8RoundsTo 4 false .rd true 244 0x80 ∧ B8RoundsTo 4 true .ru false 1 0x80 ∧ B8RoundsTo 4 false .rz false (1 / 4096) 0 ∧
    modeOfCode ((0x84 : Word).toNat / 2 ^ 6 % 4) = .rd ∧ (0x24 : Word).getLsbD 5 = true ∧
    IsNum .f32 0x3DCCCCCD false (rat false 13421773 (-27)) ∧ rat false 13421773 (-27) ≠ 0 ∧ (∃ A, IsNum .f64 0xC072C00000000000 true A ∧ A ≠ 0 ∧ |A| = 300) ∧
    (∃ n e, IsNum .f32 0x80000000 n (rat true 0 e)) ∧ IsInf .f32 0xFF800000 true ∧ fval .f32 0x7F800001 = .nan true := by
  refine ⟨?_, ?_, ?_, ?_, ?_, ?_, rfl, by decide, ⟨_, _, rfl, rfl⟩, ?_, ⟨_, isNum (300 * 2 ^ 44) (-44) rfl, ?_, ?_⟩, ⟨_, _, _, _, rfl, rfl⟩, rfl, rfl⟩ <;>
    norm_num [B8RoundsTo, b8Number, rat, zpow_neg, zpow_ofNat, abs_of_neg]

theorem witness_PackedLanesGiveTheirRow : laneFields (.padds 3 4 5 .h4) = some (3, 4, 5, .h4) ∧ laneFields (.pshuf 0 4 5 .w2) = some (0, 4, 5, .w2) := ⟨rfl, rfl⟩

theorem witness_RandomStreams : let s := world [] freeTask; s.g 4 = 0 ∧ s.g 5 = 0 ∧ s.x 6 = 0 := by decide

/-- A branch taken and one not taken, for each comparison; a target that wraps; an even and an odd register. -/
theorem witness_BranchesAndJumps :
    let s := world [(4, 0xFFFFFFFFFFFFFFFF), (5, 1), (6, 0x30000)] freeTask
    s.g 4 ≠ s.g 5 ∧ s.g 4 = s.g 4 ∧ (s.g 4).toInt < (s.g 5).toInt ∧ (s.g 5).toInt ≤ (s.g 5).toInt ∧ (s.g 5).toNat < (s.g 4).toNat ∧
    (s.g 5).toNat ≤ (s.g 5).toNat ∧ (0x1C000 : Word).toInt = (s.pc.toInt + (-8192 : BitVec 14).toInt * 2).bmod (2 ^ 64) ∧
    (0xFFFFFFFFFF020000 : Word).toInt = (s.pc.toInt + (-8388608 : BitVec 24).toInt * 2).bmod (2 ^ 64) ∧ (s.g 6).getLsbD 0 = false := by decide

theorem witness_ShortFormsActAsTheirPartners :
    let s := world [(4, 0), (5, 1), (6, 0x30000), (31, 0x30000)] freeTask
    partner (.mov16 3 4) = some (.or 3 4 0) ∧ partner .nop16 = some .nop ∧ s.g 4 = 0 ∧ s.g 5 ≠ 0 ∧
    (0x1FF80 : Word).toInt = (s.pc.toInt + (-64 : BitVec 7).toInt * 2).bmod (2 ^ 64) ∧
    (0x1F000 : Word).toInt = (s.pc.toInt + (-2048 : BitVec 12).toInt * 2).bmod (2 ^ 64) ∧ (s.g 6).getLsbD 0 = false ∧ (s.g 31).getLsbD 0 = false := by
  refine ⟨rfl, rfl, ?_⟩; decide

/-! ### Exceptions and system registers -/

/-- The same state with a status word. -/
def State.status (s : State) (w : Word) : State := s.mapRegs fun r => { r with status := w }

/-- The same state with the running context on another core. -/
def State.onCore (s : State) (t : Tid) : State := { s with cur := { s.cur with id := t } }

theorem witness_TrapEntryFollowsR255 : Enters (world [] freeTask) ∧ Enters (State.status (world [] freeTask) 0x7FFF) := by unfold Enters; decide

/-- Supervisor and firmware mode, with an even and an odd `TPC`. -/
theorem witness_ReturnFromTrap :
    let s := State.status (world [] freeTask) 0x800
    let u := (State.status (world [] freeTask) 0x1000).mapRegs fun r => { r with tpc := 0x30001 }
    1 ≤ s.mode ∧ s.cur.regs.tpc.getLsbD 0 = false ∧ 1 ≤ u.mode ∧ u.cur.regs.tpc.getLsbD 0 = true ∧ u.cur.id.kind ≠ .memory := by decide

theorem witness_TrappingInstructions :
    let s := world [(4, 1), (31, 3)] freeTask
    let c := State.onCore (State.status s 0x800) ⟨.command, 3, 0⟩
    Enters s ∧ s.cur.id.kind ≠ .command ∧ (s.g 4).getLsbD 0 = true ∧ (s.g 31).getLsbD 0 = true ∧ s.mode = 0 ∧
    FetchFails s 0x0100000000000000 0x04 ∧ FetchFails s 0x00FF000000000000 0x03 ∧ FetchFails s 0x00FF0000000C0000 0x03 ∧
    FetchFails s 0x00FE00001FFC0000 0x03 ∧ s.place 0 0 0x00FDFFFFFFFFFFFE = .paged ∧ FetchFails s (0x00FDFFFFFFFFFFFE + 2) 0x03 ∧
    (2 : BitVec 10) ∈ supervisorRegs ∧
    Enters c ∧ c.cur.id.kind = .command ∧ c.mode < 2 ∧ (State.status s 0x800).mode = 1 ∧ (State.status s 0x1000).mode = 2 ∧
    (0x30 : BitVec 10) ∈ [(0x10 : BitVec 10), 0x11, 0x12, 0x20, 0x30] := by
  refine ⟨by unfold Enters; decide, by decide, by decide, by decide, by decide, .inr ⟨rfl, by decide +kernel, by unfold InScratchWindows; decide⟩,
    .inl ⟨rfl, .inl ⟨.scratch 0 0, by decide +kernel⟩⟩, .inl ⟨rfl, .inr ⟨by decide +kernel, by unfold InScratchWindows; decide⟩⟩,
    .inl ⟨rfl, .inr ⟨by decide +kernel, by unfold InScratchWindows; decide⟩⟩, by decide +kernel, .inl ⟨rfl, .inl ⟨.scratch 0 0, by decide +kernel⟩⟩, by decide, by unfold Enters; decide, ?_⟩
  decide

theorem witness_SystemRegisters :
    let s := State.status (world [] freeTask) 0x800
    let f := State.status (world [] orderedTask) 0x1000
    let c := { State.onCore f ⟨.command, 0, 0⟩ with cur := { (State.onCore f ⟨.command, 0, 0⟩).cur with task := none } }
    1 ≤ s.mode ∧ s.cur.id.kind = .barrel ∧ s.cur.task = some freeTask ∧ 2 ≤ f.mode ∧ f.cur.task = some orderedTask ∧
    c.cur.id.kind ≠ .barrel ∧ c.cur.task = none ∧ s.mode ≤ 2 ∧ statusWritten 1 0x8000 15 ∧ statusWritten 1 0x2000 13 ∧ ¬ statusWritten 1 0x4000 13 ∧
    statusWritten 2 0x1000 12 ∧ ¬ statusWritten 2 0x1800 12 := by
  refine ⟨?_, ?_, ?_, ?_, ?_, ?_, ?_, ?_, ?_, ?_, ?_, ?_, ?_⟩ <;> first | rfl | decide | (unfold statusWritten; decide)

theorem witness_TimeFencesWakeAndHalt :
    let s := world [(4, 0), (5, 1), (6, 2), (7, 3), (8, 0xFF), (9, 0x100), (10, 0x10D), (11, 0x10E)] freeTask
    let v := State.status { s with faults := [{ token := 8, part := 0, ctx := 0, page := 16, acc := 0, stage2 := false, waiters := [.thread ⟨.barrel, 0, 1⟩],
                                                addr := 0x10000, info := 0, written := true }] } 0x800
    let c := State.onCore (State.status s 0x1000) ⟨.command, 3, 0⟩
    (s.g 4).toNat % 2 ^ 16 = 0 ∧ (s.g 5).toNat % 2 ^ 16 = 1 ∧ (s.g 6).toNat % 2 ^ 16 = 2 ∧ s.cur.task = some freeTask ∧ 2 < (s.g 8).toNat ∧ (s.g 8).toNat < 0x100 ∧
    0x100 ≤ (s.g 9).toNat ∧ (s.g 10).toNat ≤ 0x10D ∧ 0x10D < (s.g 11).toNat ∧ s.cur.id.kind = .barrel ∧ s.curCluster < 512 ∧ 1 ≤ v.mode ∧ Enters v ∧
    (v.g 7).toNat % 4 = 3 ∧ (v.g 4).toNat % 4 ≠ 3 ∧ (∀ f ∈ v.faults, f.token ≠ v.g 4) ∧
    (∀ f ∈ v.faults, f.token = 8 ∧ f.stage2 = false ∧ f.waiters ≠ [] ∧ f.part = v.curPart) ∧ c.cur.id.kind = .command ∧ c.mode = 2 ∧
    (c.cmd 3).done = false ∧ (({ c with cmds := [(3, { event := none, since := 0, done := true })] } : State).cmd 3).done = true := by
  refine ⟨rfl, rfl, rfl, rfl, ?_⟩; unfold Enters; decide

/-- A token for which another thread, and one for which an engine request, waits. -/
def waitsFor (w : Requester) : FaultTok :=
  { token := 8, part := 0, ctx := 0, page := 16, acc := 0, stage2 := false, waiters := [w], addr := 0x10000, info := 0, written := true }

/-- A thread that waits for that token. -/
def droppedThread : Thread :=
  { Thread.idle ⟨.barrel, 0, 1⟩ with wait := .fault 8 { kind := 0, taddr := 0x10000, tinfo := 0x30 }, task := some { freeTask with uid := 8 } }

/-- A supervisor thread that can wake it, with its token in g4 and the kinds 0 to 2 in g0, g5 and g6. -/
def waker : State := State.status { world [(4, 8), (5, 1), (6, 2)] freeTask with faults := [waitsFor (.thread ⟨.barrel, 0, 1⟩)], others := [droppedThread] } 0x800

theorem witness_WakesEndTheWait :
    1 ≤ waker.mode ∧ waitsFor (.thread ⟨.barrel, 0, 1⟩) ∈ waker.faults ∧ (8 : Word) = waker.g 4 ∧ waker.curPart = 0 ∧
    (∀ x ∈ waker.faults, x = waitsFor (.thread ⟨.barrel, 0, 1⟩)) ∧ waker.thread? ⟨.barrel, 0, 1⟩ = some droppedThread ∧
    (⟨.barrel, 0, 1⟩ : Tid) ≠ waker.cur.id ∧ droppedThread.regs.status.getLsbD 15 = false ∧ (waker.g 0).toNat % 4 = 0 ∧ (waker.g 5).toNat % 4 = 1 ∧
    (waker.g 6).toNat % 4 = 2 ∧
    after (exec (.wake 3 4 5) waker) (fun t => (t.thread? ⟨.barrel, 0, 1⟩).any fun x => decide (x.wait = .ready) && decide (x.regs.tkind = 4)) = true := by
  decide +kernel

/-! ### Memory -/

def atPage : State := world [(4, 0x10008), (5, 0x11), (6, 0x0100000000000000), (7, 0x50000)] freeTask

/-- The same page, with the line that holds 0x10008 in the L1. -/
def cachedPage : State := atPage.mapCluster 0 fun c =>
  { c with l1 := [{ vmid := 0, line := 2 ^ 19, slice := 0, data := List.replicate 64 1, poison := List.replicate 8 false }] }

theorem at_page (s : State) (acc : Nat) (h : ∀ r, s.locate 0x10008 acc r = .ok (.dram 0 (2 ^ 25 + 8)) s) (e : s.elsewhere (.dram 0 (2 ^ 25 + 8)) = none) :
    At s 0x10008 8 acc (.dram 0 (2 ^ 25 + 8)) := ⟨by decide, by decide, h, e⟩

theorem backed_page (s : State) (a : Nat) (h : s.physOf 0 (2 ^ 25 + 8) = some a) (w : ∀ k < 8, (s.part 0).windowAt (2 ^ 25 + 8 + k) = none) (f : s.faults = []) :
    Backed s (.dram 0 (2 ^ 25 + 8)) := ⟨⟨a, h⟩, w, .inl f⟩

theorem canonical_of_empty (s : State) (m : s.mem.wf = true) (h : s.hostMem.wf = true) (c : ∀ e ∈ s.clusters, e.2.scratch = []) : Canonical s := by
  refine ⟨m, h, fun n => ?_⟩
  unfold State.cluster Tbl.getD
  cases e : Tbl.get? s.clusters n with
  | none => rfl
  | some x =>
    have : ∀ t : Tbl Cluster, (∀ e ∈ t, e.2.scratch = []) → Tbl.get? t n = some x → x.scratch = [] := by
      intro t
      induction t with
      | nil => intro _ q; simp [Tbl.get?] at q
      | cons y t ih =>
        obtain ⟨k, w⟩ := y
        intro q r
        simp only [Tbl.get?] at r
        split at r
        · have := q (k, w) (by simp)
          simp at r; subst r; exact this
        · exact ih (fun e he => q e (by simp [he])) r
    show Memory.wf x.scratch = true
    rw [this _ c e]
    rfl

/-- A host context of process 5, whose page at 0x10000 is at the host's 0x80000, and the same with the line in the RDC of its die. -/
def hostPage (ls : List HostLine) : State :=
  (({ world [(4, 0x10008), (5, 0x11)] { freeTask with host := some 5 } with
      dies := [(0, { Die.reset with hostLines := ls })] } : State)).mapCluster 0 fun c =>
    { c with tlb := [{ page with host := true, asid := 5, glob := false, gpa := 0x80000 }] }

theorem witness_LoadsReadTheirBytes :
    loadRow atPage (.ldd 3 4 .plain 0) = some (.d, .plain, 3, 0x10008, 4) ∧ loadRow atPage (.ldd 3 4 .direct 0) = some (.d, .direct, 3, 0x10008, 4) ∧
    atPage.speculative = false ∧ At atPage 0x10008 8 0 (.dram 0 (2 ^ 25 + 8)) ∧ atPage.askHome (.dram 0 (2 ^ 25 + 8)) false = .granted atPage ∧
    atPage.poisonedAt (.dram 0 (2 ^ 25 + 8)) 8 = false ∧ atPage.cachedLine atPage.curCluster (.dram 0 (2 ^ 25 + 8)) = none ∧
    (∃ c, cachedPage.cachedLine cachedPage.curCluster (.dram 0 (2 ^ 25 + 8)) = some c ∧ ((c.poison.drop 1).take 1).any id = false) ∧
    At cachedPage 0x10008 8 0 (.dram 0 (2 ^ 25 + 8)) ∧ Warm atPage ∧ At (hostPage []) 0x10008 8 0 (.host 0x80008) ∧
    hostCopy (hostPage []) (.host 0x80008) = none ∧ (∃ u, (hostPage []).askHome (.host 0x80008) false = .granted u) ∧
    hostCopy (hostPage [{ line := 0x2000, data := List.replicate 64 7, poison := List.replicate 8 false }]) (.host 0x80008) = some { line := 0x2000, data := List.replicate 64 7, poison := List.replicate 8 false } :=
  ⟨rfl, rfl, rfl, at_page _ _ (fun _ => rfl) rfl, rfl, rfl, rfl, ⟨_, rfl, rfl⟩, at_page _ _ (fun _ => rfl) rfl, fun k h => by cases h; exact nofun,
    ⟨by decide, by decide, fun _ => rfl, rfl⟩, rfl, ⟨_, rfl⟩, rfl⟩

theorem witness_StoresWriteTheirBytes :
    storeRow atPage (.std 5 4 .direct 0) = some (.d, .direct, 0x11, 0x10008, 4) ∧ storeRow atPage (.std16 5 4) = some (.d, .plain, 0x11, 0x10008, 2) ∧
    atPage.speculative = false ∧ Canonical atPage ∧ At atPage 0x10008 8 1 (.dram 0 (2 ^ 25 + 8)) ∧ Backed atPage (.dram 0 (2 ^ 25 + 8)) ∧
    (∃ u, atPage.askHome (.dram 0 (2 ^ 25 + 8)) true = .granted u) ∧ AbortsNone atPage (atPage.sigLine (.dram 0 (2 ^ 25 + 8))) :=
  ⟨rfl, rfl, rfl, canonical_of_empty _ rfl rfl (by decide), at_page _ _ (fun _ => rfl) rfl, backed_page _ _ rfl (fun _ _ => rfl) rfl, ⟨_, rfl⟩,
    fun k h => by cases h; nofun⟩

/-- An irrevocable task at the same page, which another ordered task has not read. -/
def irrevocablePage : State :=
  { world [(4, 0x10008), (5, 0x11)] { orderedTask with irrevocable := true, accessed := true } with
    others := [{ Thread.idle ⟨.barrel, 0, 1⟩ with wait := .ready, task := some { orderedTask with uid := 8, key := 0x200 } }] }

theorem witness_StoresOfIrrevocableTasks :
    let s := irrevocablePage
    storeRow s (.std 5 4 .direct 0) = some (.d, .direct, 0x11, 0x10008, 4) ∧ s.speculative = false ∧ Canonical s ∧
    At s 0x10008 8 1 (.dram 0 (2 ^ 25 + 8)) ∧ Backed s (.dram 0 (2 ^ 25 + 8)) ∧ (∃ u, s.askHome (.dram 0 (2 ^ 25 + 8)) true = .granted u) ∧
    AbortsNone s (s.sigLine (.dram 0 (2 ^ 25 + 8))) ∧ ∃ q, s.cur.task = some q ∧ q.cls = .ordered :=
  ⟨rfl, rfl, canonical_of_empty _ rfl rfl (by decide), at_page _ _ (fun _ => rfl) rfl, backed_page _ _ rfl (fun _ _ => rfl) rfl, ⟨_, rfl⟩,
    fun k h _ => by
      cases h
      have : ∀ x ∈ irrevocablePage.allTasks, x.uid ≠ 7 → sigHits x.sig (irrevocablePage.sigLine (.dram 0 (2 ^ 25 + 8))) = false := by decide +kernel
      exact fun x hx n _ _ _ => this x hx n, _, rfl, rfl⟩

theorem witness_AtomicsReadModifyWrite :
    atomFields (.cas 5 4 6 .d .ar .prt) = some (.d, .ar, .prt, 5, 4, 6) ∧ atomFields (.amin 5 4 6 .d .rlx .cl) = some (.d, .rlx, .cl, 5, 4, 6) ∧
    NotOrdered atPage ∧ Canonical atPage ∧ atPage.g 4 = 0x10008 ∧ At atPage 0x10008 8 1 (.dram 0 (2 ^ 25 + 8)) ∧ Backed atPage (.dram 0 (2 ^ 25 + 8)) ∧
    (∃ u, atPage.askHome (.dram 0 (2 ^ 25 + 8)) true = .granted u) ∧ atPage.poisonedAt (.dram 0 (2 ^ 25 + 8)) 8 = false :=
  ⟨rfl, rfl, fun k h => by cases h; rfl, canonical_of_empty _ rfl rfl (by decide), rfl, at_page _ _ (fun _ => rfl) rfl, backed_page _ _ rfl (fun _ _ => rfl) rfl,
    ⟨_, rfl⟩, rfl⟩

/-- The same state with a format window over the page. -/
def viewedPage : State := atPage.mapPart 0 fun t =>
  { t with conf := { t.conf with windows := [(0, { view := 2 ^ 25, store := 0, len := 0x10000, scale := 0, ctl := 0x1000 })] } }

/-- The same page, with the walkers of the cluster all busy. -/
def busyWalker : State :=
  let w : Walk := { id := 1, who := .thread ⟨.barrel, 0, 1⟩, part := 0, ctx := 0, tlb := 0, va := 0x50000, acc := 0, user := true, src := 0, stamp := 0,
                    trap := { kind := 0, taddr := 0, tinfo := 0 } }
  { atPage with walks := List.replicate 16 w }

/-- A misaligned, a non-canonical, an untranslated, a viewed and a poisoned address. -/
theorem witness_AccessesTrapOrWait :
    Enters atPage ∧ (0x10008 + 1 : Word).toNat % 8 ≠ 0 ∧ (atPage.g 6).toNat % 8 = 0 ∧ atPage.cur.id.kind = .barrel ∧
    atPage.place atPage.curPart atPage.curCluster (atPage.g 6) = .unmapped ∧ atPage.hostPasid = none ∧
    atPage.place atPage.curPart atPage.curCluster (atPage.g 7) = .paged ∧
    atPage.tlbHit (atPage.tlbOf atPage.cur) (coreOfThread atPage.cur.id) false 0 (atPage.asid 0 0) (atPage.g 7).toNat = none ∧
    (∃ e, viewedPage.tlbHit (viewedPage.tlbOf viewedPage.cur) (coreOfThread viewedPage.cur.id) false 0 (viewedPage.asid 0 0) 0x10008 = some e ∧
      ((viewedPage.part 0).windowAt (viewedPage.selected 0 (e.gpaOf 0x10008))).isSome = true) ∧ Enters viewedPage ∧
    (let s := { atPage with poison := [(2 ^ 25 + 8) / 8] }
     At s 0x10008 8 0 (.dram 0 (2 ^ 25 + 8)) ∧ s.askHome (.dram 0 (2 ^ 25 + 8)) false = .granted s ∧ s.poisonedAt (.dram 0 (2 ^ 25 + 8)) 8 = true ∧
     s.speculative = false ∧ Warm s) ∧
    atPage.walkerFull (atPage.tlbOf atPage.cur) = false ∧ busyWalker.walkerFull (busyWalker.tlbOf busyWalker.cur) = true ∧
    (let c := State.onCore atPage ⟨.command, 0, 0⟩
     Enters c ∧ c.cur.id.kind = .command ∧ populated (0x500000000 : Word).toNat = false) :=
  ⟨by unfold Enters; decide, by decide, by decide, rfl, rfl, rfl, rfl, rfl, ⟨_, rfl, rfl⟩, by unfold Enters; decide,
    ⟨at_page _ _ (fun _ => rfl) rfl, rfl, rfl, rfl, fun k h => by cases h; exact nofun⟩, rfl, by decide +kernel, by unfold Enters; decide, rfl, rfl⟩

/-- An ordered task that has buffered the doubleword at 0x10008. -/
def speculativePage : State := (world [(4, 0x10008), (5, 0x11)] orderedTask).mapCluster 0 fun c =>
  { c with ssb := [{ owner := 7, loc := .dram 0 (2 ^ 25), bytes := (List.range 8).map fun i => (8 + i, 5), whole := [1] }] }

theorem witness_SpeculationIsBuffered :
    let s := speculativePage
    s.cur.task = some orderedTask ∧ s.speculative = true ∧ storeRow s (.std 5 4 .plain 0) = some (.d, .plain, 0x11, 0x10008, 4) ∧
    At s 0x10008 8 1 (.dram 0 (2 ^ 25 + 8)) ∧ (s.cluster s.curCluster).ssbRoom 7 (.dram 0 (2 ^ 25 + 8)) = true ∧
    (∃ u, s.askHome (.dram 0 (2 ^ 25 + 8)) true = .granted u) ∧ loadRow s (.ldd 3 4 .plain 0) = some (.d, .plain, 3, 0x10008, 4) ∧
    At s 0x10008 8 0 (.dram 0 (2 ^ 25 + 8)) ∧ s.noSigRoom (.dram 0 (2 ^ 25 + 8)) = false ∧ s.askHome (.dram 0 (2 ^ 25 + 8)) false = .granted s ∧
    orderedTask.accessed = false ∧ hostCopy s (.dram 0 (2 ^ 25 + 8)) = none ∧ s.poisonedAt (.dram 0 (2 ^ 25 + 8)) 8 = false ∧
    s.cachedLine s.curCluster (.dram 0 (2 ^ 25 + 8)) = none ∧ loadRow s (.ldd 3 4 .direct 0) = some (.d, .direct, 3, 0x10008, 4) ∧
    storeRow s (.std 5 4 .direct 0) = some (.d, .direct, 0x11, 0x10008, 4) ∧ atomFields (.aadd 3 4 5 .d .rlx .cl) = some (.d, .rlx, .cl, 3, 4, 5) :=
  ⟨rfl, rfl, rfl, at_page _ _ (fun _ => rfl) rfl, by decide +kernel, ⟨_, rfl⟩, rfl, at_page _ _ (fun _ => rfl) rfl, by decide +kernel, rfl,
    rfl, rfl, rfl, rfl, rfl, rfl, rfl⟩

/-! ### Ropes, futures and counters -/

/-- The home answers at once. -/
def isGranted (a : HomeAnswer) : Bool :=
  match a with
  | .granted _ => true
  | _ => false

/-- The state after the home has answered. -/
def asked (s : State) (g : Nat) (w : Bool) : State :=
  match s.askHome (.dram 0 g) w with
  | .granted u => u
  | _ => s

theorem asked_granted {s : State} {g : Nat} {w : Bool} (h : isGranted (s.askHome (.dram 0 g) w) = true) :
    s.askHome (.dram 0 g) w = .granted (asked s g w) := by
  unfold asked
  revert h
  cases s.askHome (.dram 0 g) w <;> simp [isGranted]

/-- The translation of an address is in the caller's TLB, with the rights of the access, and gives g in partition 0, outside every view range. -/
def hits (s : State) (va : Word) (acc g : Nat) : Bool :=
  decide (s.cur.id.kind = .barrel) && decide (s.curPart = 0) && decide (s.place 0 s.curCluster va = .paged) && s.hostPasid.isNone &&
  decide ((s.part 0).windowAt g = none) &&
  match s.tlbHit (s.tlbOf s.cur) (coreOfThread s.cur.id) false 0 (s.asid 0 s.curCtx) va.toNat with
  | some e => e.d && e.allows acc (s.mode == 0) && decide (s.selected 0 (e.gpaOf va) = g)
  | none => false

theorem located {s : State} {va : Word} {acc g : Nat} (h : hits s va acc g = true) (r : TrapRec) : s.locate va acc r = .ok (.dram 0 g) s := by
  simp only [hits, Bool.and_eq_true, decide_eq_true_eq, Option.isNone_iff_eq_none] at h
  obtain ⟨⟨⟨⟨⟨k, p⟩, q⟩, hp⟩, w⟩, t⟩ := h
  split at t
  · rename_i e he
    simp only [Bool.and_eq_true, decide_eq_true_eq] at t
    obtain ⟨⟨d, a⟩, g'⟩ := t
    simp [State.locate, k, p, q, State.translatePaged, State.viewBars, hp, he, g', w, a, d]
  · cases t

/-- What `OnWord` asks, as a test. -/
def wordOk (s : State) (va : Word) (align acc g : Nat) : Bool :=
  decide (va.toNat % align = 0) && decide (g % align = 0) && hits s va acc g && isGranted (s.askHome (.dram 0 g) (acc == 1)) &&
  !s.poisonedAt (.dram 0 (g + if align = 64 then 0x18 else 0)) (if align = 16 then 16 else 8) && decide (0 < align) && (List.range align).all fun k => decide (s.physOf 0 (g + k) = some (g + k)) && decide ((s.part 0).windowAt (g + k) = none)

theorem on_word {s : State} {va : Word} {align acc g : Nat} {w : Bool} (e : (acc == 1) = w) (h : wordOk s va align acc g = true) :
    OnWord s (asked s g w) va align acc 0 g := by
  subst e
  simp only [wordOk, Bool.and_eq_true, decide_eq_true_eq, Bool.not_eq_true', List.all_eq_true, List.mem_range] at h
  obtain ⟨⟨⟨⟨⟨⟨a, o⟩, l⟩, m⟩, w⟩, z⟩, b⟩ := h
  exact ⟨a, o, located l, fun k hk => (b k hk).2, asked_granted m, w, fun k hk => ⟨g, by simpa using (b 0 z).1, (b k hk).1⟩⟩

/-- A thread of a free task is warm: no first access of an ordered task lies ahead. -/
theorem warm_free {s : State} {k : Task} (h : s.cur.task = some k) (f : k.cls = .free) : Warm s := by
  intro q hq
  rw [h] at hq
  cases hq
  intro c
  rw [f] at c
  cases c

/-- A rope at 0x10040 with the words given, and a count in g5. -/
def ropeAt (w bytes : Nat) (n : Word) : State := State.holding (world [(4, 0x10040), (5, n)] freeTask) [(0x40, w), (0x48, bytes)]

/-- A future at 0x10040 with the word given, and a header at 0x10080 whose `CTRL` is given. -/
def futureAt (w ctrl : Nat) (k : Task) : State := State.holding (world [(4, 0x10040), (5, 0x10080), (6, 0x10080)] k) [(0x40, w), (0x98, ctrl)]

def ropeG : Nat := 2 ^ 25 + 0x40

/-- A live rope with two arrivals missing, the last arrival, a broken rope, a passed phase, and the counts at both ends. -/
theorem witness_RopeInstructions :
    let live := ropeAt (2 * 2 ^ 32 + 2) 100 10
    let last := ropeAt (1 * 2 ^ 32 + 2) 10 10
    let broken := ropeAt (2 ^ 62 + 2) 0 10
    let most := ropeAt 0 0 (2 ^ 30 - 1)
    let other := ropeAt (2 * 2 ^ 32 + 2) 100 (2 ^ 63)
    (OnWord live (asked live ropeG true) 0x10040 16 1 0 ropeG ∧ live.release .prt = live ∧ NoneWaits live 0 ropeG ∧ Canonical live ∧ Warm live ∧
      (live.part 0).bindings.find? (fun x => x.gpa == ropeG) = none ∧
      live.speculative = false ∧ live.cur.task = some freeTask ∧ ¬ brokenOf (live.readD 0 ropeG) ∧ pendOf (live.readD 0 ropeG) ≠ 0 ∧ (live.g 5).toNat ≤ (live.readD 0 (ropeG + 8)).toNat ∧
      ¬ (pendOf (live.readD 0 ropeG) = 1) ∧ (live.readD 0 (ropeG + 8)).toNat + (live.g 5).toNat < 2 ^ 64) ∧
    (OnWord last (asked last ropeG true) 0x10040 16 1 0 ropeG ∧ pendOf (last.readD 0 ropeG) = 1 ∧ (last.g 5).toNat = (last.readD 0 (ropeG + 8)).toNat) ∧
    (OnWord broken (asked broken ropeG true) 0x10040 16 1 0 ropeG ∧ brokenOf (broken.readD 0 ropeG)) ∧
    (OnWord most (asked most ropeG true) 0x10040 16 1 0 ropeG ∧ (most.g 5).toNat % 2 ^ 32 ≠ 0 ∧ (most.g 5).toNat % 2 ^ 32 < 2 ^ 30) ∧
    (OnWord other (asked other ropeG true) 0x10040 16 1 0 ropeG ∧ phaseOf (other.readD 0 ropeG) ≠ (other.g 5).toNat / 2 ^ 63) ∧
    OnWord live (asked live ropeG false) 0x10040 16 0 0 ropeG := by
  refine ⟨⟨?_, rfl, ⟨nofun, nofun⟩, canonical_of_empty _ (by decide +kernel) rfl (by decide), warm_free rfl rfl, ?_⟩, ⟨?_, ?_⟩, ⟨?_, ?_⟩,
    ⟨?_, ?_⟩, ⟨?_, ?_⟩, ?_⟩ <;>
    first | (refine on_word rfl ?_; decide +kernel) | decide +kernel | (unfold brokenOf; decide +kernel)

/-- An empty future and one with a waiter, a final one, and a header with a counter of 2 and of 0. -/
theorem witness_FuturesAndCounters :
    let open0 := futureAt 0 (2 * 2 ^ 16) freeTask
    let open1 := futureAt (2 ^ 62 + 5) (2 * 2 ^ 16) freeTask
    let final := futureAt (3 * 2 ^ 62 + 9) (2 * 2 ^ 16) freeTask
    let afterF := asked final ropeG true
    (OnWord open0 (asked open0 ropeG true) 0x10040 8 1 0 ropeG ∧ open0.release .prt = open0 ∧ NoneWaits open0 0 ropeG ∧ Canonical open0 ∧ Warm open0 ∧
      (open0.readD 0 ropeG).toNat / 2 ^ 62 < 2 ∧ open0.speculative = false ∧ (open1.readD 0 ropeG).toNat / 2 ^ 62 < 2) ∧
    OnWord open0 (asked open0 ropeG false) 0x10040 8 0 0 ropeG ∧
    (OnWord final afterF 0x10040 8 1 0 ropeG ∧ 2 ≤ (final.readD 0 ropeG).toNat / 2 ^ 62) ∧
    (OnWord open0 (asked open0 (ropeG + 0x40) true) 0x10080 64 1 0 (ropeG + 0x40) ∧ (open0.readD 0 (ropeG + 0x40 + 0x18)).toNat / 2 ^ 16 % 2 ^ 16 ≠ 0) ∧
    (final.g 4 = 0x10040 ∧ final.g 5 = 0x10080 ∧ 2 ≤ ((asked afterF (ropeG + 0x40) true).readD 0 ropeG).toNat / 2 ^ 62) ∧ TableRoom open0 (open0.homeDie 0 ropeG) := by
  refine ⟨⟨?_, rfl, ⟨nofun, nofun⟩, canonical_of_empty _ (by decide +kernel) rfl (by decide), warm_free rfl rfl, ?_⟩, ?_, ⟨?_, ?_⟩,
    ⟨?_, ?_⟩, ?_, ?_⟩ <;>
    first | (refine on_word rfl ?_; decide +kernel) | decide +kernel | (unfold TableRoom; decide +kernel)

/-- The current phase of a rope, and an empty future, with room in the context store and the table. -/
theorem witness_WaitsPark :
    let rope := ropeAt (2 * 2 ^ 32 + 2) 100 10
    let fut := futureAt 0 0 freeTask
    (rope.speculative = false ∧ rope.cur.id.kind = .barrel ∧ (rope.cluster rope.curCluster).stored < 170 ∧ TableRoom rope (rope.homeDie 0 ropeG) ∧
      ¬ brokenOf (rope.readD 0 ropeG) ∧ phaseOf (rope.readD 0 ropeG) = (rope.g 5).toNat / 2 ^ 63) ∧ rope.cur.task = some freeTask ∧
    OnWord rope (asked rope ropeG true) 0x10040 16 1 0 ropeG ∧
    (OnWord fut (asked fut ropeG true) 0x10040 8 1 0 ropeG ∧ (fut.readD 0 ropeG).toNat / 2 ^ 62 < 2) := by
  refine ⟨?_, rfl, ?_, ?_, ?_⟩ <;> (try unfold TableRoom) <;>
    first | (refine on_word rfl ?_; decide +kernel) | decide +kernel | (simp only [brokenOf]; decide +kernel)

/-- A task parked at an `FWAIT` in the context store of cluster 0. -/
def parkedTask : Parked :=
  { thread := { Thread.idle ⟨.barrel, 0, 1⟩ with regs := regsOf [(4, 0x10040)], task := some { freeTask with uid := 9 } }, resume := .fwait 4 5, len := 4, inArea := false }

theorem witness_WakesCompleteTheWait :
    let s := (world [] freeTask).mapCluster 0 fun c => { c with store := [parkedTask] }
    s.clusters.findSome? (fun e => (e.2.store.find? (fun x => x.isTask 9)).map fun x => (e.1, x)) = some (0, parkedTask) ∧
    parkedTask.thread.task = some { freeTask with uid := 9 } := ⟨rfl, rfl⟩

/-- Each misuse of a rope, a future and a counter. -/
theorem witness_SyncMisuseTraps :
    let zero := ropeAt 0 0 0
    let large := ropeAt 0 0 (2 ^ 30)
    let waited := { ropeAt 0 0 1 with biv := [{ die := 0, part := 0, ctx := 0, gpa := ropeG, kind := .rope 9 false, spill := false }] }
    let less := ropeAt (2 * 2 ^ 32 + 2) 5 10
    let full := ropeAt (2 * 2 ^ 32 + 2) (2 ^ 64 - 1) 1
    let final := futureAt (2 * 2 ^ 62) 0 freeTask
    Enters zero ∧ zero.speculative = false ∧ (zero.g 5).toNat % 2 ^ 32 = 0 ∧ 2 ^ 30 ≤ (large.g 5).toNat % 2 ^ 32 ∧
    (∃ x ∈ waited.biv, x.part = 0 ∧ x.gpa = ropeG ∧ ∃ i f, x.kind = .rope i f) ∧ ¬ brokenOf (zero.readD 0 ropeG) ∧ pendOf (zero.readD 0 ropeG) = 0 ∧
    (less.readD 0 (ropeG + 8)).toNat < (less.g 5).toNat ∧ pendOf (less.readD 0 ropeG) ≠ 0 ∧ 2 ^ 64 ≤ (full.readD 0 (ropeG + 8)).toNat + (full.g 5).toNat ∧
    2 ≤ (final.readD 0 ropeG).toNat / 2 ^ 62 ∧ (final.readD 0 (ropeG + 0x58)).toNat / 2 ^ 16 % 2 ^ 16 = 0 ∧
    OnWord zero (asked zero ropeG true) 0x10040 16 1 0 ropeG ∧ OnWord final (asked final ropeG true) 0x10040 8 1 0 ropeG ∧
    OnWord final (asked final (ropeG + 0x40) true) 0x10080 64 1 0 (ropeG + 0x40) ∧ Warm zero ∧
    OutsideDevice zero 0x00FF000000000040 1 ∧ OutsideDevice (asked final ropeG true) 0x00FF000000000040 1 ∧ OutsideDevice viewedPage 0x10040 1 ∧
    OutsideDevice viewedPage 0x10040 0 := by
  refine ⟨?_, ?_, ?_, ?_, ⟨_, List.mem_singleton.2 rfl, rfl, rfl, _, _, rfl⟩, ?_, ?_, ?_, ?_, ?_, ?_, ?_, ?_,
    ?_, ?_, warm_free rfl rfl, .inl ⟨.scratch 0 0x40, fun _ => rfl, nofun⟩, .inl ⟨.scratch 0 0x40, fun _ => by rfl, nofun⟩, .inr fun _ => rfl,
    .inl ⟨.dram 0 ropeG, fun _ => rfl, fun q h e => by cases e; rfl⟩⟩ <;> (try unfold Enters) <;>
    first | (refine on_word rfl ?_; decide +kernel) | decide +kernel | (unfold brokenOf; decide +kernel)

/-! ### Tasks -/

/-- What `LineAt` asks, as a test. -/
def lineOk (s : State) (va : Word) (g : Nat) : Bool := hits s va 0 g && !s.poisonedAt (.dram 0 g) 64 && isGranted (s.askHome (.dram 0 g) false)

theorem line_at {s : State} {va : Word} {g : Nat} (h : lineOk s va g = true) : LineAt s (asked s g false) va 0 g := by
  simp only [lineOk, Bool.and_eq_true, Bool.not_eq_true'] at h
  obtain ⟨⟨l, w⟩, a⟩ := h
  refine ⟨located l, ?_, asked_granted a, w⟩
  simp only [hits, Bool.and_eq_true, decide_eq_true_eq] at l
  exact l.1.2

/-- The state after both lines of a header have been read. -/
def headed (s : State) (g h : Nat) : State := asked (asked s g false) h false

theorem header_at {s : State} (hdr : Word) (g h : Nat) (a : hdr.toNat % 64 = 0) (x : lineOk s hdr g = true)
    (y : lineOk (asked s g false) (hdr + 64) h = true) :
    HeaderAt s (headed s g h) hdr 0 g (s.bytesAt (.dram 0 g) 64 ++ s.bytesAt (.dram 0 h) 64) := ⟨a, _, h, line_at x, line_at y, rfl⟩

/-- A header at 0x10080: its entry, key and `CTRL`, and a first successor. -/
def headerAt (entry key ctrl succ : Nat) (n : Word) (k : Task) : State :=
  State.holding (world [(4, 0x10080), (5, n), (6, 0x10081)] k) [(0x80, entry), (0x88, 5), (0x90, key), (0x98, ctrl), (0xA0, succ)]

def headerG : Nat := 2 ^ 25 + 0x80

/-- The state after the header has been read. -/
def read (s : State) : State := headed s headerG (headerG + 64)

/-- The bytes of such a header. -/
def headerBytes (s : State) : List Byte := s.bytesAt (.dram 0 headerG) 64 ++ s.bytesAt (.dram 0 (headerG + 64)) 64

/-- A free header without and with a counter; a range of three instances and of none; the caller is a free task. -/
theorem witness_SpawnRegistersTheHeader :
    let one := headerAt 0x20000 0 0 0 3 freeTask
    let held := headerAt 0x20000 0 (2 ^ 16) 0 3 freeTask
    let none_ := headerAt 0x20000 0 0 0 0 freeTask
    one.cur.task = some freeTask ∧ freeTask.part = 0 ∧ HeaderAt one (read one) 0x10080 0 headerG (headerBytes one) ∧ one.release .prt = one ∧ one.speculative = false ∧ Warm one ∧
    headerFails (headerBytes one) false 1 (ownKey freeTask) = none ∧ depsOf (headerBytes one) = 0 ∧ ntileOf (headerBytes one) = 0 ∧
    (one.regs.any fun r => r.part == 0 && r.gpa == headerG) = false ∧ (one.g 5).toNat ≠ 0 ∧ headerFails (headerBytes one) false 3 (ownKey freeTask) = none ∧
    HeaderAt held (read held) 0x10080 0 headerG (headerBytes held) ∧ headerFails (headerBytes held) false 1 (ownKey freeTask) = none ∧ depsOf (headerBytes held) ≠ 0 ∧
    TableRoom held (held.homeDie 0 headerG) ∧ (none_.g 5).toNat = 0 ∧ headerFails (headerBytes none_) false 0 (ownKey freeTask) = none ∧
    nsuccOf (headerBytes none_) = 0 := by
  refine ⟨rfl, rfl, header_at _ _ _ ?_ ?_ ?_, rfl, rfl, warm_free rfl rfl, ?_, ?_, ?_, ?_, ?_, ?_, header_at _ _ _ ?_ ?_ ?_, ?_, ?_, ?_, ?_, ?_, ?_⟩ <;>
    first | decide +kernel | (unfold TableRoom; decide +kernel)

/-- A header for each of the checks 2 to 10 of R171, in the order of the checks. -/
theorem witness_HeaderChecksDecide :
    let fails (entry key ctrl succ : Nat) (reg : Bool) (n : Nat) (k : Task) (a : Nat × Nat) : Prop :=
      headerFails (headerBytes (headerAt entry key ctrl succ 0 k)) reg n (ownKey k) = some a
    fails 0x20000 0 2 0 false 1 freeTask (0x01, 7) ∧ fails 0x20000 0 (5 * 64) 0 false 1 freeTask (0x03, 1) ∧ fails 0x20000 0 (5 * 512) 0 false 1 freeTask (0x03, 1) ∧
    fails 0x20000 0 (2 ^ 12) 0 false 1 freeTask (0x03, 2) ∧ fails 0x20000 1 0 0 false 1 freeTask (0x03, 3) ∧ fails 0x20001 0 0 0 false 1 freeTask (0x03, 4) ∧
    fails 0x20000 0 64 8 false 1 freeTask (0x03, 5) ∧ fails 0x20000 0 0 0 true 1 freeTask (0x03, 6) ∧ fails 0x20000 0 0 0 false (2 ^ 32) freeTask (0x03, 7) ∧
    fails 0x20000 (2 ^ 64 - 1) 1 0 false 2 freeTask (0x03, 7) ∧ fails 0x20000 0xFF 1 0 false 1 orderedTask (0x0D, 1) := by
  refine ⟨?_, ?_, ?_, ?_, ?_, ?_, ?_, ?_, ?_, ?_, ?_⟩ <;> decide +kernel

theorem witness_HeaderChecksDecide_state :
    let s := headerAt 0x20001 0 0 0 3 freeTask
    Enters s ∧ s.cur.task = some freeTask ∧ s.speculative = false ∧ HeaderAt (s.release .prt) (read (s.release .prt)) 0x10080 0 headerG (headerBytes s) ∧ (s.g 6).toNat % 64 ≠ 0 ∧ Warm s := by
  refine ⟨?_, rfl, rfl, header_at _ _ _ ?_ ?_ ?_, ?_, warm_free rfl rfl⟩ <;> first | decide +kernel | (unfold Enters; decide +kernel)

/-- The registration of the running task: live instances and successors. -/
def ownReg (live : Nat) (succ : List Word) : Registration :=
  { id := 1, part := 0, ctx := 0, va := 0x18000, gpa := 2 ^ 25 + 0x8000, hdr := { entry := 0x20000, arg := 0, key := 0, ctrl := 0, succ := succ, tiles := [] },
    range := false, n := 2, held := false, live := live, ended := false, spawner := none }

/-- A task that exits: one of two instances, the last one without and with a successor, at a counter of 1 and of 0. -/
def exits (live : Nat) (succ : List Word) (ctrl : Nat) (k : Task) : State := { headerAt 0x20000 0 ctrl 0 0 k with regs := [ownReg live succ] }

theorem witness_ExitEndsTheTask :
    let two := exits 2 [] 0 freeTask
    let last := exits 1 [0x10080] (2 ^ 16) freeTask
    let under := exits 1 [0x10080] 0 freeTask
    let r0 (s : State) : State := ((s.freeArray s.curCluster 7).release .prt).mapTask fun x => { x with exitAt := some 0 }
    let busy := { two with cur := { two.cur with tq := [.tzero 0] } }
    two.cur.task = some freeTask ∧ freeTask.loader = none ∧ two.cur.tq = [] ∧ freeTask.cls = .free ∧ (two.part 0).bindings = [] ∧ two.reg? 1 = some (ownReg 2 []) ∧
    (ownReg 2 []).live > 1 ∧ last.reg? 1 = some (ownReg 1 [0x10080]) ∧ (ownReg 1 [0x10080]).live ≤ 1 ∧ (ownReg 1 [0x10080]).hdr.succ = [0x10080] ∧
    freeTask.exitAt = none ∧ OnWord (r0 last) (asked (r0 last) headerG true) 0x10080 64 1 0 headerG ∧
    (last.readD 0 (headerG + 0x18)).toNat / 2 ^ 16 % 2 ^ 16 ≠ 0 ∧ OnWord (r0 under) (asked (r0 under) headerG true) 0x10080 64 1 0 headerG ∧
    (under.readD 0 (headerG + 0x18)).toNat / 2 ^ 16 % 2 ^ 16 = 0 ∧ Enters under ∧ (exits 1 [] 0 orderedTask).cur.task = some orderedTask ∧ orderedTask.cls = .ordered ∧
    busy.cur.tq ≠ [] := by
  refine ⟨rfl, rfl, rfl, rfl, rfl, rfl, ?_, rfl, ?_, rfl, rfl, ?_, ?_, ?_, ?_, ?_, rfl, rfl, ?_⟩ <;>
    first | (refine on_word rfl ?_; decide +kernel) | decide +kernel | (unfold Enters; decide +kernel)

/-- An engine request, as far as a loader's `EXIT` and a completion look at it. -/
def someReq (kind : ReqKind) (blk : List Word) : Req :=
  { id := 5, kind := kind, blk := blk, va := 0x10080, part := 0, ctx := 0, uid := 7, cl := 0, ordered := false, user := true, pos := 0, done := 0, endKind := none,
    faddr := 0, elem := 0, sid := 0, cnts := [], token := none, parent := none, children := 0, exited := false, aborted := false, stage := 0, noRecord := false,
    noAction := false, umbra := none, die := 0, core := 0, started := true, belay := false, entry := 0, peer := [], ahead := [], waits := false,
    recorded := false, holds := none }

theorem witness_ExitEndsTheTask_loader : ∃ k : Task, k.loader = some 5 ∧ ∃ q ∈ [someReq .copyp []], q.id = 5 := ⟨{ freeTask with loader := some 5 }, rfl, _, List.mem_singleton.2 rfl, rfl⟩

/-- A fresh task of the caller's priority waits in the cluster. -/
def waiter (prio : Nat) : QEntry :=
  { job := .fresh 1 0 none, part := 0, ctx := 0, prio := prio, ordered := false, key := 0, hdr := 0x18000, stamp := 0, seq := 0, agedAt := 0, bound := none, sought := false }

theorem witness_YieldGivesWay :
    let s (p : Nat) : State := { (world [] { freeTask with prio := 3 }).mapCluster 0 fun c => { c with readyQ := [waiter p] } with regs := [ownReg 1 []] }
    ((s 2).cur.task.map fun k => k.prio) = some 3 ∧ (∀ e ∈ (s 2).dispatchable 0, e.prio < 3) ∧ (s 3).dispatchable 0 = [waiter 3] ∧ 3 ≤ (waiter 3).prio ∧
    ((s 3).ctxState 0 0).holder ≠ some (1, 0) ∧ (s 3).cur.wait = .ready ∧ (s 3).cur.id.kind = .barrel ∧ ((s 3).cluster 0).stored < 170 ∧ (s 3).cur.tq = [] ∧
    (waiter 3).job = .fresh 1 0 none ∧ (s 3).reg? 1 = some (ownReg 1 []) ∧ (waiter 3).seq ≠ (s 3).uidNext + 1 ∧ ((s 3).running 0).length ≤ 128 ∧
    ((s 3).mapCtx 0 0 fun x => { x with holder := some (1, 0) }).ctxState 0 0 = { CtxState.reset with holder := some (1, 0) } := by
  refine ⟨rfl, ?_, ?_, ?_, ?_, ?_, rfl, ?_, ?_, rfl, rfl, ?_, ?_, rfl⟩ <;> decide +kernel

theorem witness_KeysMessagesAndIdentity :
    let s := headerAt 0x20000 0 0 0 0 freeTask
    let o := world [(5, 0x0), (6, 0xFF)] orderedTask
    let w : WritePtr := { brk := false, count := 5, req := some 5 }
    let part1 : Part := { part0 with resident := 1 }
    (s.cur.task = some freeTask ∧ HeaderAt s (read s) 0x10080 0 headerG (headerBytes s) ∧ s.speculative = false ∧ ntileOf (headerBytes s) = 0 ∧ Warm s) ∧
    (o.cur.task = some orderedTask ∧ (BitVec.ofNat 64 ((o.g 5).toNat % 2 ^ 48 * 2 ^ 16 + (o.g 6).toNat % 2 ^ 16)).toNat < orderedTask.key.toNat ∧ Enters o) ∧
    (w.brk = false ∧ w.count < 6 ∧ 5 ≤ w.count ∧ w.req ≠ none ∧ s.cur.id.kind = .barrel ∧ (s.cluster 0).stored < 170 ∧ TableRoom s 0) ∧
    (0 < part0.clusters ∧ part0.clusters ≤ 8 ∧ part0.inboxOf 0 0 = [] ∧ part0.residentAt 0 = some 0 ∧ part1.residentAt 0 ≠ some 0 ∧ (s.cluster 0).inbox = [] ∧
      s.cur.wait = .ready) := by
  refine ⟨⟨rfl, header_at _ _ _ ?_ ?_ ?_, rfl, ?_, warm_free rfl rfl⟩, ⟨rfl, ?_, ?_⟩, ⟨rfl, ?_, ?_, ?_, rfl, ?_, ?_⟩, ?_⟩ <;>
    first | decide +kernel | (unfold Enters; decide +kernel) | (unfold TableRoom; decide +kernel)

/-- A message for the running context, and a full memory-backed inbox. -/
theorem witness_KeysMessagesAndIdentity_messages :
    let m : Msg := { part := 0, ctx := 0, sender := 0, payload := 9 }
    (([m].filter fun x : Msg => x.part == 0 && x.ctx == 0) = m :: []) ∧ (List.replicate 63 m).length < 64 ∧ ∀ n, n = 4096 → 4096 ≤ (List.replicate n m).length := by
  refine ⟨rfl, ?_, fun n h => ?_⟩
  · decide
  · rw [List.length_replicate]; omega

theorem witness_ResidencyTables :
    let c (b : Nat) (v : Bool) : Cairn := { base := word b, units := 2, kind := 1, valid := v, setAt := 3 }
    let s := world [(4, 0x7000), (5, 0x1), (6, 0x7001), (7, 0x8000000000000000)] freeTask
    let old : Tbl Cairn := [(0, c 0x7000 true), (2, c 0x9000 false)]
    s.cur.task = some freeTask ∧ (s.g 4).toNat % 4096 = 0 ∧ (∃ e ∈ old, e.2.valid = true ∧ e.2.base = s.g 4) ∧ (∃ j < 64, ¬ ∃ x, old.get? j = some x ∧ x.valid = true) ∧
    (s.g 7).getLsbD 63 = true ∧ overlaps (c 0x7000 true) 0x8000 0x1000 ∧ ¬ overlaps (c 0x7000 true) 0x9000 0x1000 ∧ (s.g 6).toNat % 4096 ≠ 0 ∧ Enters s ∧
    (s.g 5).getLsbD 63 = false ∧ (∀ e ∈ old, e.2.units ≠ 0) := by
  refine ⟨rfl, ?_, ?_, ⟨1, ?_, ?_⟩, ?_, ?_, ?_, ?_, ?_, ?_, ?_⟩ <;>
    first | decide +kernel | (unfold overlaps; decide +kernel) | (unfold Enters; decide +kernel)

theorem witness_ResidencyTables_directory :
    let s := { world [] freeTask with dies := [(0, { Die.reset with dirQ := [{ part := 0, cl := 0, region := 3 }] })] }
    (s.die 0).dirQ = { part := 0, cl := 0, region := 3 } :: [] ∧ (s.cluster 0).cairn = [] := ⟨rfl, rfl⟩

/-! ### System calls, servers, engines and umbras -/

/-- A block at 0x10080 of eight doublewords, in a world whose partition is changed by f. -/
def blockAt (ws : List Nat) (b : Word) (f : Part → Part) (k : Task) : State :=
  (State.holding (world [(4, 0x10080), (5, b), (6, 0x10081)] k) ((List.range 8).map fun i => (0x80 + 8 * i, ws.getD i 0))).mapPart 0 f

/-- The bytes of such a block. -/
def blockBytes (s : State) : List Byte := s.bytesAt (.dram 0 headerG) 64

/-- A service ring of 4 KiB with its head at 0 and its tail at the last place where a packet fits. -/
def withRing (t : Part) : Part := { t with svcLog := 12, svcHead := 0, svcTail := 4000 - 1, svcBase := 0x100000 }

theorem witness_SystemCalls :
    let s := blockAt [1, 2, 3] 9 withRing freeTask
    s.cur.task = some freeTask ∧ s.speculative = false ∧ (s.g 6).toNat % 64 ≠ 0 ∧ Enters s ∧ (s.g 4).toNat % 64 = 0 ∧ LineAt (s.release .sys) (asked (s.release .sys) headerG false) 0x10080 0 headerG ∧
    s.cur.id.kind = .barrel ∧ (s.cluster s.curCluster).stored < 170 ∧ s.syscs = [] ∧ 12 ≤ (s.part 0).svcLog ∧ (s.part 0).svcHead ≤ (s.part 0).svcTail ∧
    (s.part 0).svcTail + 96 ≤ 2 ^ (s.part 0).svcLog ∧ (s.part 0).svcTail + 96 < (s.part 0).svcHead + 2 ^ (s.part 0).svcLog ∧ Canonical s := by
  refine ⟨rfl, rfl, ?_, ?_, ?_, line_at ?_, rfl, ?_, rfl, ?_, ?_, ?_, ?_, canonical_of_empty _ ?_ rfl ?_⟩ <;>
    first | decide +kernel | (unfold Enters; decide +kernel)

/-- An image of either mode with its counts. -/
def someImage (call : Bool) (nargs nres : Nat) : Image :=
  { img := 0x30000, call := call, nargs := nargs, nres := nres, lat := 1, pats := [], elems := [], routes := [], nests := [], ctls := [] }

/-- Server 7 is valid and bound to the image at 0x30000. -/
def withServer (t : Part) : Part := { t with conf := { t.conf with servers := [(7, { img := 0x30000, ctl := 1 })] } }

/-- The first fabric of cluster 0 holds an image. -/
def onFabric (s : State) (i : Image) : State := s.mapCluster 0 fun c => { c with fabrics := [(0, { Fabric.reset with image := some i })] }

theorem ready_fabric (s : State) (i : Image) (h : i.img = 0x30000) : Ready (onFabric s i) 0 0 i 0x30000 := by
  refine ⟨by decide, ?_, h, ?_, ?_, ?_, fun e he => absurd he (by omega)⟩ <;>
    simp [onFabric, State.fabric, State.cluster, State.mapCluster, State.setCluster, Tbl.getD, Tbl.get?, Fabric.reset, Machine.Tbl.get?_put]

theorem witness_ServerCalls :
    let s := blockAt [] 9 withServer freeTask
    s.cur.task = some freeTask ∧ (s.part 0).pending = none ∧ ((s.part 0).conf.servers.getD 8 { img := 0, ctl := 0 }).ctl.getLsbD 0 = false ∧ Enters s ∧
    ((s.part 0).conf.servers.getD 7 { img := 0, ctl := 0 }) = { img := 0x30000, ctl := 1 } ∧ Ready (onFabric s (someImage true 2 1)) 0 0 (someImage true 2 1) 0x30000 ∧
    Ready (onFabric s (someImage false 2 0)) 0 0 (someImage false 2 0) 0x30000 ∧ ¬ ((someImage true 2 1).nargs = 1 ∧ (someImage true 2 1).nres = 1) ∧
    (∀ f < 4, (s.fabric 0 f).image = none) ∧ (s.cluster 0).fetches = [] ∧ ∃ f < 4, s.fabric 0 f = Fabric.reset := by
  refine ⟨rfl, rfl, ?_, ?_, rfl, ready_fabric _ _ rfl, ready_fabric _ _ rfl, ?_, ?_, rfl, 0, by decide, rfl⟩ <;> first | decide +kernel | (unfold Enters; decide +kernel)

theorem no_low_cause (s : State) (k : Task) (kind : ReqKind) (bs : List Byte) (c : Nat) (h : c < 10 ∨ (14 < c ∧ c ≠ 19)) : ¬ blockCause s k kind bs c := by
  unfold blockCause
  split <;> first | omega | exact id

theorem good_block {s : State} {k : Task} {kind : ReqKind} {bs : List Byte} (f : flagsOf bs = 0) (a : ¬ blockCause s k kind bs 12) (p : kind ≠ .rcopy) (c : Nat) :
    ¬ blockCause s k kind bs c := by
  by_cases h : c < 10 ∨ (14 < c ∧ c ≠ 19)
  · exact no_low_cause s k kind bs c h
  · have : c = 10 ∨ c = 11 ∨ c = 12 ∨ c = 13 ∨ c = 14 ∨ c = 19 := by omega
    rcases this with rfl | rfl | rfl | rfl | rfl | rfl
    · simp [blockCause, f]
    · simp [blockCause, f, wpeOf]
    · exact a
    · simp [blockCause, f, wpeOf]
    · simp [blockCause, f, wpeOf]
    · simp [blockCause, p]

theorem good_copy (s : State) (k : Task) (bs : List Byte) (f : flagsOf bs = 0)
    (a : field bs 0x20 8 % 64 = 0 ∧ field bs 0 8 % 64 = 0 ∧ field bs 8 8 % 64 = 0 ∧ field bs 0x10 4 % 64 = 0 ∧ field bs 0x14 4 % 64 = 0 ∧ field bs 0x1C 4 % 64 = 0) (c : Nat) :
    ¬ blockCause s k .copy bs c := good_block f (by simp [blockCause, a]) (by decide) c

/-- A sound `COPY` of two rows of one line, and one with nothing to move. -/
theorem witness_EngineRequests :
    let s := blockAt [0x10000, 0x14000, 0x40 + 0x40 * 2 ^ 32, 2 + 0x40 * 2 ^ 32, 0, 0] 9 id freeTask
    engineRow (.copy 4) = some (.copy, 4) ∧ s.cur.task = some freeTask ∧ s.speculative = false ∧ Warm s ∧ (s.g 6).toNat % 64 ≠ 0 ∧ Enters s ∧ (s.g 4).toNat % 64 = 0 ∧
    LineAt (s.release .prt) (asked (s.release .prt) headerG false) 0x10080 0 headerG ∧ (∀ c, ¬ blockCause s freeTask .copy (blockBytes s) c) ∧ umbOf (blockBytes s) = false ∧
    ¬ movesNothing .copy (blockBytes s) ∧ movesNothing .copy (blockBytes (blockAt [] 9 id freeTask)) := by
  refine ⟨rfl, rfl, rfl, warm_free rfl rfl, ?_, ?_, ?_, line_at ?_, good_copy _ _ _ ?_ ?_, ?_, ?_, ?_⟩ <;>
    first | decide +kernel | (unfold Enters; decide +kernel) | (unfold movesNothing; decide +kernel)

/-- A partition with an open umbra over the page at 0x10000, that has no cut. -/
def withUmbra (t : Part) : Part :=
  { t with umbras := [{ id := 0, part := 0, ctx := 0, owner := 1, base := 0x10000, len := 0x10000, chunks := [], cut := false, ordered := false, remote := none }] }

/-- A sound `COPY` with `UMB`, in a free task and in an ordered one: its two rows lie in an open umbra, or in none. -/
theorem witness_EngineRequests_umbra :
    let ws := [0x10000, 0x14000, 0x40 + 0x40 * 2 ^ 32, 2 + 0x40 * 2 ^ 32, 0, 4]
    let s := blockAt ws 9 withUmbra orderedTask
    let out := blockAt ws 9 id freeTask
    s.cur.task = some orderedTask ∧ s.speculative = true ∧ (s.g 4).toNat % 64 = 0 ∧ s.noSigRoom (.dram 0 headerG) = false ∧
    LineAt (s.release .prt) (asked (s.release .prt) headerG false) 0x10080 0 headerG ∧
    (s.cluster s.curCluster).overlay orderedTask.uid (.dram 0 headerG) (s.bytesAt (.dram 0 headerG) 64) = blockBytes s ∧ umbOf (blockBytes s) = true ∧
    (∀ c, ¬ blockCause s orderedTask .copy (blockBytes s) c) ∧ (∃ u ∈ (s.part 0).umbras, HoldsDestination u 0 .copy (blockBytes s)) ∧
    (∀ c, ¬ blockCause out freeTask .copy (blockBytes out) c) ∧ OutsideUmbra out freeTask .copy (blockBytes out) := by
  have none (s : State) (k : Task) (f : flagsOf (blockBytes s) = 4) (l : field (blockBytes s) 0x20 8 % 64 = 0 ∧ field (blockBytes s) 0 8 % 64 = 0 ∧
      field (blockBytes s) 8 8 % 64 = 0 ∧ field (blockBytes s) 0x10 4 % 64 = 0 ∧ field (blockBytes s) 0x14 4 % 64 = 0 ∧ field (blockBytes s) 0x1C 4 % 64 = 0) (c : Nat) :
      ¬ blockCause s k .copy (blockBytes s) c := by
    by_cases h : c < 10 ∨ (14 < c ∧ c ≠ 19)
    · exact no_low_cause s k _ _ c h
    · have : c = 10 ∨ c = 11 ∨ c = 12 ∨ c = 13 ∨ c = 14 ∨ c = 19 := by omega
      have w : wpeOf (blockBytes s) = false := by rw [wpeOf, f]; decide
      have b1 : Nat.testBit 4 1 = false := by decide
      rcases this with rfl | rfl | rfl | rfl | rfl | rfl
      · simp [blockCause, f]
      · simp only [blockCause, f, w]
        rintro (⟨j, hj, b, -, n⟩ | g | ⟨g, -⟩)
        · have : j = 2 := by interval_cases j <;> simp_all (decide := true)
          subst this
          exact n (.inr (by simp))
        · omega
        · cases g
      · simp [blockCause, l]
      · simp [blockCause, w]
      · simp [blockCause, w, f, b1]
      · simp [blockCause]
  refine ⟨rfl, rfl, ?_, ?_, line_at ?_, ?_, ?_, none _ _ ?_ ?_, ⟨_, List.mem_singleton.2 rfl, ?_⟩, none _ _ ?_ ?_, ?_, ?_, ?_⟩
  all_goals try first | decide +kernel | (unfold movesNothing; decide +kernel)
  · have r : field (blockBytes (blockAt [0x10000, 0x14000, 0x40 + 0x40 * 2 ^ 32, 2 + 0x40 * 2 ^ 32, 0, 4] 9 withUmbra orderedTask)) 0x18 4 = 2 := by decide +kernel
    refine ⟨by decide, by decide, ?_⟩
    rw [if_pos rfl, r]
    intro n h
    interval_cases n <;> decide +kernel
  · intro u h
    have e : ((blockAt [0x10000, 0x14000, 0x40 + 0x40 * 2 ^ 32, 2 + 0x40 * 2 ^ 32, 0, 4] 9 id freeTask).part freeTask.part).umbras = [] := by decide +kernel
    rw [e] at h; cases h

/-- A cause holds of the block of a `COPY` at 0x10080, and no lower one. -/
def LowestCause (s : State) (c : Nat) : Prop := blockCause s freeTask .copy (blockBytes s) c ∧ ∀ e < c, ¬ blockCause s freeTask .copy (blockBytes s) e

/-- A block in a world of its own. -/
def blk (ws : List Nat) : State := blockAt ws 9 id freeTask

theorem from_ten {s : State} {c : Nat} (h : ∀ e, 10 ≤ e → e < c → ¬ blockCause s freeTask .copy (blockBytes s) e) :
    ∀ e < c, ¬ blockCause s freeTask .copy (blockBytes s) e := by
  intro e he
  by_cases q : e < 10
  · exact no_low_cause s _ _ _ e (.inl q)
  · exact h e (by omega) he

theorem not_ten {s : State} {f : Nat} (h : flagsOf (blockBytes s) = f) (l : f < 2 ^ 13) : ¬ blockCause s freeTask .copy (blockBytes s) 10 := by
  simp only [blockCause, h]; omega

theorem not_eleven {s : State} {f : Nat} (h : flagsOf (blockBytes s) = f) (l : f < 16) : ¬ blockCause s freeTask .copy (blockBytes s) 11 := by
  simp only [blockCause, h]
  rintro (⟨j, hj, b, -, n⟩ | g | ⟨-, g | ⟨g, -⟩⟩)
  · have q : j < 4 := by
      by_contra q
      have p : 2 ^ 4 ≤ 2 ^ j := Nat.pow_le_pow_right (by omega) (by omega)
      exact absurd b (by rw [Nat.testBit_lt_two_pow (lt_of_lt_of_le l p)]; simp)
    unfold maySet at n; omega
  · omega
  · exact g rfl
  · cases g

theorem not_twelve {s : State} (h : let bs := blockBytes s; field bs 0x20 8 % 64 = 0 ∧ field bs 0 8 % 64 = 0 ∧ field bs 8 8 % 64 = 0 ∧ field bs 0x10 4 % 64 = 0 ∧ field bs 0x14 4 % 64 = 0 ∧ field bs 0x1C 4 % 64 = 0) :
    ¬ blockCause s freeTask .copy (blockBytes s) 12 := by
  simp only [blockCause]; omega

/-- Reserved bits. -/
theorem witness_EngineRequests_cause10 : LowestCause (blk [0, 0, 0, 0, 0, 2 ^ 32]) 10 :=
  ⟨.inl (by decide +kernel), from_ten (by omega)⟩

/-- A bit that is not for `COPY`. -/
theorem witness_EngineRequests_cause11 : LowestCause (blk [0, 0, 0, 0, 0, 2 ^ 10]) 11 := by
  have f : flagsOf (blockBytes (blk [0, 0, 0, 0, 0, 2 ^ 10])) = 2 ^ 10 := by decide +kernel
  refine ⟨.inl ⟨10, by decide, by rw [f]; decide, by omega, ?_⟩, from_ten fun e h1 h2 => ?_⟩
  · unfold maySet; simp
  · obtain rfl : e = 10 := by omega
    exact not_ten f (by decide)

/-- A misaligned source. -/
theorem witness_EngineRequests_cause12 : LowestCause (blk [8]) 12 := by
  have f : flagsOf (blockBytes (blk [8])) = 0 := by decide +kernel
  refine ⟨.inr (.inl (by decide +kernel)), from_ten fun e h1 h2 => ?_⟩
  have : e = 10 ∨ e = 11 := by omega
  rcases this with rfl | rfl
  · exact not_ten f (by decide)
  · exact not_eleven f (by decide)

/-- A write pointer that a request holds. -/
theorem witness_EngineRequests_cause13 : LowestCause ((blk [0, 0x00FF000000000000, 0, 0, 0, 8]).mapWp 0 0 fun w => { w with req := some 5 }) 13 := by
  have f : flagsOf (blockBytes ((blk [0, 0x00FF000000000000, 0, 0, 0, 8]).mapWp 0 0 fun w => { w with req := some 5 })) = 8 := by decide +kernel
  refine ⟨⟨by rw [wpeOf, f]; decide, 0, 0, ?_, ?_⟩, from_ten fun e h1 h2 => ?_⟩
  · unfold scratchOf; decide +kernel
  · decide +kernel
  · have : e = 10 ∨ e = 11 ∨ e = 12 := by omega
    rcases this with rfl | rfl | rfl
    · exact not_ten f (by decide)
    · exact not_eleven f (by decide)
    · exact not_twelve (by decide +kernel)

/-- A scratchpad bit for a destination in memory. -/
theorem witness_EngineRequests_cause14 : LowestCause (blk [0, 0x14000, 0, 0, 0, 2]) 14 := by
  have f : flagsOf (blockBytes (blk [0, 0x14000, 0, 0, 0, 2])) = 2 := by decide +kernel
  refine ⟨⟨.inr (by rw [f]; decide), fun c o h => ?_⟩, from_ten fun e h1 h2 => ?_⟩
  · unfold scratchOf at h
    have e : (blk [0, 0x14000, 0, 0, 0, 2]).place freeTask.part (blk [0, 0x14000, 0, 0, 0, 2]).curCluster
        (BitVec.ofNat 64 (field (blockBytes (blk [0, 0x14000, 0, 0, 0, 2])) (if ReqKind.copy = ReqKind.gather then 0x10 else 0x08) 8)) = .paged := by decide +kernel
    rw [e] at h; cases h
  · have : e = 10 ∨ e = 11 ∨ e = 12 ∨ e = 13 := by omega
    rcases this with rfl | rfl | rfl | rfl
    · exact not_ten f (by decide)
    · exact not_eleven f (by decide)
    · exact not_twelve (by decide +kernel)
    · simp only [blockCause, wpeOf, f]; rintro ⟨h, -⟩; exact absurd h (by decide)

/-- An absent peer. -/
theorem witness_EngineRequests_cause19 : blockCause (blk []) freeTask .rcopy (blockBytes (blk [])) 19 := by
  refine ⟨rfl, fun l h => ?_⟩
  have : ((blk []).part freeTask.part).conf.peers.get? (flagsOf (blockBytes (blk [])) / 2 ^ 16 % 256) = none := by rfl
  rw [this] at h; cases h

/-- A stream's entry, in a fabric that holds a stream-mode image of at most four arguments, of more, and a call-mode one; a record for an image with a nest, and one of kind 0. -/
theorem witness_StreamsStart :
    let s := blockAt [] 7 withServer freeTask
    let wide := someImage false 5 0
    s.cur.task = some freeTask ∧ s.speculative = false ∧ Warm s ∧ (s.part 0).pending = none ∧ (s.g 4).toNat % 64 = 0 ∧ (s.g 6).toNat % 64 ≠ 0 ∧ Enters s ∧
    LineAt (s.release .prt) (asked (s.release .prt) headerG false) (s.g 4) 0 headerG ∧ (∀ c, ¬ blockCause s freeTask .strm (blockBytes s) c) ∧ (s.g 5).toNat = 7 ∧
    ((s.part 0).conf.servers.getD 7 { img := 0, ctl := 0 }).ctl.getLsbD 0 = true ∧ ((s.part 0).conf.servers.getD 8 { img := 0, ctl := 0 }).ctl.getLsbD 0 = false ∧
    Ready (onFabric s (someImage true 2 1)) 0 0 (someImage true 2 1) 0x30000 ∧ Ready (onFabric s wide) 0 0 wide 0x30000 ∧ 4 < wide.nargs ∧
    Ready (onFabric s (someImage false 4 0)) 0 0 (someImage false 4 0) 0x30000 ∧ ((onFabric s wide).fabric 0 0).stream = none ∧ field (blockBytes s) 0 8 % 256 = 0 ∧
    (let r := blockAt [1 + 7 * 2 ^ 16, 0, 0, 0x100C0] 7 withServer freeTask
     field (blockBytes r) 0 8 % 256 ≠ 0 ∧ BitVec.ofNat 64 (field (blockBytes r) 0x18 8) = 0x100C0 ∧ LineAt (r.release .prt) (asked (r.release .prt) headerG false) 0x10080 0 headerG ∧
     LineAt (asked (r.release .prt) headerG false) (asked (asked (r.release .prt) headerG false) (2 ^ 25 + 0xC0) false) 0x100C0 0 (2 ^ 25 + 0xC0) ∧
     (∀ c, ¬ blockCause r freeTask .strm (r.bytesAt (.dram 0 (2 ^ 25 + 0xC0)) 64) c)) := by
  refine ⟨rfl, rfl, warm_free rfl rfl, ?_, ?_, ?_, ?_, line_at ?_, good_block ?_ (by simp [blockCause]; decide +kernel) (by decide), ?_, rfl, rfl, ready_fabric _ _ rfl, ready_fabric _ _ rfl, by decide,
    ready_fabric _ _ rfl, rfl, ?_, ?_, ?_, line_at ?_, line_at ?_, good_block ?_ (by simp [blockCause]; decide +kernel) (by decide)⟩ <;> first | decide +kernel | (unfold Enters; decide +kernel)

/-- A partition with a pool and some umbras, of which the last has no cut. -/
def withPool (pool : Word) (n : Nat) (t : Part) : Part :=
  { t with umbpool := pool
           umbras := (List.range n).map fun j => { id := j, part := 0, ctx := 0, owner := 1, base := 0, len := 0, chunks := [], cut := j + 1 != n, ordered := false, remote := none } }

/-- A buffer of one chunk at 0x10000, for a task that may write it. -/
def buffer (len pool : Word) (n : Nat) (k : Task) : State := (world [(4, 0x10000), (5, len), (6, 0x10008)] k).mapPart 0 (withPool pool n)

theorem one_chunk {s : State} {va n : Word} {g : Nat} (h : hits (s.release .prt) va 1 g = true ∧ va.toNat % 2 ^ 16 = 0 ∧ n.toNat = 2 ^ 16 ∧ g % 2 ^ 16 = 0 ∧
    (s.part 0).conf.windows = [] ∧ isGranted ((s.release .prt).askHome (.dram 0 g) true) = true) : OneChunk s (asked (s.release .prt) g true) va n 0 g :=
  ⟨h.2.1, h.2.2.1, fun x => located h.1 x, h.2.2.2.1, h.2.2.2.2.1, asked_granted h.2.2.2.2.2⟩

/-- A bad address, a bad length, one chunk with a free entry and a pool, one with an empty pool. -/
theorem witness_UmbrasOpen :
    let s := buffer 0x10000 (1 + 2 ^ 32) 3 freeTask
    s.cur.task = some freeTask ∧ (s.g 6).toNat % 2 ^ 16 ≠ 0 ∧ Enters s ∧ (s.g 4).toNat % 2 ^ 16 = 0 ∧ BadLength (s.g 6) ∧
    OneChunk s (asked (s.release .prt) (2 ^ 25) true) (s.g 4) (s.g 5) 0 (2 ^ 25) ∧ Lowest (s.part 0) 3 ∧ (s.part 0).umbpool.toNat / 2 ^ 32 % 2 ^ 10 ≠ 0 ∧
    PoolStart (s.part 0) (2 ^ 25) ∉ (s.part 0).poolUsed ∧ (∀ x ∈ (s.part 0).umbras, ∀ c ∈ x.chunks, c.gpa ≠ 2 ^ 25 / 2 ^ 16) ∧
    (∀ c, c / 2 ^ 19 = 2 ^ 25 / 2 ^ 35 → ¬ InPool ((buffer 0x10000 0 3 freeTask).part 0) c) := by
  refine ⟨rfl, ?_, ?_, ?_, ?_, one_chunk ?_, ?_, ?_, ?_, ?_, ?_⟩
  all_goals try first | decide +kernel | (unfold Enters; decide +kernel) | (unfold BadLength; decide +kernel)
  · refine ⟨by decide +kernel, fun m h => ?_⟩
    interval_cases m <;> decide +kernel
  · intro c _ h
    have e : ((buffer 0x10000 0 3 freeTask).part 0).poolExtra = [] := by decide +kernel
    have z : ((buffer 0x10000 0 3 freeTask).part 0).umbpool = 0 := by decide +kernel
    simp only [InPool, e, z] at h
    simp at h

theorem full_table (p : Word) (N : Nat) (t : Part) : ∀ n < N, ∃ x ∈ (withPool p N t).umbras, x.id = n := fun n h =>
  ⟨_, List.mem_map.2 ⟨n, List.mem_range.2 h, rfl⟩, rfl⟩

/-- A full table. -/
theorem witness_UmbrasOpen_full : ∀ n < 4096, ∃ x ∈ ((buffer 0x10000 0 4096 freeTask).part 0).umbras, x.id = n := by
  rw [buffer, State.part_mapPart, if_pos rfl]
  exact full_table _ _ _

/-- An umbra with its cut taken and one without, in a free task and in an ordered one, which may hold the step of a third. -/
theorem witness_PublishTakesTheCut :
    let s := (world [(4, 2), (5, 1), (6, 1)] freeTask).mapPart 0 (withPool 1 3)
    let o := (world [(4, 2), (5, 1), (6, 1)] orderedTask).mapPart 0 (withPool 1 3)
    s.cur.task = some freeTask ∧ o.cur.task = some orderedTask ∧ s.speculative = false ∧ o.speculative = true ∧ Enters s ∧
    (∀ x ∈ (s.part 0).umbras, x.id = (s.g 6).toNat % 2 ^ 12 → x.cut = true) ∧ (∃ x ∈ (s.part 0).umbras, x.id = (s.g 4).toNat % 2 ^ 12 ∧ x.cut = false) ∧
    (¬ ∃ x ∈ freeTask.pubs, x.umbra = (s.g 4).toNat % 2 ^ 12) ∧ ∃ x ∈ [HeldPublish.mk 2 false], x.umbra = (o.g 4).toNat % 2 ^ 12 := by
  refine ⟨rfl, rfl, ?_, ?_, ?_, ?_, ?_, ?_, ?_⟩ <;> first | decide +kernel | (unfold Enters; decide +kernel)

/-! ### Tiles -/

/-- A shape word. -/
def shapeWord (f r c : Nat) : Word := BitVec.ofNat 64 (f + (r - 1) * 2 ^ 7 + (c - 1) * 2 ^ 14)

/-- A tile of the free task with elements of four bytes. -/
def tileOf (n : Nat) (w : Word) (es : List Nat) : Tile := { owner := 7, name := n, shape := w, data := Memory.writeBytes [] 0 (es.flatMap fun e => leBytes 4 e) }

/-- A set of the free task. -/
def setOf (n : Nat) (f : Option CountFmt) (l : Nat) : BankSet :=
  { owner := 7, name := n, fmt := f, shape := some (2, 1), lanes := [l, 0, 0, 0], md := 0, counts := [], nan := [], poi := false }

/-- A world with tiles, sets and queued array instructions. -/
def tiled (rs : List (Reg × Word)) (ts : List Tile) (xs : List BankSet) (q : List TileOp) (k : Task) : State :=
  let s := (world rs k).mapCluster 0 fun c => { c with tiles := ts, sets := xs }
  { s with cur := { s.cur with tq := q } }

/-- A state like it with another shape for the destination. -/
def f32x2 (n : Nat) : Tile := tileOf n (shapeWord 1 2 1) [0x3F800000, 0x40000000]

/-- `TADD` of three tiles of one shape, with an empty queue and a full one; of tiles of two shapes; of a name that is not owned. -/
theorem witness_ArrayInstructionsAreQueued :
    let s := tiled [] [f32x2 0, f32x2 1, f32x2 2, tileOf 3 (shapeWord 2 2 1) []] [] [] freeTask
    s.cur.task = some freeTask ∧ arrayOp s (.tadd 0 1 2) = some (.tadd 0 1 2, [0, 1, 2], []) ∧ (∀ n ∈ [0, 1, 2], ∃ w, Owns s n w) ∧
    (∀ c, ¬ shapeFails s (.tadd 0 1 2) c) ∧ (∀ r, ¬ depthFails s (.tadd 0 1 2) r) ∧ s.cur.tq.length < 16 ∧ Enters s ∧
    (∀ n ∈ [3, 1, 2], ∃ w, Owns s n w) ∧ shapeFails s (.tadd 3 1 2) 2 ∧ s.arr.tiles.get? 9 = none ∧
    16 ≤ (tiled [] [f32x2 0, f32x2 1, f32x2 2] [] (List.replicate 16 (.tzero 0)) freeTask).cur.tq.length := by
  refine ⟨rfl, rfl, ?_, ?_, fun _ h => h, ?_, ?_, ?_, ?_, ?_, ?_⟩
  · intro n h
    refine ⟨shapeWord 1 2 1, ?_⟩
    have : n = 0 ∨ n = 1 ∨ n = 2 := by simpa using h
    rcases this with rfl | rfl | rfl <;> rfl
  · rintro c (⟨-, h⟩ | ⟨-, h⟩) <;> exact h (by decide +kernel)
  · decide
  · unfold Enters; decide
  · intro n h
    have : n = 3 ∨ n = 1 ∨ n = 2 := by simpa using h
    rcases this with rfl | rfl | rfl <;> exact ⟨_, rfl⟩
  · exact .inl ⟨rfl, by decide +kernel⟩
  · rfl
  · decide

/-- `CSTEP` of 4-bit codes of two columns into a set whose lane has 511 products; into a set that takes them. -/
theorem witness_ArrayInstructionsAreQueued_depth :
    let f : CountFmt := { pairs := [], values := [], qexp := 0, aSet := 0, bSet := 0 }
    let codes (n r : Nat) : Tile := tileOf n (shapeWord 10 r 2) []
    let s := tiled [] [codes 1 2, codes 2 1] [setOf 0 (some f) 511, setOf 1 (some f) 510] [] freeTask
    arrayOp s (.cstep 0 1 2) = some (.cstep 0 1 2, [1, 2], [0]) ∧ (∀ n ∈ [1, 2], ∃ w, Owns s n w) ∧ (∃ x, OwnsSet s 0 x) ∧
    (∀ c, ¬ shapeFails s (.cstep 0 1 2) c) ∧ (∃ r, depthFails s (.cstep 0 1 2) r) ∧ (∀ c, ¬ shapeFails s (.cstep 1 1 2) c) ∧
    (∀ r, ¬ depthFails s (.cstep 1 1 2) r) := by
  refine ⟨rfl, ?_, ⟨_, rfl⟩, ?_, ⟨_, ⟨0, by decide, by decide +kernel⟩, rfl⟩, ?_, ?_⟩
  · intro n h
    have : n = 1 ∨ n = 2 := by simpa using h
    rcases this with rfl | rfl <;> exact ⟨_, rfl⟩
  · rintro c (⟨-, h⟩ | ⟨-, h⟩ | ⟨-, h⟩ | ⟨-, h⟩ | ⟨-, g, e, h⟩)
    · exact absurd h (by decide +kernel)
    · exact h (by decide +kernel)
    · exact absurd h (by decide +kernel)
    · exact h (by decide +kernel)
    · exact h (by cases e; decide +kernel)
  · rintro c (⟨-, h⟩ | ⟨-, h⟩ | ⟨-, h⟩ | ⟨-, h⟩ | ⟨-, g, e, h⟩)
    · exact absurd h (by decide +kernel)
    · exact h (by decide +kernel)
    · exact absurd h (by decide +kernel)
    · exact h (by decide +kernel)
    · exact h (by cases e; decide +kernel)
  · rintro r ⟨⟨l, hl, h⟩, -⟩
    revert h
    interval_cases l <;> decide +kernel

/-- A command core in firmware mode, whose registers name tiles and sets, or none. -/
theorem witness_CommandCoresOwnNoTiles :
    let s : State := { State.reset with cur := { Thread.idle ⟨.command, 0, 0⟩ with wait := .ready, regs := regsOf [(4, 3)] } }
    s.cur.task = none ∧ (s.g 5).toNat % 2 ^ 32 = 0 ∧ (s.g 5).toNat % 4 = 0 ∧ Enters s ∧ arrayOp s (.tadd 0 1 2) = some (.tadd 0 1 2, [0, 1, 2], []) ∧
    (s.g 4).toNat % 2 ^ 32 ≠ 0 ∧ (s.g 4).toNat % 4 ≠ 0 := by
  unfold Enters; decide +kernel

/-- A tile of integers and a set, with an index inside and one outside, poisoned or not, and with an instruction queued. -/
theorem witness_QueueReads :
    let s := tiled [(4, 0x10000), (5, 2)] [tileOf 3 (shapeWord 5 2 1) [1, 0xFFFFFFFF]] [setOf 1 none 511] [] freeTask
    let p := tiled [(4, 0x10000)] [tileOf 3 (shapeWord 5 2 1 ||| word (2 ^ 62)) [1, 2]] [] [] freeTask
    let q := tiled [(4, 0x10000)] [tileOf 3 (shapeWord 5 2 1) [1, 2]] [setOf 1 none 511] [.tzero 3] freeTask
    Tiled s 0 7 3 (tileOf 3 (shapeWord 5 2 1) [1, 0xFFFFFFFF]) ∧ s.arr.tiles.get? 3 = some (shapeWord 5 2 1) ∧
    indexIn (shapeWord 5 2 1) (s.g 4) ∧ ¬ indexIn (shapeWord 5 2 1) (s.g 5) ∧ poiOf (shapeWord 5 2 1) = false ∧ Enters s ∧
    (s.cluster 0).set? 7 1 = some (setOf 1 none 511) ∧ s.arr.sets.get? 1 = some (setOf 1 none 511).view ∧
    Tiled p 0 7 3 (tileOf 3 (shapeWord 5 2 1 ||| word (2 ^ 62)) [1, 2]) ∧ poiOf (shapeWord 5 2 1 ||| word (2 ^ 62)) = true ∧ p.speculative = false ∧
    Enters p ∧ q.cur.tq ≠ [] ∧ Owns q 3 (shapeWord 5 2 1) ∧ OwnsSet q 1 (setOf 1 none 511).view := by
  refine ⟨rfl, rfl, ?_, ?_, ?_, ?_, rfl, rfl, rfl, ?_, rfl, ?_, ?_, rfl, rfl⟩ <;>
    first | decide +kernel | (unfold Enters; decide +kernel) | (unfold indexIn; decide +kernel)

theorem witness_EarlierInstructionsCount :
    let s := tiled [] [f32x2 0] [] [.tshape 0 0x4081] freeTask
    let r := tiled [] [f32x2 0] [] [.tfree 1] freeTask
    s.cur.tq = [] ++ [.tshape 0 0x4081] ∧ Owns { s with cur := { s.cur with tq := [] } } 0 (shapeWord 1 2 1) ∧ r.cur.tq = [] ++ [.tfree 1] ∧ 1 / 2 ^ 0 % 2 = 1 :=
  ⟨rfl, rfl, rfl, rfl⟩

/-- A cluster with room, one without, names that are owned and not, for a task with a tile and a task with none. -/
theorem witness_Allocation :
    let rs : List (Reg × Word) := [(4, 3), (5, 0), (6, 2)]
    let names (s : State) (a : Reg) : List Nat := (List.range 32).filter fun n => (s.g a).toNat.testBit n
    let s := tiled rs [] [] [] freeTask
    let o := tiled rs [f32x2 0, f32x2 1] [setOf 0 none 0, setOf 1 none 0] [] freeTask
    let full (owner : Nat) := tiled rs ((List.range 31).map fun n => { f32x2 n with owner := owner, name := n + 1 }) [] [] freeTask
    s.cur.task = some freeTask ∧ s.cur.tq = [] ∧ names s 4 = [0, 1] ∧ names s 5 = [] ∧ (s.cluster 0).tiles = [] ∧ (s.cluster 0).sets = [] ∧ (s.cluster 0).allocs = [] ∧
    (∀ n ∈ names o 4, ∃ x ∈ (o.cluster 0).tiles, x.owner = 7 ∧ x.name = n) ∧ (∀ n ∈ names o 4, ∃ x ∈ (o.cluster 0).sets, x.owner = 7 ∧ x.name = n) ∧ Enters o ∧
    Enters s ∧ 32 < ((full 9).cluster 0).tiles.length + (names s 4).length ∧ (∀ x ∈ ((full 9).cluster 0).tiles, x.owner ≠ 7) ∧ ((full 9).cluster 0).sets = [] ∧
    ¬ (∀ x ∈ ((tiled rs ((f32x2 9) :: List.replicate 31 { f32x2 1 with owner := 9 }) [] [] freeTask).cluster 0).tiles, x.owner ≠ 7) := by
  unfold Enters; decide +kernel

/-- A request at the head that fits, and one that does not. -/
theorem witness_WaitingRequestsAreGranted :
    let q : AllocReq := { t := ⟨.barrel, 0, 0⟩, uid := 7, d := 3, mask := 3, sets := false }
    let w (n : Nat) : State :=
      let s := (world [] freeTask).mapCluster 0 fun c => { c with allocs := [q], tiles := List.replicate n { f32x2 1 with owner := 9 } }
      { s with cur := { s.cur with wait := .alloc } }
    ((w 30).cluster 0).allocs = q :: [] ∧ q.sets = false ∧ q ∉ ([] : List AllocReq) ∧ (w 30).cur.id = q.t ∧ (w 30).cur.wait = .alloc ∧
    ((w 30).cluster 0).tiles.length + ((List.range 32).filter fun n => q.mask.testBit n).length ≤ 32 ∧
    32 < ((w 31).cluster 0).tiles.length + ((List.range 32).filter fun n => q.mask.testBit n).length := by decide +kernel

/-- One element of 32 bits, at a line that its L2 slice holds. -/
theorem elems_at {s : State} {w va base stride : Word} {acc g : Nat} (h : elemCount w = 1 ∧ elemVa w base stride 0 = va ∧ hits s va acc g = true ∧
    isGranted (s.askHome (.dram 0 g) (acc == 1)) = true) (e : s.elsewhere (.dram 0 g) = none) :
    ElemsAt s (asked s g (acc == 1)) w base stride acc [.dram 0 g] := by
  refine ⟨h.1.symm, fun i => if i = 0 then s else asked s g (acc == 1), rfl, rfl, ?_⟩
  rintro (_ | i) l e'
  · obtain rfl : Loc.dram 0 g = l := by simpa using e'
    exact ⟨fun x => by rw [h.2.1]; exact located h.2.2.1 x, asked_granted h.2.2.2, e⟩
  · simp at e'

/-- A tile of one element in rows at 0x10008: moved either way, poisoned, of format 0, misaligned; and one of two in the scratchpad, queued. -/
theorem witness_TileMoves :
    let rs : List (Reg × Word) := [(4, 0x10008), (5, 0x40), (6, 0x1000A)]
    let one := tileOf 3 (shapeWord 1 1 1) [0x3F800000]
    let s := tiled rs [one] [] [] freeTask
    let z := tiled rs [tileOf 3 0 []] [] [] freeTask
    let p := tiled rs [tileOf 3 (shapeWord 1 1 1 ||| word (2 ^ 62)) []] [] [] freeTask
    let ls : List Loc := [.scratch 0 0, .scratch 0 64]
    let h := tiled rs [f32x2 3] [] [.tld 3 ls 4] freeTask
    s.cur.task = some freeTask ∧ s.speculative = false ∧ Warm s ∧ Owns s 3 (shapeWord 1 1 1) ∧ Owns z 3 0 ∧ fmtOf 0 = 0 ∧ Enters z ∧ fmtOf (shapeWord 1 1 1) ≠ 0 ∧
    (s.g 6).toNat % unitOf (shapeWord 1 1 1) ≠ 0 ∧ Enters s ∧ (s.g 4).toNat % unitOf (shapeWord 1 1 1) = 0 ∧ (s.g 5).toNat % unitOf (shapeWord 1 1 1) = 0 ∧
    elemCount (shapeWord 1 1 1) = 1 ∧ elemVa (shapeWord 1 1 1) (s.g 4) (s.g 5) 0 = 0x10008 ∧
    ElemsAt s (asked s (2 ^ 25 + 8) false) (shapeWord 1 1 1) (s.g 4) (s.g 5) 0 [.dram 0 (2 ^ 25 + 8)] ∧
    ElemsAt s (asked s (2 ^ 25 + 8) true) (shapeWord 1 1 1) (s.g 4) (s.g 5) 1 [.dram 0 (2 ^ 25 + 8)] ∧ Tiled s 0 7 3 one ∧ poiOf one.shape = false ∧ Canonical s ∧
    s.faults = [] ∧ (∀ j < 4, s.physOf 0 (2 ^ 25 + 8 + j) = some (2 ^ 25 + 8 + j) ∧ (s.part 0).windowAt (2 ^ 25 + 8 + j) = none) ∧
    poiOf (shapeWord 1 1 1 ||| word (2 ^ 62)) = true ∧ Owns p 3 (shapeWord 1 1 1 ||| word (2 ^ 62)) ∧ Enters p ∧
    ElemsAt p (asked p (2 ^ 25 + 8) true) (shapeWord 1 1 1 ||| word (2 ^ 62)) (s.g 4) (s.g 5) 1 [.dram 0 (2 ^ 25 + 8)] ∧
    Head h freeTask (.tld 3 ls 4) [] ∧ Tiled h 0 7 3 (f32x2 3) ∧ (f32x2 3).data.wf = true ∧ ls.length = elemCount (f32x2 3).shape ∧
    (∀ l ∈ ls, h.cachedLine 0 l = none ∧ h.poisonedAt l 4 = false ∧ ∃ p g, l = .scratch p g ∧ h.elsewhere l = none) := by
  refine ⟨rfl, rfl, warm_free rfl rfl, rfl, rfl, rfl, ?_, ?_, ?_, ?_, ?_, ?_, ?_, ?_, elems_at (va := 0x10008) (acc := 0) ?_ ?_, elems_at (va := 0x10008) (acc := 1) ?_ ?_, rfl, ?_, canonical_of_empty _ ?_ rfl ?_, rfl, ?_, ?_, rfl, ?_,
    elems_at (va := 0x10008) (acc := 1) ?_ ?_, ⟨rfl, rfl, fun m => by simp, rfl⟩, rfl, ?_, ?_, ?_⟩
  all_goals try first | rfl | decide +kernel | (unfold Enters; decide +kernel)
  intro l hl
  have : l = .scratch 0 0 ∨ l = .scratch 0 64 := by simpa using hl
  rcases this with rfl | rfl <;> exact ⟨rfl, rfl, _, _, rfl, rfl⟩

/-- Four tiles of FP32 of two rows and one column, of which every instruction of the array takes some; values that meet the cases. -/
theorem witness_ArrayResults :
    let s (q : List TileOp) : State := tiled [] [f32x2 0, f32x2 1, f32x2 2, f32x2 3] [] q freeTask
    let w := shapeWord 1 2 1
    (∀ op, Head (s [op]) freeTask op []) ∧ (∀ q, Tiled (s q) 0 7 0 (f32x2 0) ∧ Tiled (s q) 0 7 1 (f32x2 1) ∧ Tiled (s q) 0 7 2 (f32x2 2) ∧ Tiled (s q) 0 7 3 (f32x2 3)) ∧
    (f32x2 0).data.wf = true ∧ fmtOf w = 1 ∧ colsOf w = 1 ∧ rowsOf w = 2 ∧ widthOf w = 32 ∧ elem (f32x2 0) 0 0 = 0x3F800000 ∧ elem (f32x2 0) 1 0 = 0x40000000 ∧
    TileNum f32Word 0x3F800000 1 ∧ TileNum f32Word 0x40000000 2 ∧ TileNum f32Word 0xC3150000 (-149) ∧ TileNum f32Word 0x42FE0000 127 ∧
    TileNum f32Word 0x43000000 128 ∧ TileNum f32Word 0xC3170000 (-151) ∧ TileNan f32Word 0x7FC00000 ∧ roundModeAt 0 = .rne := by
  refine ⟨fun op => ⟨rfl, rfl, fun m => by simp, rfl⟩, fun q => ⟨rfl, rfl, rfl, rfl⟩, ?_, ?_, ?_, ?_, ?_, ?_, ?_, ?_, ?_, ?_, ?_, ?_, ?_, ⟨_, rfl⟩, rfl⟩
  all_goals try decide +kernel
  · exact ⟨false, 2 ^ 23, -23, rfl, by norm_num [rat, zpow_neg]⟩
  · exact ⟨false, 2 ^ 23, -22, rfl, by norm_num [rat, zpow_neg]⟩
  · exact ⟨true, 0x950000, -16, rfl, by norm_num [rat, zpow_neg]⟩
  · exact ⟨false, 0xFE0000, -17, rfl, by norm_num [rat, zpow_neg]⟩
  · exact ⟨false, 0x800000, -16, rfl, by norm_num [rat, zpow_neg]⟩
  · exact ⟨true, 0x970000, -16, rfl, by norm_num [rat, zpow_neg]⟩

/-- A product of tiles of each of the three kinds, without belay leave and with it. -/
theorem witness_MatrixProducts :
    let s (fc fa fb : Nat) : State := tiled [] [tileOf 0 (shapeWord fc 2 1) [], tileOf 1 (shapeWord fa 2 3) [], tileOf 2 (shapeWord fb 1 3) []] [] [.tmma 0 1 2] freeTask
    let leave (s : State) : State := s.mapDie 0 fun d => { d with granted := [{ id := 7, milli := 1600, part := 0 }] }
    (∀ fc fa fb, Head (s fc fa fb) freeTask (.tmma 0 1 2) [] ∧ Tiled (s fc fa fb) 0 7 0 (tileOf 0 (shapeWord fc 2 1) []) ∧
      Tiled (s fc fa fb) 0 7 1 (tileOf 1 (shapeWord fa 2 3) []) ∧ Tiled (s fc fa fb) 0 7 2 (tileOf 2 (shapeWord fb 1 3) [])) ∧
    (∀ x ∈ ((s 1 2 2).die 0).granted ++ ((s 1 2 2).die 0).belayQ, x.id ≠ 7) ∧ (∃ x ∈ ((leave (s 1 2 2)).die 0).granted, x.id = 7) ∧
    (∀ fc fa fb, Head (leave (s fc fa fb)) freeTask (.tmma 0 1 2) [] ∧ Tiled (leave (s fc fa fb)) 0 7 0 (tileOf 0 (shapeWord fc 2 1) [])) ∧
    rowsOf (shapeWord 2 2 3) = rowsOf (shapeWord 1 2 1) ∧ rowsOf (shapeWord 2 1 3) = colsOf (shapeWord 1 2 1) ∧ colsOf (shapeWord 2 1 3) = colsOf (shapeWord 2 2 3) ∧
    fmtOf (shapeWord 1 2 1) = 1 ∧ fmtOf (shapeWord 2 2 3) = 2 ∧ fmtOf (shapeWord 6 2 3) = 6 ∧ fmtOf (shapeWord 9 1 3) = 9 ∧ fmtOf (shapeWord 5 2 1) = 5 ∧
    fmtOf (shapeWord 4 2 3) = 4 := by
  refine ⟨fun _ _ _ => ⟨⟨rfl, rfl, fun m => by simp, rfl⟩, rfl, rfl, rfl⟩, ?_, ?_, fun _ _ _ => ⟨⟨rfl, rfl, fun m => by simp, rfl⟩, rfl⟩, ?_⟩ <;> decide +kernel

/-! ### Counting and chains -/

/-- A descriptor whose bytes are all zero, and one with a reserved bit in its first byte. -/
def describing (first : Nat) (r : Reg) : State := State.holding (tiled [(r, 0x10000), (5, 0x10001)] [] [setOf 0 none 0] [] freeTask) [(0, first)]

/-- What the six loads of a descriptor give. -/
def readOf (s : State) : List Byte × State :=
  match s.readPlain (s.g 4) (accessWord 0 3 0) 6 0 with
  | .ok bs u => (bs, u)
  | _ => ([], s)

theorem read_ok {s : State} (h : (match s.readPlain (s.g 4) (accessWord 0 3 0) 6 0 with | .ok _ _ => true | _ => false) = true) :
    s.readPlain (s.g 4) (accessWord 0 3 0) 6 0 = .ok (readOf s).1 (readOf s).2 := by
  unfold readOf
  split at h <;> first | rfl | cases h
  rename_i e; rw [e]

theorem witness_DescriptorsOfCounting :
    let s := describing 0 4
    let b := describing 0x20 4
    let h := tiled [] [] [setOf 0 none 0] [.cfmt 0 (List.replicate 384 1)] freeTask
    s.cur.task = some freeTask ∧ OwnsSet s 0 (setOf 0 none 0).view ∧ (s.g 4).toNat % 64 = 0 ∧ (s.g 5).toNat % 64 ≠ 0 ∧ Enters s ∧ s.arr.sets.get? 1 = none ∧
    s.readPlain (s.g 4) (accessWord 0 3 0) 6 0 = .ok (readOf s).1 (readOf s).2 ∧ (readOf s).1 = List.replicate 384 0 ∧ (readOf s).2.cur.tq.length < 16 ∧
    b.readPlain (b.g 4) (accessWord 0 3 0) 6 0 = .ok (readOf b).1 (readOf b).2 ∧ (readOf b).1 = 0x20 :: List.replicate 383 0 ∧ Enters (readOf b).2 ∧
    Head h freeTask (.cfmt 0 (List.replicate 384 1)) [] ∧ Banked h 0 7 0 (setOf 0 none 0) := by
  refine ⟨rfl, rfl, ?_, ?_, ?_, ?_, read_ok ?_, ?_, ?_, read_ok ?_, ?_, ?_, ⟨rfl, rfl, fun m => by simp, rfl⟩, rfl⟩ <;>
    first | decide +kernel | (unfold Enters; decide +kernel)

/-- A format descriptor whose every pair counts up at index 1. -/
def plainFmt : CountFmt := { pairs := List.replicate 256 1, values := [0, 3], qexp := 0, aSet := 0, bSet := 0 }

/-- A step of codes with leave, and what merges, drains and empties the set. -/
theorem witness_CountingStepsAndResults :
    let ts : List Tile := [tileOf 0 (shapeWord 1 2 1) [], tileOf 1 (shapeWord 10 2 2) [0x10], tileOf 2 (shapeWord 10 1 2) [0x21], tileOf 3 (shapeWord 11 2 2) [0x80]]
    let x := { setOf 0 (some plainFmt) 2 with counts := [(1, 2)], nan := [64] }
    let s (op : TileOp) : State := (tiled [] ts [x] [op] freeTask).mapDie 0 fun d => { d with granted := [{ id := 7, milli := 1600, part := 0 }] }
    (∀ op, Head (s op) freeTask op [] ∧ Banked (s op) 0 7 0 x ∧ ∀ t ∈ ts, Tiled (s op) 0 7 t.name t) ∧ x.fmt = some plainFmt ∧
    (∃ y ∈ ((s (.cstep 0 1 2)).die 0).granted, y.id = 7) ∧ rowsOf (shapeWord 10 2 2) ≤ 32 ∧ rowsOf (shapeWord 10 1 2) ≤ 64 ∧ fmtOf (shapeWord 10 2 2) = 10 ∧
    fmtOf (shapeWord 10 1 2) = 10 ∧ (x.counts.map fun e => e.1).Nodup ∧ fmtOf (shapeWord 1 2 1) = 1 ∧ fmtOf (shapeWord 11 2 2) = 11 ∧ colsOf (shapeWord 1 2 1) ≤ 64 ∧
    (tileOf 0 (shapeWord 1 2 1) []).data.wf = true ∧ 1 * 64 + 0 ∈ x.nan ∧ signedOf (elem (tileOf 3 (shapeWord 11 2 2) [0x80]) 0 0) 8 = -128 ∧
    ¬ (0 * 64 + 0 ∈ x.nan) := by
  refine ⟨fun op => ⟨⟨rfl, rfl, fun m => by simp, rfl⟩, rfl, ?_⟩, rfl, ?_⟩
  · intro t h
    have : t = tileOf 0 (shapeWord 1 2 1) [] ∨ t = tileOf 1 (shapeWord 10 2 2) [0x10] ∨ t = tileOf 2 (shapeWord 10 1 2) [0x21] ∨ t = tileOf 3 (shapeWord 11 2 2) [0x80] := by
      simpa using h
    rcases this with rfl | rfl | rfl | rfl <;> rfl
  · decide +kernel

/-- A chain descriptor at 0x10080: an accepted one of n members, of which this cluster is the first. -/
def chained (n first : Nat) (w : Word) (k : Task) : State :=
  State.holding (tiled [(4, 0x10080), (5, 0x10081)] [tileOf 3 w [0x3F800000]] [] [] k)
    [(0x80, 0x10008), (0x88, 4 + first * 2 ^ 32 + n * 2 ^ 48), (0x90, 1), (0x98, (shapeWord 1 1 1).toNat)]

theorem witness_ChainsAreIssued :
    let w := shapeWord 1 1 1
    let s (n : Nat) (w : Word) : State := chained n 0 w freeTask
    let u (n : Nat) (w : Word) : State := asked (s n w) headerG false
    let bs (n : Nat) (w : Word) : List Byte := (s n w).bytesAt (.dram 0 headerG) 64
    let o := chained 1 0 w { orderedTask with accessed := true }
    (s 1 w).cur.task = some freeTask ∧ (∀ n v, Warm (s n v)) ∧ Owns (s 1 w) 3 w ∧ o.cur.task = some { orderedTask with accessed := true } ∧ Warm o ∧ o.speculative = true ∧ Owns o 3 w ∧ (s 1 w).speculative = false ∧
    ((s 1 w).g 5).toNat % 64 ≠ 0 ∧ Enters (s 1 w) ∧ ((s 1 w).g 4).toNat % 64 = 0 ∧ LineAt (s 0 w) (u 0 w) 0x10080 0 headerG ∧ LineAt (s 1 w) (u 1 w) 0x10080 0 headerG ∧
    LineAt (s 2 w) (u 2 w) 0x10080 0 headerG ∧ LineAt (s 1 (shapeWord 1 2 1)) (u 1 (shapeWord 1 2 1)) 0x10080 0 headerG ∧ (bs 1 w).length = 64 ∧ Enters (u 0 w) ∧
    ¬ goodChain ((s 0 w).part 0) 0 (bs 0 w) ∧ goodChain ((s 1 w).part 0) 0 (bs 1 w) ∧ goodChain ((s 2 w).part 0) 0 (bs 2 w) ∧
    dimsOf (shapeWord 1 2 1) ≠ field (bs 1 (shapeWord 1 2 1)) 0x18 8 ∧ goodChain ((s 1 w).part 0) 0 (bs 1 (shapeWord 1 2 1)) ∧ Enters (u 1 (shapeWord 1 2 1)) ∧
    dimsOf w = field (bs 1 w) 0x18 8 ∧ chainMember (bs 2 w) 0 = 0 ∧ 0 + 1 < field (bs 2 w) 0x0E 2 ∧ 0 + 1 = field (bs 1 w) 0x0E 2 ∧ field (bs 1 w) 0 8 % 4 = 0 ∧
    field (bs 1 w) 8 4 % 4 = 0 ∧ (s 1 w).cur.tq.length < 16 ∧
    ElemsAt (u 1 w) (asked (u 1 w) (2 ^ 25 + 8) true) w (BitVec.ofNat 64 (field (bs 1 w) 0 8)) (BitVec.ofInt 64 (signedOf (field (bs 1 w) 8 4) 32)) 1
      [.dram 0 (2 ^ 25 + 8)] := by
  refine ⟨rfl, fun _ _ => warm_free rfl rfl, rfl, rfl, fun _ h _ => by cases h; rfl, rfl, rfl, rfl, ?_, ?_, ?_, line_at ?_, line_at ?_, line_at ?_, line_at ?_, ?_, ?_, ?_, ?_, ?_, ?_, ?_, ?_, ?_, ?_, ?_, ?_, ?_, ?_, ?_,
    elems_at (va := 0x10008) (acc := 1) ?_ ?_⟩
  all_goals first | decide +kernel | rfl | (unfold Enters; decide +kernel) | (unfold goodChain; decide +kernel)

/-- A member that waits, one whose message has come, one with a result for the next member, and the last one. -/
theorem witness_ChainsAddAndPass :
    let x := tileOf 3 (shapeWord 1 1 1) [0x3F800000]
    let m : ChainMsg := { part := 0, ctx := 0, desc := 0x10080, data := x.data, poi := false }
    let s (op : TileOp) (ms : List ChainMsg) : State := (tiled [] [x] [] [op] freeTask).mapCluster 0 fun c => { c with chain := ms }
    let ls : List Loc := [.dram 0 (2 ^ 25 + 8)]
    let next (n : Nat) : State := (tiled [] [x] [] [.tchain 3 0x10080 false (some 1) []] freeTask).mapCluster 1 fun c => { c with chain := List.replicate n m }
    let last := s (.tchain 3 0x10080 false none ls) []
    (∀ op ms, Head (s op ms) freeTask op [] ∧ Tiled (s op ms) 0 7 3 x ∧ ((s op ms).cluster 0).chain = ms) ∧ fmtOf x.shape = 1 ∧ x.data.wf = true ∧
    m.part = freeTask.part ∧ m.ctx = freeTask.ctx ∧ (∀ n, Head (next n) freeTask (.tchain 3 0x10080 false (some 1) []) [] ∧ ((next n).cluster 1).chain = List.replicate n m) ∧
    ((next 0).part 0).residentAt (1 - 8 * ((next 0).part 0).first) = some 0 ∧ 8 * ((next 0).part 0).first ≤ 1 ∧ ((next 3).cluster 1).chain.length < 4 ∧
    4 ≤ ((next 4).cluster 1).chain.length ∧ poiOf x.shape = false ∧ Canonical last ∧ last.faults = [] ∧ Apart last 0 ls 4 1 (fun _ => 2 ^ 25 + 8) := by
  refine ⟨fun op ms => ⟨⟨rfl, rfl, fun m => by simp, rfl⟩, rfl, rfl⟩, ?_, ?_, rfl, rfl, fun n => ⟨⟨rfl, rfl, fun m => by simp, rfl⟩, rfl⟩, ?_, ?_, ?_, ?_, ?_,
    canonical_of_empty _ ?_ rfl ?_, rfl, ⟨rfl, ?_, ?_⟩⟩
  all_goals try decide +kernel
  · intro i h
    obtain rfl : i = 0 := by omega
    exact ⟨_, rfl, by decide +kernel⟩

theorem witness_ReleasesWait :
    let s := tiled [(4, 8)] [f32x2 3] [] [.tshape 3 0x81] freeTask
    let r := tiled [] [f32x2 3] [] [.tshape 3 0x81, .tfree 8] freeTask
    (s.g 4).toNat % 2 ^ 32 = 2 ^ 3 ∧ s.cur.tq = [.tshape 3 0x81] ∧ Owns s 3 0x81 ∧ r.cur.tq = [.tshape 3 0x81, .tfree 8] ∧ Tiled r 0 7 3 (f32x2 3) ∧
    (r.part freeTask.part).queuedArray freeTask.uid = false :=
  ⟨by decide +kernel, rfl, rfl, rfl, rfl, rfl⟩

/-! ### Scheduling, the summit and commits -/

/-- A registration of the header at 0x18000. -/
def regOf (id ctrl key : Nat) : Registration :=
  { id := id, part := 0, ctx := 0, va := 0x18000, gpa := headerG, range := false, n := 1, held := false, live := 1, ended := false, spawner := none
    hdr := { entry := 0x20000, arg := 5, key := word key, ctrl := word ctrl, succ := [], tiles := [] } }

/-- An entry of a ready queue for a fresh start. -/
def entryOf (id prio seq : Nat) (ordered : Bool) : QEntry :=
  { job := .fresh id 0 none, part := 0, ctx := 0, prio := prio, ordered := ordered, key := 0, hdr := 0x18000, stamp := seq, seq := seq, agedAt := 0, bound := none, sought := false }

/-- A ready queue on cluster 0 and registrations, beside a running task on context 0. -/
def queued (q : List QEntry) (rs : List Registration) (k : Task) : State :=
  let s := (world [] k).mapCluster 0 fun c => { c with readyQ := q }
  { s with regs := rs }

/-- A context state for context 0 of partition 0. -/
def inCtx (s : State) (x : CtxState) : State := s.mapCtx 0 0 fun _ => x

/-- Two fresh starts of two priorities; a saved task; the summit holder behind another; a bound start; a tie in deterministic mode; a stopped cluster. -/
theorem witness_DispatchFollowsR28 :
    let slot : Tid := ⟨.barrel, 0, 32⟩
    let a := entryOf 1 3 1 false
    let b := entryOf 2 2 0 false
    let s := queued [b, a] [regOf 1 12 0, regOf 2 8 0] freeTask
    let v := { a with job := .saved { Thread.idle slot with wait := .ready, task := some orderedTask } false }
    let sv := queued [v] [] freeTask
    let h := { entryOf 1 0 1 true with key := 5 }
    let hs := inCtx (queued [b, h] [regOf 1 1 5, regOf 2 8 0] freeTask) { CtxState.reset with holder := some (1, 0) }
    let n := { a with bound := some ⟨.barrel, 0, 9⟩ }
    let ns := queued [b, n] [regOf 1 12 0, regOf 2 8 0] freeTask
    let t := { h with job := .fresh 1 0 (some 0x40) }
    let ts := (queued [t] [regOf 1 1 5] freeTask).mapPart 0 fun p => { p with pdesc := p.pdesc ||| word (2 ^ 62) }
    (s.cluster 0).stopped = false ∧ a ∈ s.dispatchable 0 ∧ (∀ e ∈ (s.cluster 0).readyQ, e.seq = a.seq → e = a) ∧ ChosenSlot s 0 slot ∧
    (∀ e ∈ s.dispatchable 0, e.bound = none) ∧ (∀ e ∈ s.dispatchable 0, (s.ctxState e.part e.ctx).holder = none) ∧
    (∀ e ∈ s.dispatchable 0, e ≠ a → Precedes a e) ∧ s.reg? 1 = some (regOf 1 12 0) ∧
    sv.dispatchable 0 = [v] ∧ ChosenSlot sv 0 slot ∧ (∀ e ∈ sv.dispatchable 0, (sv.ctxState e.part e.ctx).holder = none) ∧
    hs.dispatchable 0 = [b, h] ∧ ChosenSlot hs 0 slot ∧ hs.reg? 1 = some (regOf 1 1 5) ∧ (hs.ctxState 0 0).holder = some (1, 0) ∧
    ns.dispatchable 0 = [b, n] ∧ ChosenSlot ns 0 slot ∧ ¬ occupied ns 0 9 ∧
    ts.dispatchable 0 = [t] ∧ ChosenSlot ts 0 slot ∧ (ts.part 0).pdesc.getLsbD 62 = true ∧ (regOf 1 1 5).hdr.ctrl.toNat % 4 = 1 ∧
    ((s.mapCluster 0 fun c => { c with stopped := true }).cluster 0).stopped = true ∧ (s.cluster 1).readyQ = [] := by
  refine ⟨?_, ?_, ?_, ?_, ?_, ?_, ?_, ?_, ?_, ?_, ?_, ?_, ?_, ?_, ?_, ?_, ?_, ?_, ?_, ?_, ?_, ?_, ?_, ?_⟩ <;>
    first | rfl | decide +kernel | (unfold ChosenSlot occupied; decide +kernel) | (unfold occupied; decide +kernel) | (unfold Precedes; decide +kernel)

/-- Cluster 0 with its contexts all taken: the free task on slot 0, with a wait, and threads without a task on the others. -/
def fullCluster (wait : Wait) (cls : TaskClass) (w : Word) (ctrl : Nat) : State :=
  let k : Task := { freeTask with cls := cls, key := if cls = .ordered then 9 else 0, prio := 1 }
  let s := (queued [entryOf 2 3 1 false] [regOf 1 ctrl 9, regOf 2 12 0] k).mapPart 0 fun p => { p with pretok := List.replicate 8 w }
  { s with cur := { s.cur with wait := wait }
           others := (List.range 127).map fun n => { Thread.idle ⟨.barrel, 0, n + 1⟩ with wait := .ready } }

theorem only_victim (wait : Wait) (cls : TaskClass) (w : Word) (ctrl : Nat) (f : wait ≠ .free) (g : ∀ a b, wait ≠ .fault a b) :
    OnlyVictim (fullCluster wait cls w ctrl) 0 3 (fullCluster wait cls w ctrl).cur { freeTask with cls := cls, key := if cls = .ordered then 9 else 0, prio := 1 } := by
  refine ⟨List.mem_cons_self .., ⟨rfl, rfl, f⟩, rfl, by show 1 < 3; omega, g, ?_, ?_, ?_, rfl, ?_, ?_⟩
  · have : ((fullCluster wait cls w ctrl).ctxState 0 0).holder = none := rfl
    show ((fullCluster wait cls w ctrl).ctxState 0 0).holder ≠ _
    rw [this]; simp
  · have : ((fullCluster wait cls w ctrl).cur :: (fullCluster wait cls w ctrl).others).map (fun th => th.id) =
        (List.range 128).map fun n => (⟨.barrel, 0, n⟩ : Tid) := rfl
    rw [this]; decide +kernel
  · intro th h _ _ _ n
    rcases List.mem_cons.1 h with rfl | h
    · exact absurd rfl n
    · obtain ⟨m, -, rfl⟩ := List.mem_map.1 h
      exact ⟨rfl, fun x e => by cases e⟩
  · intro th h x e _
    rcases List.mem_cons.1 h with rfl | h
    · rfl
    · obtain ⟨m, -, rfl⟩ := List.mem_map.1 h
      cases e
  · intro e h
    have : ((fullCluster wait cls w ctrl).cluster 0).readyQ = [entryOf 2 3 1 false] := rfl
    rw [this] at h
    obtain rfl := List.mem_singleton.1 h
    rfl

/-- A drain, a kill, an abort, a victim in a `SERVE`, and a victim that is checkpointed. -/
theorem witness_PreemptionFollowsR33 :
    let token (d k : Nat) : Word := word (d * 2 ^ 32 + k)
    let drained := fullCluster .ready .free (token (2 ^ 32 - 1) 0) 0
    let killed := fullCluster .ready .free (token 0 1) (2 ^ 5 + 2 ^ 32)
    let aborted := fullCluster .ready .ordered (token 0 0) (1 + 2 ^ 32)
    let serving := fullCluster (.serve 0) .free (token 0 0) (2 ^ 32)
    let saved := fullCluster .ready .free (token 0 0) (2 ^ 32)
    (∀ s ∈ [drained, killed, aborted, serving, saved], (s.cluster 0).stopped = false ∧ s.dispatchable 0 = [entryOf 2 3 1 false] ∧
      (s.cluster 0).readyQ = [entryOf 2 3 1 false] ∧ (s.ctxState 0 0).holder = none ∧ (∃ r, s.reg? 1 = some r ∧ r.hdr.tiles = []) ∧
      (∃ w, (s.part 0).pretok[3]? = some w) ∧ ((s.part 0).clustersOnDie (s.homeDie 0 headerG)) ≠ [] ∧ (s.cluster 0).stored < 170 ∧
      ∀ x ∈ s.regs, x.spawner ≠ some 7) ∧
    drainLimit (token (2 ^ 32 - 1) 0) = 0xFFFFFFFF ∧ ¬ (drainLimit (token 0 1) = 0xFFFFFFFF) ∧
    ¬ ((2 ^ 5 + 2 ^ 32) / 2 ^ 32 - (killed.cur.task.elim 0 (fun k => k.ranBefore + (killed.tick - k.dispatched))) / 1024 ≤ drainLimit (token 0 1)) ∧
    Nat.testBit (2 ^ 5 + 2 ^ 32) 5 = true ∧ 0 < killLimit (token 0 1) ∧ ¬ Nat.testBit (1 + 2 ^ 32) 5 = true ∧ serving.cur.wait = .serve 0 := by
  refine ⟨?_, ?_⟩
  · intro s h
    have : s = fullCluster .ready .free (word ((2 ^ 32 - 1) * 2 ^ 32 + 0)) 0 ∨ s = fullCluster .ready .free (word (0 * 2 ^ 32 + 1)) (2 ^ 5 + 2 ^ 32) ∨
        s = fullCluster .ready .ordered (word (0 * 2 ^ 32 + 0)) (1 + 2 ^ 32) ∨ s = fullCluster (.serve 0) .free (word (0 * 2 ^ 32 + 0)) (2 ^ 32) ∨
        s = fullCluster .ready .free (word (0 * 2 ^ 32 + 0)) (2 ^ 32) := by simpa using h
    rcases this with rfl | rfl | rfl | rfl | rfl <;>
      exact ⟨by decide +kernel, by decide +kernel, by decide +kernel, by decide +kernel, ⟨_, rfl, rfl⟩, ⟨_, rfl⟩, by decide +kernel, by decide +kernel, by decide +kernel⟩
  · decide +kernel

theorem witness_PreemptionFollowsR33_occupied : ∀ n < 128, occupied (fullCluster .ready .free 0 0) 0 n := by
  intro n h
  rcases n with _ | n
  · exact ⟨_, List.mem_cons_self .., rfl, rfl, rfl, by decide +kernel⟩
  · refine ⟨{ Thread.idle ⟨.barrel, 0, n + 1⟩ with wait := .ready }, List.mem_cons_of_mem _ (List.mem_map.2 ⟨n, List.mem_range.2 (by omega), rfl⟩), rfl, rfl, rfl, ?_⟩
    intro h; cases h

/-- A forwarded task, an entry to be aged, a victim at rest and one in an access, the summit holder queued and not. -/
theorem witness_QueuesMove :
    let f : Forward := { cl := 0, entry := entryOf 1 3 1 false, src := 1 }
    let fs := (world [] freeTask).mapDie 0 fun d => { d with forwards := [f] }
    let aged := queued [entryOf 1 3 1 false] [] freeTask
    let v (w : Wait) : State :=
      let s := queued [] [regOf 1 12 0] freeTask
      { s with cur := { s.cur with wait := w, ckpt := true } }
    let h := { entryOf 1 0 1 true with key := 5 }
    let hs := inCtx (queued [h] [regOf 1 1 5] freeTask) { CtxState.reset with holder := some (1, 0) }
    (fs.die 0).forwards = [f] ∧ ((aged.cluster 0).readyQ[0]?).map (fun e => decide (e.agedAt ≤ aged.tick ∧ e.prio < 7)) = some true ∧
    (v .ready).cur.task = some freeTask ∧ (v .ready).cur.id.kind = .barrel ∧ (v .ready).cur.ckpt = true ∧ (v .ready).cur.tq = [] ∧
    ((v .ready).cluster 0).stored < 170 ∧ hs.holderQueued 0 0 = some (0, h) ∧ hs.reg? 1 = some (regOf 1 1 5) ∧ ChosenSlot hs 0 ⟨.barrel, 0, 32⟩ ∧
    (hs.cluster 0).stopped = false ∧ (hs.part 0).residentAt ((hs.part 0).logicalCl 0) = some 0 ∧
    (queued [h] [regOf 1 1 5] freeTask).holderQueued 0 0 = none := by
  refine ⟨rfl, ?_, rfl, rfl, rfl, rfl, ?_, ?_, rfl, ?_, ?_, ?_, ?_⟩ <;> first | decide +kernel | (unfold ChosenSlot occupied; decide +kernel)

/-- A range of three, a share with a free context and empty queues, one behind a queue, and shares of two instances and of one to be taken. -/
theorem witness_RangesAreSplit :
    let s := headerAt 0x20000 0 0 0 3 freeTask
    let h : Share := { part := 0, ctx := 0, reg := 1, next := 4, left := 2, src := none }
    let share (q : List QEntry) : State := (queued q [regOf 1 12 0] freeTask).mapDie 0 fun d => { d with shares := [h] }
    let two (n : Nat) : State :=
      ((queued [] [regOf 1 12 0] freeTask).mapDie 1 fun d => { d with shares := [{ h with left := n }] }).mapPart 0 fun t => { t with pdesc := word (2 ^ 63 + 16 * 2 ^ 8) }
    s.cur.task = some freeTask ∧ HeaderAt (s.release .prt) (read (s.release .prt)) 0x10080 0 headerG (headerBytes s) ∧ s.speculative = false ∧ (s.g 5).toNat ≠ 0 ∧ depsOf (headerBytes s) = 0 ∧
    headerFails (headerBytes s) (s.regs.any fun r => r.part == 0 && r.gpa == headerG) 3 (ownKey freeTask) = none ∧
    ((share []).die 0).shares = [h] ∧ h.ctx = ((share []).part 0).resident ∧ ((share []).part 0).vacant = false ∧ (share []).reg? 1 = some (regOf 1 12 0) ∧
    0 ∈ ((share []).part 0).clustersOnDie 0 ∧ ((share []).cluster 0).stopped = false ∧ ChosenSlot (share []) 0 ⟨.barrel, 0, 32⟩ ∧
    (∀ cl ∈ ((share []).part 0).clustersOnDie 0, ((share []).cluster cl).readyQ = []) ∧
    (∃ cl ∈ ((share []).part 0).clustersOnDie 0, ((share [entryOf 1 3 1 false]).cluster cl).readyQ ≠ []) ∧
    ((two 2).die 1).shares = [{ h with left := 2 }] ∧ ((two 1).die 1).shares = [{ h with left := 1 }] ∧ (two 2).reg? 1 = some (regOf 1 12 0) ∧
    (∃ x ∈ ((((share []).mapDie 0 fun d => { d with shares := [{ h with src := some 1 }] })).die 0).shares, x.part = 0 ∧ x.src ≠ none) ∧ 0 ∈ ((two 2).part 0).dies ∧ 1 ∈ ((two 2).part 0).dies := by
  refine ⟨rfl, header_at _ _ _ ?_ ?_ ?_, rfl, ?_, ?_, ?_, rfl, ?_, ?_, rfl, ?_, ?_, ?_, ?_, ?_, rfl, rfl, rfl, ⟨_, List.mem_cons_self .., rfl, nofun⟩, ?_, ?_⟩ <;>
    first | decide +kernel | (unfold ChosenSlot occupied; decide +kernel)

/-! ### The summit, commits, accesses in flight, walks and engine requests -/

/-- The same context state with reports of die 0. -/
def reports (holder : Option (Nat × Nat)) (key : Word) (finished : List Task) (stalled : List Nat) : CtxState :=
  { CtxState.reset with holder := holder, reports := [(0, some key)], finished := finished, stalled := stalled }

/-- A running ordered task whose die reports, before anything is named and with the holder named. -/
theorem witness_SummitNamesTheHolder :
    let s : State := { world [] orderedTask with regs := [regOf 1 1 0x100] }
    let h := inCtx s (reports (some (1, 0)) 0x100 [] [])
    (∀ x ∈ [s, h], (x.part 0).vacant = false ∧ (x.part 0).resident = 0 ∧ (x.part 0).sweep = none ∧ ∀ k, x.holderTask 0 0 = some k → k.irrevocable = false) ∧
    h.holderKey 0 0 = some 0x100 ∧ s.holderKey 0 0 ≠ some 0x100 ∧ s.withKey 0 0 0x100 = [(1, 0)] ∧ (∃ t, exec (.summitReport 0 0 0) s = .next t ∧ IsSummit t 0 0 0x100) := by
  refine ⟨fun x m => ?_, by decide +kernel, by decide +kernel, by decide +kernel, ?_⟩
  · have : x = { world [] orderedTask with regs := [regOf 1 1 0x100] } ∨ x = inCtx { world [] orderedTask with regs := [regOf 1 1 0x100] } (reports (some (1, 0)) 0x100 [] []) := by
      simpa using m
    rcases this with rfl | rfl
    · refine ⟨by decide +kernel, by decide +kernel, by decide +kernel, fun k e => ?_⟩
      have n : (State.holderTask { world [] orderedTask with regs := [regOf 1 1 0x100] } 0 0) = none := by rfl
      rw [n] at e; cases e
    · refine ⟨by decide +kernel, by decide +kernel, by decide +kernel, fun k e => ?_⟩
      have n : (State.holderTask (inCtx { world [] orderedTask with regs := [regOf 1 1 0x100] } (reports (some (1, 0)) 0x100 [] [])) 0 0) = some orderedTask := by rfl
      rw [n] at e; cases e; rfl
  · have h : after (exec (.summitReport 0 0 0) { world [] orderedTask with regs := [regOf 1 1 0x100] })
        (fun t => decide ((t.ctxState 0 0).reports = [(0, some 0x100)]) && decide ((t.ctxState 0 0).finished = [])) = true := by decide +kernel
    unfold after at h
    split at h
    · rename_i t e
      simp only [Bool.and_eq_true, decide_eq_true_eq] at h
      refine ⟨t, e, ?_⟩
      unfold IsSummit
      simp [h.1, h.2]
    · cases h

/-- The line at 0x10000 with a byte that a task has buffered. -/
def bufferedLine (uid : Nat) : SsbLine := { owner := uid, loc := .dram 0 (2 ^ 25), bytes := [(8, 5)], whole := [] }

/-- A finished ordered task beside the running one, with its line buffered and its registration live n times. -/
def committing (k run : Task) (n : Nat) (rs : List Registration) (x : CtxState) : State :=
  let s := inCtx ((world [] run).mapCluster 0 fun c => { c with ssb := [bufferedLine k.uid] }) x
  { s with regs := { regOf 2 1 0x100 with live := n } :: rs }

/-- Stage 2 refuses the access. -/
def refuses (a : HomeAnswer) : Bool :=
  match a with
  | .fault _ _ => true
  | _ => false

theorem buffered_line (k run : Task) (n : Nat) (rs : List Registration) (x : CtxState) : Buffered (committing k run n rs x) k.uid fun _ => 2 ^ 25 := by
  have e : (committing k run n rs x).ssbOf k.uid = [bufferedLine k.uid] := by
    show List.flatMap _ [(0, _)] = _
    simp [bufferedLine]
  refine ⟨?_, ?_, ?_⟩ <;> rw [e]
  · intro y h
    obtain rfl := List.mem_singleton.1 h
    refine ⟨0, 2 ^ 25, rfl, fun j hj => ?_⟩
    have c : (committing k run n rs x).physOf 0 (2 ^ 25 + j) = (world [] freeTask).physOf 0 (2 ^ 25 + j) := rfl
    have d : ∀ j < 64, (world [] freeTask).physOf 0 (2 ^ 25 + j) = some (2 ^ 25 + j) := by decide +kernel
    rw [c, d j hj]
    exact ⟨rfl, rfl⟩
  · intro y h
    obtain rfl := List.mem_singleton.1 h
    refine ⟨fun b m => ?_, List.nodup_singleton _⟩
    obtain rfl := List.mem_singleton.1 m
    decide
  · exact List.pairwise_singleton ..

theorem lines_granted {s : State} {uid : Nat} (e : s.ssbOf uid = [bufferedLine uid]) (g : isGranted (s.agentHome (.dram 0 (2 ^ 25)) true) = true) : LinesGranted s uid := by
  refine ⟨fun i => if i = 0 then s else (s.agentHome (.dram 0 (2 ^ 25)) true).after s, rfl, ?_⟩
  rintro (_ | i) y h
  · rw [e] at h
    obtain rfl : bufferedLine uid = y := by simpa using h
    show s.agentHome (.dram 0 (2 ^ 25)) true = _
    revert g
    cases s.agentHome (.dram 0 (2 ^ 25)) true <;> simp [isGranted, HomeAnswer.after]
  · rw [e] at h
    simp at h

/-- A finished holder with one exit to come and with two; a holder that has stalled; a reader that a commit aborts. -/
theorem witness_CommitsApplyTheBuffers :
    let k : Task := { orderedTask with uid := 8, reg := 2 }
    let done := reports (some (2, 0)) 0x100 [k] []
    let s (n : Nat) := committing k freeTask n [] done
    let held := committing k k 1 [] (reports (some (2, 0)) 0x100 [] [8])
    let st : State := { held with cur := { held.cur with wait := .summit } }
    let q : Task := { orderedTask with sig := BitVec.allOnes 2048 }
    let a := committing k q 1 [regOf 1 1 0x100] done
    (∀ n, (s n).nameHolder 0 0 = s n ∧ ((s n).part 0).vacant = false ∧ ((s n).part 0).resident = 0 ∧ ((s n).part 0).sweep = none ∧ Canonical (s n) ∧ (s n).faults = []) ∧
    ((s 1).ctxState 0 0).holder = some (k.reg, k.idx) ∧ ((s 1).ctxState 0 0).finished = [k] ∧ k.pubs = [] ∧ ((s 1).part 0).bindings = [] ∧
    (s 2).reg? 2 = some { regOf 2 1 0x100 with live := 2 } ∧ LinesGranted (s 1) 8 ∧ LinesGranted st 8 ∧ LinesGranted a 8 ∧
    refuses (({ s 1 with s2map := [(1, { w := false, frame := 1 })], l2 := [] } : State).agentHome (.dram 0 (2 ^ 25)) true) = true ∧ (∀ x ∈ (s 1).allTasks, x.cls = .ordered → x.uid = k.uid) ∧
    st.nameHolder 0 0 = st ∧ (st.ctxState 0 0).holder = some (2, 0) ∧ st.holderTask 0 0 = some k ∧ st.cur.wait = .summit ∧ 8 ∈ (st.ctxState 0 0).stalled ∧
    (∀ x ∈ st.allTasks, x.cls = .ordered → x.uid = k.uid) ∧ a.nameHolder 0 0 = a ∧ a.cur.task = some q ∧ q.irrevocable = false ∧ k.key.toNat ≤ q.key.toNat ∧
    a.ssbOf k.uid = [bufferedLine 8] ∧ sigHits q.sig (a.sigLine (.dram 0 (2 ^ 25))) = true ∧ (∀ z ∈ a.allTasks, z.cls = .ordered → z = q ∨ z = k) ∧
    a.reg? 1 = some (regOf 1 1 0x100) ∧ (a.part 0).clustersOnDie (a.homeDie 0 headerG) ≠ [] := by
  refine ⟨fun n => ⟨rfl, rfl, rfl, rfl, canonical_of_empty _ rfl rfl (fun e h => by obtain rfl := List.mem_singleton.1 h; rfl), rfl⟩, rfl, rfl, rfl, rfl, rfl,
    lines_granted ?_ ?_, lines_granted ?_ ?_, lines_granted ?_ ?_, ?_, ?_, rfl, rfl, rfl, rfl, ?_, ?_, rfl, rfl, rfl, ?_, rfl, ?_, ?_, rfl, ?_⟩
  iterate 7 · decide +kernel
  · decide +kernel
  · decide +kernel
  · decide +kernel
  · decide +kernel
  · decide +kernel
  · intro z h _
    have e : (committing { orderedTask with uid := 8, reg := 2 } { orderedTask with sig := BitVec.allOnes 2048 } 1 [regOf 1 1 0x100]
        (reports (some (2, 0)) 0x100 [{ orderedTask with uid := 8, reg := 2 }] [])).allTasks =
        [{ orderedTask with sig := BitVec.allOnes 2048 }, { orderedTask with uid := 8, reg := 2 }] := rfl
    rw [e] at h
    simpa using h
  · decide +kernel

theorem backed_at : Backed atPage (.dram 0 (2 ^ 25 + 8)) := backed_page _ _ rfl (fun _ _ => rfl) rfl

theorem turn_alone {s : State} {l : Loc} (h : s.lineHeldAt l = false) (o : s.others = []) : TurnHere s l := by
  refine ⟨h, fun p g _ th m => ?_⟩
  rw [o] at m
  cases m

/-- An access in flight at 0x10008. -/
def flying (a : Access) : State :=
  { atPage with cur := { atPage.cur with wait := .access a (.dram 0 (2 ^ 25 + 8)) } }

/-- A direct load, an acquire load and a store in flight; a copy in a die's cache on its way out, and nothing on its way. -/
theorem witness_AccessesRetire :
    let x : RdcInv := { vmid := 0, line := 2 ^ 19, home := 1, who := 7, seen := false }
    let s (o : AccessOp) (r : MemOrder) : State := flying { op := o, order := r, va := 0x10008, len := 4 }
    (∀ o r, NotOrdered (s o r) ∧ (s o r).elsewhere (.dram 0 (2 ^ 25 + 8)) = none ∧ Backed (s o r) (.dram 0 (2 ^ 25 + 8)) ∧ Canonical (s o r) ∧ (s o r).faults = [] ∧
      (s o r).poisonedAt (.dram 0 (2 ^ 25 + 8)) 8 = false) ∧
    (∀ w b : Bool, isGranted (atPage.refill (.dram 0 (2 ^ 25 + 8)) w b) = true) ∧ (∀ o r, (s o r).lineHeldAt (.dram 0 (2 ^ 25 + 8)) = false) ∧
    ({ s (.load .d 3) .direct with reqs := [{ someReq .copy [] with holds := some (0, 2 ^ 19) }] } : State).lineHeldAt (.dram 0 (2 ^ 25 + 8)) = true ∧ (∀ o r, { s o r with cur := { (s o r).cur with wait := .ready } } = atPage) ∧
    (AccessOp.load .d 3).size = 8 ∧ (Loc.dram 0 (2 ^ 25 + 8)).offset % 8 = 0 ∧ (∀ a l, atPage.cur.wait ≠ .access a l) ∧
    (∀ o r, TurnHere (s o r) (.dram 0 (2 ^ 25 + 8))) ∧ (∀ o r, (s o r).others = []) ∧
    (let h : State := { flying { op := .load .d 3, order := .direct, va := 0x10008, len := 4 } with cur := { atPage.cur with wait := .home (.dram 0 (2 ^ 25 + 8)) } }
     h.cur.wait = .home (.dram 0 (2 ^ 25 + 8)) ∧ TurnHere h (.dram 0 (2 ^ 25 + 8)) ∧
     ¬ TurnHere { h with reqs := [{ someReq .copy [] with holds := some (0, 2 ^ 19) }] } (.dram 0 (2 ^ 25 + 8))) ∧
    ((atPage.mapDie 0 fun d => { d with rdcInv := [x], rdc := [{ vmid := 0, line := 2 ^ 19 + 1, slice := 0, data := [], poison := [] }] }).die 0).rdcInv = x :: [] ∧
    ((atPage.mapDie 0 fun d => { d with hostInv := [(2 ^ 13, 7)], hostLines := [{ line := 2 ^ 13, data := [], poison := [] }] }).die 0).hostInv = [(2 ^ 13, 7)] ∧
    (atPage.die 0).rdcInv = [] ∧ (atPage.die 0).hostInv = [] := by
  refine ⟨fun o r => ⟨fun k h => by cases h; rfl, rfl, backed_at, canonical_of_empty _ rfl rfl (fun e h => by obtain rfl := List.mem_singleton.1 h; rfl), rfl,
      by show atPage.poisonedAt (.dram 0 (2 ^ 25 + 8)) 8 = false; decide +kernel⟩, by decide +kernel, fun _ _ => rfl, by decide +kernel, fun _ _ => rfl, rfl, rfl, ?_, fun _ _ => turn_alone rfl rfl,
      fun _ _ => rfl, ⟨rfl, turn_alone rfl rfl, fun h => absurd h.1 (by decide +kernel)⟩, rfl, rfl, rfl, rfl⟩
  intro a l h; cases h

/-- Page tables in the page at 0x10000 whose leaf covers the VA 0x50000, and a walk for it. -/
def walking (leaf : Nat) (acc : Nat) : State :=
  let s := (State.holding (world [] freeTask) [(0x100, 2 ^ 25 + 0x8000), (0x8000, 2 ^ 25 + 0x10000 + 1), (0x10000, leaf)]).mapPart 0 fun t => { t with ctxdesc := 2 ^ 25 + 0x100 }
  { s with
    cur := { s.cur with wait := .walk 3 }
    walks := [{ id := 3, who := .thread ⟨.barrel, 0, 0⟩, part := 0, ctx := 0, tlb := 0, va := 0x50000, acc := acc, user := true, src := 0, stamp := 0,
                       trap := { kind := 0, taddr := 0, tinfo := 0 } }] }

/-- A walk that ends at a leaf that permits a store, at one that does not, and at no leaf. -/
theorem witness_WalksEnd :
    let ok := walking 0x3F 1
    let no := walking 0x37 1
    let none_ := walking 0 1
    (∀ s ∈ [ok, no, none_], ∃ w, (s.walks.find? fun x => x.id == 3) = some w ∧ w.who = .thread s.cur.id ∧ s.hostPasid = none ∧ w.tlb < 512 ∧ (s.cluster w.tlb).walkCache = [] ∧
      (s.cluster w.tlb).shots = [] ∧ w.part = s.curPart ∧ s.faults = [] ∧ s.cur.wait = .walk w.id) ∧
    ok.walkRoot 0 0 0x50000 = .leaf 0x3F (2 ^ 25 + 0x10000) 36 ∧ leafAllows 0x3F 1 true = true ∧ Canonical ok ∧
    (∀ j < 8, ok.physOf 0 (2 ^ 25 + 0x10000 + j) = some (2 ^ 25 + 0x10000 + j) ∧ (ok.part 0).windowAt (2 ^ 25 + 0x10000 + j) = none) ∧
    isGranted (ok.agentHome (.dram 0 (2 ^ 25 + 0x10000)) true) = true ∧
    none_.walkRoot 0 0 0x50000 = .fault 1 3 ∧ no.walkRoot 0 0 0x50000 = .leaf 0x37 (2 ^ 25 + 0x10000) 36 ∧ leafAllows 0x37 1 true = false ∧
    (∀ s ∈ [ok, no], ((s.part 0).windowAt (s.selected 0 (leafGpa 0x3F 36 0x50000))).isSome = false) ∧
    (let v := ok.mapPart 0 fun t =>
        { t with conf := { t.conf with windows := [(0, { view := 0, store := 2 ^ 26, len := 2 ^ 20, scale := 0, ctl := 0x1000 })] } }
     v.walkRoot 0 0 0x50000 = .leaf 0x3F (2 ^ 25 + 0x10000) 36 ∧ ((v.part 0).windowAt (v.selected 0 (leafGpa 0x3F 36 0x50000))).isSome = true) := by
  refine ⟨fun s h => ?_, ?_, ?_, canonical_of_empty _ ?_ rfl ?_, ?_, ?_, ?_, ?_, ?_, ?_, ?_⟩
  all_goals try decide +kernel
  have : s = walking 0x3F 1 ∨ s = walking 0x37 1 ∨ s = walking 0 1 := by simpa using h
  rcases this with rfl | rfl | rfl <;> exact ⟨_, rfl, rfl, rfl, by decide, rfl, rfl, rfl, rfl, rfl⟩

/-- An engine request with its block. -/
def reqOf (kind : ReqKind) (blk : List Word) : Req :=
  { id := 5, kind := kind, blk := blk, va := 0x10080, part := 0, ctx := 0, uid := 7, cl := 0, ordered := false, user := true, pos := 0, done := 0, endKind := none
    faddr := 0, elem := 0, sid := 0, ahead := [], waits := false, recorded := false, holds := none, cnts := [], token := none, parent := none, children := 0, exited := false, aborted := false, stage := 0, noRecord := false
    noAction := false, umbra := none, die := 0, core := 0, started := false, belay := false, entry := 0, peer := [] }

/-- A supervisor thread with the token that an engine request waits for. -/
theorem witness_WakesEndTheWait_engine :
    let q : Req := { reqOf .copy [] with token := some 8 }
    let s : State := State.status { world [(4, 8), (5, 1), (6, 2)] freeTask with faults := [waitsFor (.engine 5)], reqs := [q] } 0x800
    1 ≤ s.mode ∧ waitsFor (.engine 5) ∈ s.faults ∧ (8 : Word) = s.g 4 ∧ s.curPart = 0 ∧ (∀ x ∈ s.faults, x = waitsFor (.engine 5)) ∧ s.req? 5 = some q ∧
    q.kind ≠ .strm ∧ q.stage = 0 ∧ (s.g 0).toNat % 4 = 0 ∧ (s.g 5).toNat % 4 = 1 ∧ (s.g 6).toNat % 4 = 2 := by
  decide +kernel

/-- A world in which the engines of die 0 reach the page at 0x10000, with a request and bytes of the page. -/
def serving (q : Req) (l : List (Nat × Nat)) (poison : List Nat) : State :=
  let s := (State.holding (world [] freeTask) l).mapStack 0 fun k => { k with tlb := [page] }
  { s with reqs := [q], poison := poison }

/-- The state after an access of an agent at the page. -/
def used (s : State) (g : Nat) (w : Bool) : State := (s.agentHome (.dram 0 g) w 5).after s

theorem nothing_ahead {s : State} {q : Req} (h : s.reqs = [q]) (e : q.ahead = []) : ∀ x ∈ s.reqs, ∀ a ∈ x.ahead, a.dst = none := by
  intro x m a n
  rw [h] at m
  obtain rfl := List.mem_singleton.1 m
  rw [e] at n
  cases n

/-- What `EngineAt` asks of the page, as a test. -/
def engineOk (s : State) (q : Req) (va : Word) (write : Bool) (g : Nat) : Bool :=
  (match s.agentLocate q.part q.ctx q.cl q.tlb va (if write then 1 else 0) q.user with
    | .at l u => decide (l = .dram 0 g) && decide (u = s)
    | _ => false) &&
  !s.agentView q.part q.ctx q.cl q.tlb va && decide (q.id = 5) && isGranted (s.agentHome (.dram 0 g) write 5)

theorem engine_at {s : State} {q : Req} {va : Word} {write : Bool} {g : Nat} (h : engineOk s q va write g = true) :
    EngineAt s (used s g write) q va write (.dram 0 g) := by
  simp only [engineOk, Bool.and_eq_true, Bool.not_eq_true', decide_eq_true_eq] at h
  obtain ⟨⟨⟨a, w⟩, i⟩, b⟩ := h
  refine ⟨w, ?_, ?_⟩
  · split at a
    · rename_i l u e
      simp only [Bool.and_eq_true, decide_eq_true_eq] at a
      rw [e, a.1, a.2]
    · cases a
  · show s.agentHome (.dram 0 g) write q.id = _
    rw [i]
    unfold used
    cases e : s.agentHome (.dram 0 g) write 5 <;> simp [e, isGranted, HomeAnswer.after] at b ⊢

theorem canonical_page {s : State} (h : s.mem.wf && s.hostMem.wf && s.clusters.all (fun e => decide (e.2.scratch = [])) = true) : Canonical s := by
  simp only [Bool.and_eq_true, List.all_eq_true, decide_eq_true_eq] at h
  exact canonical_of_empty _ h.1.1 h.1.2 h.2

/-- A `COPY` whose next line is sound, and one whose line is poisoned. -/
theorem witness_EnginesDeliver_copy :
    let q := reqOf .copy [0x10000, 0x10080, 0, 0x40 * 2 ^ 32 + 1, 0, 0, 0, 0]
    let s := serving q [(0, 0x1122334455667788)] []
    let p := serving q [] [2 ^ 22]
    Canonical s ∧ s.faults = [] ∧ Delivering s q .copy ∧ copyVa q 0 0 = 0x10000 ∧ copyVa q 1 32 = 0x10080 ∧ EngineAt s (used s (2 ^ 25) false) q 0x10000 false (.dram 0 (2 ^ 25)) ∧
    64 ≤ (bd q.blk 3).toNat / 2 ^ 32 ∧ s.poisonedAt (.dram 0 (2 ^ 25)) 64 = false ∧ EngineAt (used s (2 ^ 25) false) (used (used s (2 ^ 25) false) headerG true) q 0x10080 true (.dram 0 headerG) ∧
    Lies s (.dram 0 headerG) 64 headerG ∧ Canonical p ∧ Delivering p q .copy ∧ EngineAt p (used p (2 ^ 25) false) q 0x10000 false (.dram 0 (2 ^ 25)) ∧
    (bd q.blk 5).getLsbD 0 = false ∧ p.poisonedAt (.dram 0 (2 ^ 25)) 64 = true := by
  refine ⟨canonical_page ?_, rfl, ⟨rfl, rfl, rfl, ⟨rfl, rfl, rfl, rfl, rfl, rfl, rfl, rfl⟩, nothing_ahead rfl rfl, rfl, rfl⟩, ?_, ?_, engine_at ?_, ?_, ?_, engine_at ?_, ⟨0, headerG, rfl, ?_⟩, canonical_page ?_,
    ⟨rfl, rfl, rfl, ⟨rfl, rfl, rfl, rfl, rfl, rfl, rfl, rfl⟩, nothing_ahead rfl rfl, rfl, rfl⟩, engine_at ?_, ?_, ?_⟩ <;> decide +kernel

/-- A `GATHER` into the scratchpad whose index names an aligned element, and one of three bytes whose index does not. -/
theorem witness_EnginesDeliver_gather :
    let q := reqOf .gather [0x10000, 0x10040, 0x00FF000000000000, 8 * 2 ^ 32 + 1, 0, 0, 0, 0]
    let m := reqOf .gather [0x10000, 0x10040, 0x00FF000000000000, 3 * 2 ^ 32 + 1, 0, 0, 0, 0]
    let s := serving q [(0, 1)] []
    let t := serving m [(0, 1)] []
    Canonical s ∧ s.faults = [] ∧ Delivering s q .gather ∧ EngineAt s (used s (2 ^ 25) false) q 0x10000 false (.dram 0 (2 ^ 25)) ∧ s.poisonedAt (.dram 0 (2 ^ 25)) 4 = false ∧
    leNat (s.bytesAt (.dram 0 (2 ^ 25)) 4) = 1 ∧ EngineAt (used s (2 ^ 25) false) (used (used s (2 ^ 25) false) (2 ^ 25 + 0x48) false) q 0x10048 false (.dram 0 (2 ^ 25 + 0x48)) ∧ s.poisonedAt (.dram 0 (2 ^ 25 + 0x48)) 8 = false ∧
    s.place 0 0 0x00FF000000000000 = .at (.scratch 0 0) ∧ s.elsewhereOf 0 0 none (.scratch 0 0) = none ∧ Delivering t m .gather ∧ EngineAt t (used t (2 ^ 25) false) m 0x10000 false (.dram 0 (2 ^ 25)) ∧
    (bd m.blk 1 + 1 * 3 : Word).toNat % 3 ≠ 0 := by
  refine ⟨canonical_page ?_, rfl, ⟨rfl, rfl, rfl, ⟨rfl, rfl, rfl, rfl, rfl, rfl, rfl, rfl⟩, nothing_ahead rfl rfl, rfl, rfl⟩, engine_at ?_, ?_, ?_, engine_at ?_, ?_, ?_, ?_,
    ⟨rfl, rfl, rfl, ⟨rfl, rfl, rfl, rfl, rfl, rfl, rfl, rfl⟩, nothing_ahead rfl rfl, rfl, rfl⟩, engine_at ?_, ?_⟩ <;> decide +kernel

/-- An `RCOPY` with a sound line and with a poisoned one; a `COPYP` with and without a program. -/
theorem witness_EnginesDeliver_rest :
    let q := reqOf .rcopy [0x10000, 0x90000, 128, 0, 0, 0, 0, 0]
    let s := serving q [] []
    let p := serving q [] [2 ^ 22]
    let c (entry : Word) := { reqOf .copyp [0, 0, 0, 0, 0, 0, 0, 0] with entry := entry }
    let u (entry : Word) := serving (c entry) [] []
    Canonical s ∧ s.faults = [] ∧ Delivering s q .rcopy ∧ EngineAt s (used s (2 ^ 25) false) q 0x10000 false (.dram 0 (2 ^ 25)) ∧ s.poisonedAt (.dram 0 (2 ^ 25)) 64 = false ∧
    q.pos < (bd q.blk 2).toNat / 64 ∧ Delivering (serving { q with pos := 2 } [] []) { q with pos := 2 } .rcopy ∧ (bd q.blk 2).toNat / 64 ≤ 2 ∧ EngineAt p (used p (2 ^ 25) false) q 0x10000 false (.dram 0 (2 ^ 25)) ∧ p.poisonedAt (.dram 0 (2 ^ 25)) 64 = true ∧ Canonical p ∧
    (∀ e, Delivering (u e) (c e) .copyp ∧ (c e).started = false ∧ ∀ th ∈ (u e).cur :: (u e).others, th.id.kind ≠ .memory) := by
  refine ⟨canonical_page ?_, rfl, ⟨rfl, rfl, rfl, ⟨rfl, rfl, rfl, rfl, rfl, rfl, rfl, rfl⟩, nothing_ahead rfl rfl, rfl, rfl⟩, engine_at ?_, ?_, ?_, ⟨rfl, rfl, rfl, ⟨rfl, rfl, rfl, rfl, rfl, rfl, rfl, rfl⟩, nothing_ahead rfl rfl, rfl, rfl⟩, ?_, engine_at ?_, ?_, canonical_page ?_,
    fun e => ⟨⟨rfl, rfl, rfl, ⟨rfl, rfl, rfl, rfl, rfl, rfl, rfl, rfl⟩, nothing_ahead rfl rfl, rfl, ?_⟩, rfl, ?_⟩⟩ <;> try decide +kernel
  · show BitVec.getLsbD (0 : Word) 3 = false; decide
  intro th h
  obtain rfl := List.mem_singleton.1 h
  intro e; cases e

/-- A request with neither, with a record, with a future unresolved and resolved, and with a rope that has bytes left. -/
theorem witness_RequestsComplete :
    let q (flags rec_ va : Nat) : Req := { reqOf .copy [0x10000, 0x10000, 0, 0x40 * 2 ^ 32 + 1, word rec_, word flags, word va, 9] with stage := 1, done := 64 }
    let s (flags rec_ va : Nat) (l : List (Nat × Nat)) : State := serving (q flags rec_ va) l []
    let r (x : State) : State := x.releasePrt 5
    let a (x : State) : State := (r x).mapReq 5 fun y => { y with stage := 2 }
    (∀ flags rec_ va l, (bd (q flags rec_ va).blk 5).getLsbD 3 = false ∧ (bd (q flags rec_ va).blk 5).getLsbD 1 = false → Ending (s flags rec_ va l) (q flags rec_ va)) ∧
    Canonical (s 0 0x10080 0 []) ∧ (s 0 0x10080 0 []).faults = [] ∧ EngineAt (r (s 0 0x10080 0 [])) (used (r (s 0 0x10080 0 [])) headerG true) (q 0 0x10080 0) 0x10080 true (.dram 0 headerG) ∧
    Lies (s 0 0x10080 0 []) (.dram 0 headerG) 64 headerG ∧
    (bd (q 0x200 0 0x10040).blk 5).toNat / 2 ^ 8 % 4 = 2 ∧ EngineAt (a (s 0x200 0 0x10040 [])) (used (a (s 0x200 0 0x10040 [])) ropeG true) (q 0x200 0 0x10040) 0x10040 true (.dram 0 ropeG) ∧
    Lies (s 0x200 0 0x10040 []) (.dram 0 ropeG) 8 ropeG ∧ (s 0x200 0 0x10040 []).biv = [] ∧ ((s 0x200 0 0x10040 []).part 0).queues = [] ∧
    ((s 0x200 0 0x10040 []).readD 0 ropeG).toNat / 2 ^ 62 < 2 ∧ Canonical (s 0x200 0 0x10040 [(0x40, 2 ^ 63)]) ∧
    2 ≤ ((s 0x200 0 0x10040 [(0x40, 2 ^ 63)]).readD 0 ropeG).toNat / 2 ^ 62 ∧
    EngineAt (a (s 0x200 0 0x10040 [(0x40, 2 ^ 63)])) (used (a (s 0x200 0 0x10040 [(0x40, 2 ^ 63)])) ropeG true) (q 0x200 0 0x10040) 0x10040 true (.dram 0 ropeG) ∧
    (bd (q 0x100 0 0x10040).blk 5).toNat / 2 ^ 8 % 4 = 1 ∧ EngineAt (a (s 0x100 0 0x10040 [(0x48, 65)])) (used (a (s 0x100 0 0x10040 [(0x48, 65)])) ropeG true) (q 0x100 0 0x10040) 0x10040 true (.dram 0 ropeG) ∧
    Lies (s 0x100 0 0x10040 [(0x48, 65)]) (.dram 0 ropeG) 16 ropeG ∧ ¬ brokenOf ((s 0x100 0 0x10040 [(0x48, 65)]).readD 0 ropeG) ∧
    64 < ((s 0x100 0 0x10040 [(0x48, 65)]).readD 0 (ropeG + 8)).toNat := by
  refine ⟨fun f r v l h => ⟨?_, ⟨rfl, rfl, rfl, rfl⟩, ⟨rfl, rfl, rfl, rfl⟩, rfl, h, ⟨rfl, rfl, rfl⟩, nofun⟩, canonical_page ?_, rfl, engine_at ?_, ⟨0, headerG, rfl, ?_⟩, ?_, engine_at ?_,
    ⟨0, ropeG, rfl, ?_⟩, rfl, ?_, ?_, canonical_page ?_, ?_, engine_at ?_, ?_, engine_at ?_, ⟨0, ropeG, rfl, ?_⟩, ?_, ?_⟩ <;> first | decide +kernel | rfl | (unfold brokenOf; decide +kernel)

/-- A request with a record and a future, unresolved and resolved. -/
theorem witness_RequestsComplete_both :
    let q : Req := { reqOf .copy [0x10000, 0x10000, 0, 0x40 * 2 ^ 32 + 1, 0x10080, 0x200, 0x10040, 9] with stage := 1, done := 64 }
    let s (w : Nat) : State := serving q [(0x40, w)] []
    let u (w : Nat) : State := used ((s w).releasePrt 5) headerG true
    let a (w : Nat) : State := (u w).mapReq 5 fun y => { y with stage := 2 }
    (∀ w, Ending (s w) q) ∧ (bd q.blk 5).toNat / 2 ^ 8 % 4 = 2 ∧ bd q.blk 4 ≠ 0 ∧ (bd q.blk 6).toNat % 8 = 0 ∧ (s 0).biv = [] ∧ ((s 0).part 0).queues = [] ∧
    (∀ w ∈ [0, 2 ^ 63], Canonical (s w) ∧ EngineAt ((s w).releasePrt 5) (u w) q 0x10080 true (.dram 0 headerG) ∧ Lies (s w) (.dram 0 headerG) 64 headerG ∧
      EngineAt (a w) (used (a w) ropeG true) q 0x10040 true (.dram 0 ropeG) ∧ Lies (s w) (.dram 0 ropeG) 8 ropeG) ∧
    ((s 0).readD 0 ropeG).toNat / 2 ^ 62 < 2 ∧ 2 ≤ ((s (2 ^ 63)).readD 0 ropeG).toNat / 2 ^ 62 ∧ ropeG + 8 ≤ headerG := by
  refine ⟨fun w => ⟨?_, ⟨rfl, rfl, rfl, rfl⟩, ⟨rfl, rfl, rfl, rfl⟩, rfl, ?_, ⟨rfl, rfl, rfl⟩, nofun⟩, ?_, ?_, ?_, rfl, rfl, fun w h => ?_, ?_, ?_, ?_⟩
  all_goals try first | decide +kernel | rfl
  have : w = 0 ∨ w = 2 ^ 63 := by simpa using h
  rcases this with rfl | rfl <;>
    exact ⟨canonical_page (by decide +kernel), engine_at (by decide +kernel), ⟨0, headerG, rfl, by decide +kernel⟩, engine_at (by decide +kernel), 0, ropeG, rfl, by decide +kernel⟩

/-- An umbra with a written chunk and one not written, with and without a request outstanding, kept and discarded. -/
theorem witness_FlipsSwitchTheBacking :
    let x : Umbra := { id := 3, part := 0, ctx := 0, owner := 7, base := 0x10000, len := 0x20000, cut := true, ordered := false, remote := none
                       chunks := [{ gpa := 512, shadow := 600, written := true }, { gpa := 513, shadow := 601, written := false }] }
    let s (q : List Req) : State :=
      let w := (world [] freeTask).mapPart 0 fun t => { t with umbras := [x] }
      { w with cur := { w.cur with wait := .flip 3 false }, reqs := q }
    (s []).cur.task = some freeTask ∧ (s []).cur.wait = .flip 3 false ∧ ((s []).part 0).umbras.find? (fun y => y.id == 3) = some x ∧ ((s []).part 0).select = [] ∧
    (x.chunks.map fun c => c.gpa).Nodup ∧ (∀ c ∈ x.chunks, ∀ d ∈ x.chunks, c.shadow ≠ d.gpa) ∧
    (∃ q ∈ (s [{ reqOf .copy [] with umbra := some 3 }]).reqs, q.part = 0 ∧ q.umbra = some 3) ∧ (∀ q ∈ (s []).reqs, q.part = 0 → q.umbra ≠ some 3) := by
  refine ⟨rfl, rfl, rfl, rfl, ?_, ?_, ?_, ?_⟩ <;> decide +kernel

/-! ### Fabrics -/

/-- A token with data. -/
def tok (w : Word) (poi : Bool) : Token := { Token.blank with data := w, poi := poi, packet := 3 }

/-- A call-mode image of one element, whose result goes to a destination. -/
def oneElement (e dst : Nat) (p : Pattern) : Image :=
  { someImage true 3 1 with pats := [p], elems := [(e, 0)], routes := [{ src := e, dst := dst, port := 0 }] }

/-- A pattern of an op with arcs at its three ports. -/
def arcs (op : Nat) (acc : Bool) (aux : Nat) : Pattern := { op := op, a := .arc, b := .arc, c := .arc, sx := false, acc := acc, aux := aux, const := 0 }

/-- A fabric on cluster 0, changed by f. -/
def fabricked (k : Task) (f : Fabric → Fabric) : State := (world [] k).mapCluster 0 fun c => { c with fabrics := [(0, f Fabric.reset)] }

/-- A fabric that holds such an image with a token at each port. -/
def loadedWith (e : Nat) (p : Pattern) (a b c : Token) : State :=
  fabricked freeTask fun g => { g with image := some (oneElement e 80 p), fifos := [(4 * e, [a]), (4 * e + 1, [b]), (4 * e + 2, [c])] }

/-- An element of each kind with three operands, of whatever op; the ops of 11 R275; an element without operands. -/
theorem witness_ElementsFire :
    (∀ e ∈ [1, 33, 51, 7, 0, 37], ∀ op acc aux a b c, Fed (arcs op acc aux) ∧ FireReady ((loadedWith e (arcs op acc aux) a b c).fabric 0 0) (oneElement e 80 (arcs op acc aux)) (arcs op acc aux) e ∧
      Supplies ((loadedWith e (arcs op acc aux) a b c).fabric 0 0) (arcs op acc aux) e 0 a ∧ Supplies ((loadedWith e (arcs op acc aux) a b c).fabric 0 0) (arcs op acc aux) e 1 b ∧
      Supplies ((loadedWith e (arcs op acc aux) a b c).fabric 0 0) (arcs op acc aux) e 2 c ∧
      ((loadedWith e (arcs op acc aux) a b c).fabric 0 0).accs.getD e ((arcs op acc aux).const, false) = (0, false) ∧
      ((loadedWith e (arcs op acc aux) a b c).fabric 0 0).ages = [] ∧ ((loadedWith e (arcs op acc aux) a b c).fabric 0 0).delays = []) ∧
    elemKind 1 = .ce32 ∧ elemKind 33 = .ce64 ∧ elemKind 51 = .sge ∧ elemKind 7 = .te ∧ elemKind 0 = .age ∧ elemKind 37 = .de ∧ (tok 5 false).poi = false ∧
    (tok 3 true).poi = true ∧ { tok 5 false with dims := 1 }.dims.testBit (0 % 4) = true ∧ (tok 5 false).dims.testBit (3 % 4) = false ∧
    Takes (arcs 2 false 0) 2 ∧ (onFabric (world [] freeTask) (oneElement 1 80 (arcs 2 false 0))).fabric 0 0 = { Fabric.reset with image := some (oneElement 1 80 (arcs 2 false 0)) } := by
  refine ⟨fun e h op acc aux a b c => ?_, rfl, rfl, rfl, rfl, rfl, rfl, rfl, rfl, rfl, rfl, .inl rfl, rfl⟩
  have take (n : Nat) : Takes (arcs op acc aux) n := .inl (by rcases n with _ | _ | n <;> rfl)
  have : e = 1 ∨ e = 33 ∨ e = 51 ∨ e = 7 ∨ e = 0 ∨ e = 37 := by simpa using h
  rcases this with rfl | rfl | rfl | rfl | rfl | rfl <;>
    refine ⟨⟨0, by decide, take 0⟩, ⟨rfl, rfl, ⟨rfl, rfl, rfl, rfl⟩, fun n hn _ => ?_, fun r m _ => ?_, fun r m => ?_⟩, ⟨fun _ => rfl, fun q => absurd (take _) q⟩, ⟨fun _ => rfl, fun q => absurd (take _) q⟩,
      ⟨fun _ => rfl, fun q => absurd (take _) q⟩, rfl, rfl, rfl⟩ <;>
    first
      | (obtain rfl := List.mem_singleton.1 m; exact .inl (Nat.le_refl 80))
      | (obtain rfl := List.mem_singleton.1 m; exact Nat.zero_lt_succ 2)
      | (interval_cases n <;> exact List.cons_ne_nil _ _)

/-- The packet of the running task. -/
def packetOf (entered : Bool) (results : List (Nat × Token)) (fault : Option FabFault) : Packet :=
  { id := 3, t := ⟨.barrel, 0, 0⟩, uid := 7, sid := 7, d := 3, args := [1, 2, 3], entered := entered, free := [], results := results, fault := fault }

/-- An element whose ports are all constant, beside a packet for which it has not fired and one for which it has. -/
theorem witness_ConstantElementsFire :
    let p : Pattern := { op := 2, a := .const, b := .const, c := .none, sx := false, acc := false, aux := 0, const := 5 }
    let s (l : List Nat) : State := fabricked freeTask fun g => { g with image := some (oneElement 1 80 p), packets := [{ packetOf true [] none with free := l }] }
    let due (y : Packet) : Bool := y.entered && y.free.contains 1
    (∀ l, FireReady ((s l).fabric 0 0) (oneElement 1 80 p) p 1) ∧ ¬ Fed p ∧ Supplies ((s [1]).fabric 0 0) p 1 0 { Token.blank with data := 5 } ∧
    Supplies ((s [1]).fabric 0 0) p 1 1 { Token.blank with data := 5 } ∧ Supplies ((s [1]).fabric 0 0) p 1 2 Token.blank ∧
    ((s [1]).fabric 0 0).packets.find? due = some { packetOf true [] none with free := [1] } ∧ ((s []).fabric 0 0).packets.find? due = none := by
  have no : ∀ n, ¬ Takes { op := 2, a := .const, b := .const, c := .none, sx := false, acc := false, aux := 0, const := 5 } n := by
    intro n h
    rcases n with _ | _ | n <;> rcases h with h | ⟨j, h⟩ <;> cases h
  refine ⟨fun l => ⟨rfl, rfl, ⟨rfl, rfl, rfl, rfl⟩, fun n _ t => absurd t (no n), fun r m _ => ?_, fun r m => ?_⟩, fun ⟨n, _, t⟩ => no n t,
    ⟨fun t => absurd t (no 0), fun _ => ⟨rfl, rfl, rfl, rfl, rfl, rfl⟩⟩, ⟨fun t => absurd t (no 1), fun _ => ⟨rfl, rfl, rfl, rfl, rfl, rfl⟩⟩,
    ⟨fun t => absurd t (no 2), fun _ => ⟨rfl, rfl, rfl, rfl, rfl, rfl⟩⟩, rfl, rfl⟩
  · obtain rfl := List.mem_singleton.1 m; exact .inl (Nat.le_refl 80)
  · obtain rfl := List.mem_singleton.1 m; exact Nat.zero_lt_succ 2

/-- A memory element with its oldest access. -/
def aging (x : AgeAccess) : State :=
  fabricked freeTask fun g => { g with image := some (oneElement 0 1 (arcs 0x40 false 0)), ages := [x], packets := [packetOf true [] none] }

/-- An access of the memory element 0. -/
def ageOf (va : Word) (store : Bool) (t : Token) : AgeAccess := { elem := 0, va := va, store := store, lsz := 3, sx := false, value := 9, tok := t, waits := none, queued := false, fired := 3 }

/-- A load, a store, a guarded store, an access of a poisoned token and one of an address that no page can reach; a token in a delay element. -/
theorem witness_ElementsComplete :
    let l := ageOf 0x10008 false (tok 0 false)
    let w := ageOf 0x10008 true (tok 0 false)
    let u := ageOf 0x0100000000000000 false (tok 0 false)
    (∀ x : AgeAccess, ((aging x).fabric 0 0).image = some (oneElement 0 1 (arcs 0x40 false 0)) ∧ ((aging x).fabric 0 0).ages = [x] ∧
      ((aging x).fabric 0 0).packets.find? (fun p => p.id == 3) = some (packetOf true [] none) ∧ ((aging x).fabric 0 0).fifo 1 0 = [] ∧
      (aging x).cur.task = some freeTask ∧ (aging x).speculative = false ∧ Warm (aging x) ∧ ((aging x).fabric 0 0).stream = none) ∧
    (aging l).place 0 0 l.va = .paged ∧ (aging l).ageFatal 0 0 ((aging l).quietGpa 0 0 l.va) l = none ∧ (aging l).tlbHit 0 none false 0 ((aging l).asid 0 0) 0x10008 = some page ∧
    (aging l).selected 0 (page.gpaOf 0x10008) = 2 ^ 25 + 8 ∧ (aging l).cachedLine 0 (.dram 0 (2 ^ 25 + 8)) = none ∧
    (aging l).agentHome (.dram 0 (2 ^ 25 + 8)) false = .granted (aging l) ∧ (aging l).poisonedAt (.dram 0 (2 ^ 25 + 8)) 8 = false ∧
    (aging w).ageFatal 0 0 ((aging w).quietGpa 0 0 w.va) w = none ∧ (aging w).agentHome (.dram 0 (2 ^ 25 + 8)) true = .granted (aging w) ∧ Canonical (aging w) ∧ Backed (aging w) (.dram 0 (2 ^ 25 + 8)) ∧
    page.w = true ∧ page.d = true ∧ page.u = true ∧ (aging u).place 0 0 u.va = .unmapped ∧ { tok 0 false with gf := true }.gf = true ∧
    ((fabricked freeTask fun g => { g with image := some (oneElement 37 1 (arcs 0x60 false 1)), delays := [(37, [tok 5 false])] }).fabric 0 0).delays.getD 37 [] = [tok 5 false] ∧ NoneOver ((fabricked freeTask id).fabric 0 0) := by
  refine ⟨fun x => ⟨rfl, rfl, rfl, rfl, rfl, rfl, warm_free rfl rfl, rfl⟩, ?_, ?_, ?_, ?_, rfl, rfl, ?_, ?_, rfl, canonical_page ?_, backed_page _ _ rfl (fun _ _ => rfl) rfl, rfl, rfl, rfl, ?_, rfl, rfl, nofun⟩ <;>
    decide +kernel

/-- A nest of two dimensions of two points each, at a position in the middle and at the end, with leave and without, and a fabric that has admitted all it may. -/
theorem witness_StreamEnginesWalk :
    let n : Nest := { eng := 0, ndim := 2, bsrc := 0xFF, cnts := [2, 2, 0, 0], base := 0x1000, strs := [8, 64, 0, 0] }
    let i : Image := { someImage false 1 0 with nests := [n], routes := [{ src := 72, dst := 1, port := 0 }] }
    let s (pos admitted : Nat) : State :=
      (fabricked freeTask fun g => { g with image := some i, stream := some { req := 5, args := [1], pos := [(0, pos)], ended := [] }, admitted := admitted, window := (world [] freeTask).tick / 1024 }).mapDie 0 fun d =>
        { d with granted := [{ id := 5, milli := 100, part := 0 }] }
    (∀ pos ad, ((s pos ad).fabric 0 0).image = some i ∧ ((s pos ad).fabric 0 0).stream = some { req := 5, args := [1], pos := [(0, pos)], ended := [] } ∧
      ((s pos ad).fabric 0 0).admitted = ad ∧ ((s pos ad).fabric 0 0).window = (s pos ad).tick / 1024 ∧ ((s pos ad).fabric 0 0).limit = 1024 ∧ ((s pos ad).fabric 0 0).fifo 1 0 = [] ∧ ((s pos ad).fabric 0 0).draining = false ∧
      ∃ y ∈ ((s pos ad).die 0).granted, y.id = 5) ∧
    (i.nests.find? fun y => y.eng == 0) = some n ∧ (∀ j < n.ndim, n.cnts.getD j 0 ≠ 0) ∧ ((List.range n.ndim).map fun j => n.cnts.getD j 1).prod = 4 ∧
    (∀ r ∈ i.routes, r.port < 3) ∧ ¬ (∃ y ∈ ((fabricked freeTask id).die 0).granted, y.id = 5) := by
  refine ⟨fun pos ad => ⟨rfl, rfl, rfl, rfl, rfl, rfl, rfl, _, List.mem_cons_self .., rfl⟩, rfl, ?_, ?_, ?_, ?_⟩ <;> decide +kernel

/-- A packet that may enter, one that is complete, with a fatal fault and with a poisoned result, and one that lacks a result. -/
theorem witness_PacketsPass :
    let i : Image := { oneElement 1 80 (arcs 2 false 0) with routes := [{ src := 64, dst := 1, port := 0 }, { src := 1, dst := 80, port := 0 }] }
    let s (q : Packet) (ad : Nat) : State :=
      let s := fabricked freeTask fun g => { g with image := some i, packets := [q], admitted := ad, window := (world [] freeTask).tick / 1024 }
      { s with cur := { s.cur with wait := .serve 3 } }
    let done (p : Bool) (f : Option FabFault) : Packet := packetOf true [(0, tok 5 p)] f
    (∀ q ad, ((s q ad).fabric 0 0).image = some i ∧ ((s q ad).fabric 0 0).packets = [q] ∧ ((s q ad).fabric 0 0).admitted = ad ∧ ((s q ad).fabric 0 0).window = (s q ad).tick / 1024 ∧ ((s q ad).fabric 0 0).limit = 1024 ∧
      ((s q ad).fabric 0 0).fifo 1 0 = [] ∧ ((s q ad).fabric 0 0).holdsPacket 3 = false ∧ (s q ad).cur.task = some freeTask ∧ (s q ad).cur.wait = .serve 3 ∧ NoneOver ((s q ad).fabric 0 0)) ∧
    (∀ f r, (done f r).free = []) ∧ (∀ r ∈ i.routes, r.port < 3) ∧ (∀ r ∈ i.routes, ∀ r' ∈ i.routes, r.dst = r'.dst → r.port = r'.port → r = r') ∧ i.routes.Nodup ∧ i.nres = 1 ∧
    ((done false none).results.find? fun e => e.1 == 0) = some (0, tok 5 false) ∧ ((done true none).results.find? fun e => e.1 == 0) = some (0, tok 5 true) ∧
    Enters (s (done true none) 0) ∧ (∀ e ∈ (packetOf true [] none).results, e.1 ≠ 0) := by
  refine ⟨fun q ad => ⟨rfl, rfl, rfl, rfl, rfl, rfl, rfl, rfl, rfl, nofun⟩, fun _ _ => rfl, ?_, ?_, ?_, rfl, rfl, rfl, ?_, ?_⟩ <;> first | decide +kernel | (unfold Enters; decide +kernel)

/-- A stream whose element has passed `EOI`, one with a store open, one stopped by a fault; a fabric that drains. -/
theorem witness_StreamsEnd :
    let i : Image := { oneElement 1 80 (arcs 2 false 0) with call := false }
    let s (fin : Tbl (List Nat)) (ages : List AgeAccess) (e : Option Nat) : State :=
      let s := fabricked freeTask fun g => { g with image := some i, stream := some { req := 5, args := [], pos := [], ended := [] }, finished := fin, ages := ages }
      { s with reqs := [{ reqOf .strm [] with endKind := e }] }
    (∀ fin ages e, ((s fin ages e).fabric 0 0).image = some i ∧ ((s fin ages e).fabric 0 0).stream = some { req := 5, args := [], pos := [], ended := [] } ∧
      (s fin ages e).req? 5 = some { reqOf .strm [] with endKind := e } ∧ ((s fin ages e).fabric 0 0).draining = false ∧ ((s fin ages e).fabric 0 0).ages = ages ∧
      ((s fin ages e).fabric 0 0).finished = fin ∧ ∀ th ∈ (s fin ages e).cur :: (s fin ages e).others, ∀ n, th.wait ≠ .image n) ∧
    unitCount [(1, [0, 0, 0, 0, 1])] 1 4 = 1 ∧ unitCount [] 1 4 = 0 ∧ ((fabricked freeTask fun g => { g with draining := true }).fabric 0 0).draining = true ∧
    (∀ th ∈ (fabricked freeTask id).cur :: (fabricked freeTask id).others, ∀ n, th.wait ≠ .image n) ∧
    (∀ b, let d : State := (fabricked freeTask fun g => { g with draining := true, stream := some { req := 5, args := [], pos := [], ended := [] } })
      (d.fabric 0 0).draining = true ∧ (d.fabric 0 0).stream = some { req := 5, args := [], pos := [], ended := [] } ∧
      ({ d with reqs := [{ reqOf .strm [] with recorded := b }] } : State).req? 5 = some { reqOf .strm [] with recorded := b }) := by
  refine ⟨fun fin ages e => ⟨rfl, rfl, rfl, rfl, rfl, rfl, fun th h n => ?_⟩, rfl, rfl, rfl, fun th h n => ?_, fun _ => ⟨rfl, rfl, rfl⟩⟩ <;>
    (obtain rfl := List.mem_singleton.1 h; intro h; cases h)

/-- The binary of an image of one element that passes its argument on (11 R289 to R292). -/
def smallBinary : List Nat :=
  [0x5A58494D + 2 ^ 32 + 2 ^ 48, 1 + 2 ^ 16 + 2 * 2 ^ 32, 0x01010000 + 6 * 2 ^ 32, 64 + 80 * 2 ^ 32, 88, 96 * 2 ^ 32, 0, 0, 0x3E01, 0, 2 ^ 24 + 2 ^ 32 + 2 ^ 40,
   (64 + 128) + (1 + 80 * 128) * 2 ^ 32]

/-- Its bytes. -/
def smallBytes : List Byte := smallBinary.flatMap (leBytes 8)

theorem witness_AcceptedImagesObeyTheChecks : (parseImage 0x10000 smallBytes).isSome = true := by decide +kernel

/-- A caller on the running thread that waits for an image. -/
def loading (img : Word) (fetched : Bool) (slot : Option (List Byte)) : State :=
  let s := (State.holding (world [] freeTask) ((List.range 12).map fun i => (8 * i, smallBinary.getD i 0))).mapCluster 0 fun c =>
    { c with fetches := [{ img := img, fabric := 0, sid := 7, part := 0, ctx := 0, user := true, host := none, fetched := fetched }]
             fabrics := [(0, { Fabric.reset with loading := some img })]
             cfgCache := match slot with
               | some b => [(0, { img := img, binary := b, pin := false, lastUse := 0 })]
               | none => [] }
  let s := s.mapPart 0 fun t => { t with conf := { t.conf with servers := [(7, { img := img, ctl := 1 })] } }
  { s with cur := { s.cur with wait := .image 7 } }

/-- What reading n lines of the image gives. -/
def linesOf (s : State) (img va : Word) (n : Nat) : List Byte × State :=
  match s.imageRead 0 { img := img, fabric := 0, sid := 7, part := 0, ctx := 0, user := true, host := none, fetched := false } va n with
  | .bytes bs u => (bs, u)
  | _ => ([], s)

theorem lines_ok {s : State} {img va : Word} {n : Nat}
    (h : (match s.imageRead 0 { img := img, fabric := 0, sid := 7, part := 0, ctx := 0, user := true, host := none, fetched := false } va n with
      | .bytes _ _ => true | _ => false) = true) :
    s.imageRead 0 { img := img, fabric := 0, sid := 7, part := 0, ctx := 0, user := true, host := none, fetched := false } va n =
      .bytes (linesOf s img va n).1 (linesOf s img va n).2 := by
  unfold linesOf
  split at h <;> first | (rename_i e; rw [e]) | cases h

/-- A fetch of a sound image and of one at an address that no page can reach; a load of each, without leave and with it. -/
theorem witness_ImagesAreLoaded :
    let x (img : Word) (f : Bool) : Fetch := { img := img, fabric := 0, sid := 7, part := 0, ctx := 0, user := true, host := none, fetched := f }
    let s := loading 0x10000 false none
    let head := linesOf s 0x10000 0x10000 1
    let rest := linesOf head.2 0x10000 0x10040 1
    let ok := loading 0x10000 true (some smallBytes)
    let given := ok.mapDie 0 fun d => { d with granted := [{ id := 2 ^ 48, milli := 200, part := 0 }] }
    (∀ img f b, ((loading img f b).cluster 0).fetches = [x img f] ∧ (loading img f b).cur.task = some freeTask ∧ (loading img f b).cur.wait = .image 7 ∧
      ((loading img f b).server 0 7).img = img ∧ (loading img f b).others = [] ∧ Enters (loading img f b)) ∧
    s.imageRead 0 (x 0x10000 false) 0x10000 1 = .bytes head.1 head.2 ∧ field head.1 0x2C 4 = 96 ∧ head.1.length = 64 ∧
    head.2.imageRead 0 (x 0x10000 false) 0x10040 1 = .bytes rest.1 rest.2 ∧ (rest.2.cluster 0).fetches = [x 0x10000 false] ∧
    (match (loading 0x0100000000000000 false none).imageRead 0 (x 0x0100000000000000 false) 0x0100000000000000 1 with | .reject => true | _ => false) = true ∧
    (((loading 0x10000 true none).cluster 0).cfgCache.find? fun e => e.2.img == 0x10000) = none ∧
    ((loading 0x10000 true (some [])).cluster 0).cfgCache.find? (fun e => e.2.img == 0x10000) = some (0, { img := 0x10000, binary := [], pin := false, lastUse := 0 }) ∧
    parseImage 0x10000 [] = none ∧ (parseImage 0x10000 smallBytes).isSome = true ∧
    (∀ i, parseImage 0x10000 smallBytes = some i → ∀ e ∈ i.elems, ∀ p, i.pats[e.2]? = some p → p.op ≠ 0x50) ∧
    (∀ b ∈ (ok.die 0).granted ++ (ok.die 0).belayQ, b.id ≠ 2 ^ 48) ∧ (∃ b ∈ (given.die 0).granted, b.id = 2 ^ 48) := by
  refine ⟨fun img f b => ⟨rfl, rfl, rfl, rfl, rfl, ?_⟩, lines_ok ?_, ?_, ?_, lines_ok ?_, ?_, ?_, rfl, ?_, rfl, ?_, ?_, ?_, ?_⟩
  · refine ⟨fun h => ?_, ?_⟩
    · cases h
    · show BitVec.getLsbD (world [] freeTask).cur.regs.status 15 = false; decide +kernel
  all_goals try decide +kernel

/-- A request that fits, one that does not, a stretch that ends the grants, and none. -/
theorem witness_BelayGrants :
    let b : Belay := { id := 5, milli := 100, part := 0 }
    let s (n : Nat) (st : Bool) : State := (world [] freeTask).mapDie 0 fun d => { d with belayQ := [b], granted := [{ b with milli := n }], stretch := st, aboveSince := some 3 }
    (∀ n st, ((s n st).die 0).belayQ = b :: [] ∧ ((s n st).die 0).stretch = st ∧ (((s n st).die 0).granted.map fun x => x.milli).sum = n ∧ ((s n st).part 0).shed = 0 ∧
      ((s n st).die 0).aboveSince = some 3 ∧ ¬ 3 + 66000 ≤ (s n st).tick) ∧ 3 + 66000 ≤ ({ s 0 false with tick := 66003 } : State).tick ∧
    999900 + b.milli ≤ 1000000 ∧ 1000000 < 999901 + b.milli ∧ ((world [] freeTask).die 0).belayQ = [] := by
  refine ⟨fun n st => ⟨rfl, rfl, by simp [State.die_mapDie], rfl, rfl, by show ¬ 3 + 66000 ≤ (world [] freeTask).tick; decide⟩, by decide, ?_, ?_, rfl⟩ <;> decide

/-! ### Host queues -/

/-- Queue 0 of partition 0, with a ring of 4 KiB at 0x200000 whose head is 0 and in which the doublewords given stand; its state is st. -/
def hosted (ws : List Nat) (st tail : Nat) (f : Queue → Queue) : State :=
  let q : Queue := { Queue.reset with qcb := { QcbFields.reset with base := 0x200000, ctrl := word (2 ^ 63 + 12), state := word st, nseq := 5 }, tail := tail }
  let s := (world [] freeTask).mapPart 0 fun t => { t with queues := [(0, f q)] }
  let s := s.mapStack 0 fun k => { k with tlb := [page] }
  { s with hostMem := ((List.range ws.length).foldl (fun m i => m.writeBytes (0x200000 + 8 * i) (leBytes 8 (ws.getD i 0))) ([] : Memory)) }

/-- The header of a packet. -/
def packetWord0 (type len seq : Nat) : Nat := type + len * 2 ^ 16 + seq * 2 ^ 32

/-- What `PacketAt` asks of a hosted queue, as a test. -/
def packetOk (s : State) (st type len seq : Nat) : Bool :=
  (s.queue 0 0).qcb.ctrl.getLsbD 63 && decide ((s.queue 0 0).qcb.state.toNat % 256 = st) && decide ((s.queue 0 0).qcb.head.toNat ≠ (s.queue 0 0).tail) &&
  decide (type < 256 ∧ len < 2 ^ 16 ∧ seq < 2 ^ 32 ∧ packetD s 0 0 0 = type + len * 2 ^ 16 + seq * 2 ^ 32) && decide (packetD s 0 0 8 = 0) &&
  decide (1 ≤ type ∧ type ≤ 6) && decide (1 ≤ len ∧ (s.queue 0 0).qcb.head.toNat + len * 16 ≤ ringSize s 0 0) &&
  decide (seq = (s.queue 0 0).qcb.nseq.toNat % 2 ^ 32) && decide ((s.queue 0 0).writing = [] ∧ s.events = [] ∧ s.reqs = []) &&
  (s.cur :: s.others).all fun th => decide (th.arrivedAt = none)

theorem packet_at {s : State} {st type len seq : Nat} (h : packetOk s st type len seq = true) : PacketAt s 0 0 st type len seq false := by
  simp only [packetOk, Bool.and_eq_true, decide_eq_true_eq, List.all_eq_true] at h
  obtain ⟨⟨⟨⟨⟨⟨⟨⟨⟨a, b⟩, c⟩, d⟩, e⟩, f⟩, g⟩, i⟩, w, v, r⟩, t⟩ := h
  exact ⟨⟨a, b, c, w, by simp [v]⟩, ⟨by simp [r], t⟩, by simpa using d, e, f, g, i⟩

/-- A header that fails each check, a bad and a good tail, for a queue that runs, waits, is switched out, is halted or is disabled. -/
theorem witness_BadPacketsHaltTheQueue :
    let s (type len seq : Nat) : State := hosted [packetWord0 type len seq, 0] 0 16 id
    let ready (type len seq : Nat) : Prop := Readable (s type len seq) 0 0 0 ∧ HeaderIs (s type len seq) 0 0 type len seq false
    ready 2 0 5 ∧ ready 2 257 5 ∧ 4096 < 257 * 16 ∧ ringSize (s 2 1 5) 0 0 = 4096 ∧
    (Readable (hosted [] 0 0 fun q => { q with qcb := { q.qcb with head := 4080 } }) 0 0 0) ∧ ready 2 1 6 ∧ ready 0 1 5 ∧ ready 7 1 5 ∧
    (∀ st, st < 4 → (((hosted [] st 0 id).queue 0 0).qcb.state.toNat % 256 = st ∧ ((hosted [] st 0 id).queue 0 0).qcb.ctrl.getLsbD 63 = true)) ∧
    (0x1001 : Word).toNat % 16 ≠ 0 ∧ ¬ ((0x1000 : Word).toNat < 4096) ∧ (0xFF0 : Word).toNat % 16 = 0 ∧ (0xFF0 : Word).toNat < 4096 ∧
    ((world [] freeTask).queue 0 0).qcb.ctrl.getLsbD 63 = false := by
  refine ⟨⟨⟨?_, ?_, ?_, rfl, nofun⟩, ⟨?_, ?_, ?_, 0, ?_, ?_⟩⟩, ⟨⟨?_, ?_, ?_, rfl, nofun⟩, ⟨?_, ?_, ?_, 0, ?_, ?_⟩⟩, ?_, ?_, ⟨?_, ?_, ?_, rfl, nofun⟩, ⟨⟨?_, ?_, ?_, rfl, nofun⟩, ⟨?_, ?_, ?_, 0, ?_, ?_⟩⟩,
    ⟨⟨?_, ?_, ?_, rfl, nofun⟩, ⟨?_, ?_, ?_, 0, ?_, ?_⟩⟩, ⟨⟨?_, ?_, ?_, rfl, nofun⟩, ⟨?_, ?_, ?_, 0, ?_, ?_⟩⟩, ?_, ?_, ?_, ?_, ?_, ?_⟩ <;> decide +kernel

/-- A queue whose control block is about to be updated. -/
theorem witness_UpdatesAreSplit :
    let w : QcbWrite := updateFor (hosted [] 0 16 id) 0 0 1 5 true none
    ((hosted [] 0 16 fun q => { q with writing := [w] }).queue 0 0).writing = [w] ∧ w.step = 0 := ⟨rfl, rfl⟩

/-- What `packetWord` gives at an address of the page. -/
def wordOf (s : State) (va : Word) (align acc n : Nat) : Option Nat := (s.packetWord 0 0 va align acc n).map fun r => r.1

theorem word_of {s : State} {va : Word} {align acc n g : Nat} (h : wordOf s va align acc n = some g) : ∃ u, s.packetWord 0 0 va align acc n = some (g, u) := by
  unfold wordOf at h
  cases e : s.packetWord 0 0 va align acc n with
  | none => rw [e] at h; cases h
  | some r =>
    obtain ⟨a, u⟩ := r
    rw [e] at h
    simp at h
    exact ⟨u, by rw [h]⟩

theorem no_word {s : State} {va : Word} {align acc n : Nat} (h : (s.packetWord 0 0 va align acc n).isNone = true) : s.packetWord 0 0 va align acc n = none := by
  simpa using h

/-- `PAD`, `NOP` of either length, each `SIGNAL` with what it refuses and with what it finds, done already and not. -/
theorem witness_PacketsAreProcessed_signal :
    let s (type len : Nat) (ws : List Nat) (p : Bool) : State := hosted ([packetWord0 type len 5, 0] ++ ws) 0 512 fun q => { q with performed := p }
    let future (w : Nat) : State := { s 4 3 [0x10040, 9, 0] false with mem := (State.holding (world [] freeTask) [(0x40, w)]).mem }
    let rope (n : Nat) : State := { s 4 3 [0x10040, 9, 1] false with mem := (State.holding (world [] freeTask) [(0x48, n)]).mem }
    PacketAt (s 1 2 [] false) 0 0 0 1 2 5 false ∧ PacketAt (s 2 1 [] false) 0 0 0 2 1 5 false ∧ PacketAt (s 2 3 [] false) 0 0 0 2 3 5 false ∧
    PacketAt (s 4 2 [0x10040, 9, 0] false) 0 0 0 4 2 5 false ∧ PacketAt (s 4 3 [0x10040, 9, 0, 1] false) 0 0 0 4 3 5 false ∧ packetD (s 4 3 [0x10040, 9, 0, 1] false) 0 0 40 ≠ 0 ∧
    PacketAt (s 4 3 [0x10040, 9, 2] false) 0 0 0 4 3 5 false ∧ packetD (s 4 3 [0x10040, 9, 2] false) 0 0 32 = 2 ∧ packetD (s 4 3 [0x10040, 9, 2] false) 0 0 40 = 0 ∧
    PacketAt (s 4 3 [0x10040, 9, 1] true) 0 0 0 4 3 5 false ∧ ((s 4 3 [0x10040, 9, 1] true).queue 0 0).performed = true ∧
    PacketAt (future 0) 0 0 0 4 3 5 false ∧ ((future 0).queue 0 0).performed = false ∧ packetD (future 0) 0 0 32 = 0 ∧
    (s 4 3 [0x10041, 9, 0] false).packetWord 0 0 0x10041 8 1 8 = none ∧ (s 4 3 [0x10048, 9, 1] false).packetWord 0 0 0x10048 16 1 16 = none ∧
    (∃ u, (future 0).packetWord 0 0 0x10040 8 1 8 = some (ropeG, u)) ∧ (∃ u, (rope 10).packetWord 0 0 0x10040 16 1 16 = some (ropeG, u)) ∧ packetD (rope 10) 0 0 32 = 1 ∧
    ((future (2 ^ 63)).readD 0 ropeG).toNat / 2 ^ 62 = 2 ∧ ((future 0).readD 0 ropeG).toNat / 2 ^ 62 = 0 ∧ (future 0).biv = [] ∧
    (∃ a, (future 0).physOf 0 ropeG = some a) ∧ (∀ j < 16, ((future 0).part 0).windowAt (ropeG + j) = none ∧ ((rope 10).part 0).windowAt (ropeG + j) = none) ∧ Canonical (future 0) ∧ Canonical (rope 10) ∧ ((rope 10).readD 0 (ropeG + 8)).toNat = 10 ∧
    ¬ brokenOf ((rope 10).readD 0 ropeG) := by
  refine ⟨packet_at ?_, packet_at ?_, packet_at ?_, packet_at ?_, packet_at ?_, ?_, packet_at ?_, ?_, ?_, packet_at ?_, ?_, packet_at ?_, ?_, ?_, no_word ?_, no_word ?_,
    word_of ?_, word_of ?_, ?_, ?_, ?_, rfl, ⟨ropeG, ?_⟩, fun _ _ => ⟨rfl, rfl⟩, canonical_page ?_, canonical_page ?_, ?_, ?_⟩ <;> first | decide +kernel | (unfold brokenOf; decide +kernel)

/-- `WAITF` at its first look and later, for a future that is not there, resolved and unresolved. -/
theorem witness_PacketsAreProcessed_waitf :
    let s (st va w : Nat) : State := { hosted [packetWord0 5 2 5, 0, va, 0] st 512 id with mem := (State.holding (world [] freeTask) [(0x40, w)]).mem }
    (∀ st, st < 2 → (PacketAt (s st 0x10040 0) 0 0 st 5 2 5 false ∧ PacketAt (s st 0x10041 0) 0 0 st 5 2 5 false ∧ PacketAt (s st 0x10040 (2 ^ 63)) 0 0 st 5 2 5 false)) ∧
    packetD (s 0 0x10040 0) 0 0 24 = 0 ∧ (s 0 0x10041 0).packetWord 0 0 0x10041 8 0 8 = none ∧ (∃ u, (s 0 0x10040 0).packetWord 0 0 0x10040 8 0 8 = some (ropeG, u)) ∧
    (∃ u, (s 0 0x10040 (2 ^ 63)).packetWord 0 0 0x10040 8 0 8 = some (ropeG, u)) ∧ PacketAt (hosted [packetWord0 5 3 5, 0] 0 512 id) 0 0 0 5 3 5 false := by
  refine ⟨fun st h => ?_, ?_, no_word ?_, word_of ?_, word_of ?_, packet_at ?_⟩
  · interval_cases st <;> refine ⟨packet_at ?_, packet_at ?_, packet_at ?_⟩ <;> decide +kernel
  all_goals decide +kernel

/-- The context that waits for a `SYSC`. -/
def waiting : Parked :=
  { thread := { Thread.idle ⟨.barrel, 0, 4⟩ with task := some { freeTask with uid := 9 } }, resume := .sysc 3, len := 4, inArea := false }

/-- `REPLY` of a bad length, of no token and of the token of a parked task. -/
theorem witness_PacketsAreProcessed_reply :
    let s (len va : Nat) : State :=
      let s := (hosted [packetWord0 6 len 5, 0, va, 8] 0 512 id).mapCluster 0 fun c => { c with store := [waiting] }
      { s with syscs := [{ token := 0x77, part := 0, ctx := 0, uid := 9, block := [], svc := 7, sent := true }] }
    PacketAt (s 3 0x77) 0 0 0 6 3 5 false ∧ PacketAt (s 2 0x78) 0 0 0 6 2 5 false ∧ (∀ x ∈ (s 2 0x78).syscs, x.token ≠ 0x78) ∧ PacketAt (s 2 0x77) 0 0 0 6 2 5 false ∧
    ((s 2 0x77).clusters.findSome? fun e => (e.2.store.find? fun z => z.isTask 9).map fun z => (e.1, z)) = some (0, waiting) ∧ (∃ y ∈ (s 2 0x77).allTasks, y.uid = 9) := by
  refine ⟨packet_at ?_, packet_at ?_, ?_, packet_at ?_, rfl, ?_⟩ <;> decide +kernel

/-- A `LAUNCH` at the head. -/
def launching (base store mode nent nhdr len : Nat) (ws : List Nat) : State :=
  hosted ([packetWord0 3 len 5, 0, base + store * 2 ^ 8 + mode * 2 ^ 16 + nent * 2 ^ 32 + nhdr * 2 ^ 48, 0] ++ ws) 0 512 id

theorem launch_at {base store mode nent nhdr len : Nat} {ws : List Nat} (h : packetOk (launching base store mode nent nhdr len ws) 0 3 len 5 &&
    decide (packetD (launching base store mode nent nhdr len ws) 0 0 16 = base + store * 2 ^ 8 + mode * 2 ^ 16 + nent * 2 ^ 32 + nhdr * 2 ^ 48) &&
    decide (packetD (launching base store mode nent nhdr len ws) 0 0 24 = 0) && decide (base < 256 ∧ store < 256 ∧ mode < 256 ∧ nent < 2 ^ 16 ∧ nhdr < 2 ^ 16) = true) :
    LaunchAt (launching base store mode nent nhdr len ws) 0 0 5 false base store mode nent nhdr len := by
  simp only [Bool.and_eq_true, decide_eq_true_eq] at h
  obtain ⟨⟨⟨a, b⟩, c⟩, d⟩ := h
  refine ⟨packet_at a, b, c, d, rfl, rfl, fun th m n => ?_⟩
  obtain rfl := List.mem_singleton.1 m
  intro h; cases h

/-- A `LAUNCH` for each code: a bad field, a bad length, a bad entry, a bad window, a fourth pin. -/
theorem witness_BadLaunchesAreRefused :
    let at_ (base store mode nent nhdr len : Nat) (ws : List Nat) : Prop :=
      LaunchAt (launching base store mode nent nhdr len ws) 0 0 5 false base store mode nent nhdr len
    at_ 16 0 0 0 0 2 [] ∧ at_ 0 0 0 0 1 2 [] ∧ at_ 0 0 1 0 0 2 [] ∧ at_ 0 0 0 1 0 6 [2 ^ 24 + 1] ∧ at_ 0 0 0 1 0 6 [6] ∧ at_ 0 0 0 1 0 6 [256 * 256 + 1] ∧
    at_ 0 0 0 1 0 6 [7 * 256 + 1, 0x10001, 1] ∧ at_ 0 0 0 1 0 6 [7 * 256 + 1, 0x10000, 4] ∧ at_ 0 0 0 1 0 6 [2, 1, 0, 0, 0, 0x1000] ∧
    at_ 0 0 0 1 0 6 [7 * 256 + 1, 0x10000, 3] ∧
    3 < ((Tbl.put ((List.range 3).map fun i => (i, ({ img := 0, ctl := 3 } : ServEnt))) 7 { img := 0x10000, ctl := 3 }).filter fun e => bit e.2.ctl 0 && bit e.2.ctl 1).length := by
  refine ⟨launch_at ?_, launch_at ?_, launch_at ?_, launch_at ?_, launch_at ?_, launch_at ?_, launch_at ?_, launch_at ?_, launch_at ?_, launch_at ?_, ?_⟩ <;> decide +kernel

/-- A `LAUNCH` with a server, a loader and a peer entry; one with a header that is not there, one that fails a check and one that is started. -/
theorem witness_LaunchesApplyAndStart :
    let at_ (base store nent nhdr len : Nat) (ws : List Nat) : Prop :=
      LaunchAt (launching base store 0 nent nhdr len ws) 0 0 5 false base store 0 nent nhdr len
    let h (ctrl : Nat) : State := { launching 0 0 0 0 1 3 [0x10080] with mem := (headerAt 0x20000 0 ctrl 0 3 freeTask).mem }
    at_ 0 2 1 0 6 [7 * 256 + 1, 0x10000, 1] ∧ at_ 2 0 1 0 6 [7 * 256 + 4, 0x20000] ∧ at_ 0 0 1 0 6 [7 * 256 + 5, 1, 2, 3] ∧
    ((launching 0 2 0 1 0 6 []).cluster 0).fabrics = [] ∧ ((launching 0 2 0 1 0 6 []).cluster 0).cfgCache = [] ∧ at_ 0 0 0 1 3 [0x10080] ∧
    packetD (launching 0 0 0 0 1 3 [0x10080]) 0 0 40 = 0 ∧ at_ 0 0 0 1 3 [0x10081] ∧
    ((launching 0 0 0 0 1 3 [0x10081]).mapPart 0 fun t => { t with pending := none }).packetWord 0 0 0x10081 64 0 64 = none ∧
    (∀ g ∈ [headerG, headerG + 64], ((h 0).mapPart 0 fun t => { t with pending := none }).packetWord 0 0 (word (g - 2 ^ 25 + 0x10000)) 64 0 64 =
      some (g, (h 0).mapPart 0 fun t => { t with pending := none })) ∧
    ((launching 0 2 0 1 0 6 []).part 0).conf.windows = [] ∧ ((launching 0 2 0 1 0 6 []).part 0).conf.servers = [] ∧ ((h 0).part 0).conf.windows = [] ∧
    headerFails (headerBytes (h 2)) false 1 none ≠ none ∧ headerFails (headerBytes (h 0)) false 1 none = none ∧ depsOf (headerBytes (h 0)) = 0 := by
  refine ⟨launch_at ?_, launch_at ?_, launch_at ?_, rfl, rfl, launch_at ?_, ?_, launch_at ?_, no_word ?_, ?_, rfl, rfl, rfl, ?_, ?_, ?_⟩ <;> decide +kernel

/-- An idle core with a free event behind one whose lock is held; a core with an event before and after its time, at a first and at a second expiry. -/
theorem witness_EventsRunOnCommandCores :
    let e (kind lock : Nat) (r : Bool) : CmdEvent := { word := word (kind * 2 ^ 56 + 2 ^ 55 + lock * 2 ^ 45), part := 0, q := 0, recovery := r }
    let s : State := { hosted [] 0 0 id with boot := .running, events := [e 1 3 false, e 1 4 false], cmds := [(2, { event := some (e 2 3 false), since := 0, done := false })] }
    let w (tick : Nat) (r : Bool) : State := { hosted [] 0 0 id with tick := tick, cmds := [(2, { event := some (e (if r then 6 else 1) 3 r), since := 0, done := false })] }
    s.boot = .running ∧ (s.cmd 1).event = none ∧ s.events = [e 1 3 false] ++ e 1 4 false :: [] ∧ (∃ c ∈ s.cmds, ∃ y, c.2.event = some y ∧ y.word.toNat / 2 ^ 45 % 2 ^ 10 = 3) ∧
    (∀ c ∈ s.cmds, ∀ y, c.2.event = some y → y.word.toNat / 2 ^ 45 % 2 ^ 10 ≠ 4) ∧ (s.cmd 2).event ≠ none ∧ State.reset.boot ≠ .running ∧
    ((w 0 false).cmd 2).event = some (e 1 3 false) ∧ (w 0 false).tick < ((w 0 false).cmd 2).since + 2 ^ 20 ∧
    ((w (2 ^ 20) false).cmd 2).since + 2 ^ 20 ≤ (w (2 ^ 20) false).tick ∧ (w 0 false).cur.id ≠ ⟨.command, 2, 0⟩ ∧ (e 1 3 false).word.toNat / 2 ^ 56 = 1 ∧
    (e 6 3 true).word.toNat / 2 ^ 56 = 6 ∧ ((w 0 true).part 0).vacant = false ∧ ((w 0 true).part 0).resident = queueCtx (w 0 true) 0 0 ∧
    (e 1 3 false).word.getLsbD 55 = true ∧
    (∀ st < 4, ((hosted [] st 0 id).queue 0 0).now.state.toNat % 256 = st ∧ ((hosted [] st 0 id).queue 0 0).writing = []) ∧
    ((hosted [] 3 0 id).mapPart 0 fun t => { t with resident := 1 }).part 0 ≠ (hosted [] 3 0 id).part 0 ∧
    ((hosted [] 3 0 fun q => { q with writing := [stateUpdate 1 true false] }).queue 0 0).writing ≠ [] ∧ ((hosted [] 2 16 id).queue 0 0).now.head.toNat ≠ 16 := by
  refine ⟨rfl, rfl, rfl, ⟨_, List.mem_cons_self .., _, rfl, ?_⟩, ?_, ?_, ?_, rfl, ?_, ?_, ?_, ?_, ?_, ?_, ?_, ?_, ?_, ?_, ?_, ?_⟩ <;> decide +kernel

theorem homes_free {s : State} (r : s.reqs = []) (t : ((s.cur :: s.others).all fun th => decide (th.arrivedAt = none)) = true) : HomesFree s := by
  refine ⟨fun x h => ?_, fun th h => by simpa using List.all_eq_true.1 t th h⟩
  rw [r] at h
  cases h

/-- A decoder of 16 GiB over device memory. -/
def decoder : HdmDecoder := { base := 2 ^ 40, len := 2 ^ 34, target := 0 }

/-- A device at reset with that decoder. -/
def decoding : State := { State.reset with pf := { State.reset.pf with hdm := [(0, decoder)] } }

/-- A state with that decoder in which a request holds the line at 2^25. -/
def contended : State :=
  { world [] freeTask with pf := { State.reset.pf with hdm := [(0, decoder)] }, reqs := [{ reqOf .copy [] with holds := some (0, 2 ^ 19) }] }

/-- An address that the decoder leads to memory and one that it does not; an access that waits for another and one whose line is held. -/
theorem witness_HostAndPeerAccesses_host :
    (decoder.base ≤ 2 ^ 40 + 64 ∧ 2 ^ 40 + 64 < decoder.base + decoder.len ∧ decoder.target + 64 < 2 ^ 41 ∧ (decoder.target + 64) % 2 ^ 35 < 20 * 2 ^ 30) ∧
    ¬ decoder.base ≤ 64 ∧ decoding.decodeHdm (2 ^ 40 + 64) = some 64 ∧ decoding.decodeHdm 64 = none ∧ decoding.inbound = [] ∧ HomesFree decoding ∧
    Canonical decoding ∧ (∀ e ∈ decoding.parts, e.2.enabled = false) ∧ ({ decoding with inbound := [.access true 0 8 0] } : State).inbound ≠ [] ∧
    contended.decodeHdm (2 ^ 40 + 2 ^ 25) = some (2 ^ 25) ∧ contended.agentWaits (contended.hostLoc (2 ^ 25)) 0 = true := by
  refine ⟨?_, ?_, ?_, ?_, rfl, homes_free rfl ?_, canonical_page ?_, ?_, nofun, ?_, ?_⟩ <;> decide +kernel

/-- The request that waits for the ring; a host context that waits for a page. -/
theorem witness_HostAndPeerAccesses_waits :
    let q : Sysc := { token := 0x77, part := 0, ctx := 0, uid := 9, block := List.replicate 64 1, svc := 7, sent := false }
    let s : State := { (world [] freeTask).mapPart 0 withRing with syscs := [q] }
    let t : TrapRec := { kind := 0, taddr := 0x10000, tinfo := 0 }
    let h : State := { world [] freeTask with cur := { (world [] { freeTask with host := some 5 }).cur with wait := .fault 0x77 t } }
    (∃ u, (s.mapPart 0 fun t => { t with svcHead := 0 }).putService q = some u) ∧ h.cur.wait = .fault 0x77 t ∧
    h.cur.task = some { freeTask with host := some 5 } ∧ Enters h := by
  refine ⟨Option.isSome_iff_exists.1 ?_, rfl, rfl, ?_⟩ <;> first | decide +kernel | (unfold Enters; decide +kernel)

/-- The page with a rope that expects 64 bytes, for the agents of die 0. -/
def peerPage : State := (State.holding (world [] freeTask) [(0x48, 64)]).mapStack 0 fun k => { k with tlb := [page] }

/-- A peer's line for a buffer and a rope; an umbra over the buffer, and none. -/
theorem witness_HostAndPeerAccesses_peer :
    let x : Umbra := { id := 3, part := 0, ctx := 0, owner := 7, base := 0x10000, len := 0x10000, chunks := [], cut := false, ordered := false, remote := none }
    Canonical peerPage ∧ peerPage.faults = [] ∧ peerPage.inbound = [] ∧ HomesFree peerPage ∧ (peerPage.part 0).resident = 0 ∧
    peerPage.packetWord 0 0 0x10080 1 1 0 = some (headerG, peerPage) ∧ peerPage.physOf 0 headerG = some headerG ∧ headerG % 64 + 64 ≤ 64 ∧
    (∀ j < 64, (peerPage.part 0).windowAt (headerG + j) = none) ∧
    (∃ u, ((peerPage.writeBy 0 (.dram 0 headerG) (List.replicate 64 1) (List.replicate 8 false)).releasePrt 0).packetWord 0 0 0x10040 16 1 16 = some (ropeG, u)) ∧
    (∀ j < 16, (peerPage.part 0).windowAt (ropeG + j) = none) ∧ (peerPage.part 0).umbras = [] ∧
    ((peerPage.mapPart 0 fun t => { t with umbras := [x] }).part 0).umbras = [x] ∧ x.base ≤ 0x10080 ∧ 0x10080 + 64 ≤ x.base + x.len := by
  refine ⟨canonical_page ?_, rfl, rfl, homes_free rfl ?_, ?_, ?_, ?_, ?_, fun _ _ => rfl, word_of ?_, fun _ _ => rfl, rfl, rfl, ?_, ?_⟩ <;> decide +kernel

/-! ### Partitions and the fleet -/

/-- A partition that may be created and one that may not; one that may be destroyed and one that runs. -/
theorem witness_PartitionsAreCreatedAndDestroyed :
    let v : Word := word (2 ^ 63)
    let two : State := { State.reset with frames := [(0, .owned 9)] }
    let on (stop : Bool) : State := (world [] freeTask).mapPart 0 fun t => { t with stopped := stop }
    (State.reset.part 0).enabled = false ∧ v.getLsbD 63 = true ∧ (∀ e ∈ State.reset.parts, e.2.enabled = true → firstOf e.2.pdesc ≤ lastOf e.2.pdesc) ∧ Creates State.reset 0 v ∧
    ¬ Creates State.reset 0 (word (2 ^ 63 + 1)) ∧ (two.part 0).enabled = false ∧ ¬ Creates two 0 v ∧ ((on true).part 0).enabled = true ∧
    pdescFields 0 + 2 ^ 63 = ((on true).part 0).pdesc.toNat ∧ ((on true).part 0).stopped = true ∧ ((on false).part 0).stopped = false := by
  refine ⟨?_, ?_, ?_, ⟨?_, ?_, ?_⟩, fun h => ?_, ?_, fun h => ?_, ?_, ?_, ?_, ?_⟩ <;> try decide +kernel
  · intro e h; cases h
  · exact absurd h.1 (by decide +kernel)
  · exact absurd (h.2.2 (0, .owned 9) (List.mem_cons_self ..) (by decide +kernel) (by decide +kernel) 9) (fun q => q rfl)

/-- Umbras open and none; a shoot-down with two TLBs left, one of which receives it. -/
theorem witness_PoolAndShootDowns :
    let s := world [] freeTask
    let d : Shootdown := { part := 0, num := 1, all := false, any := false, asid := 0, first := 1, pages := 1 }
    let left (l : List Nat) : State := s.mapPart 0 fun t => { t with sdPend := [(d, l)] }
    (s.part 0).umbras = [] ∧ ((s.mapPart 0 (withPool 0 1)).part 0).umbras ≠ [] ∧ (s.part 0).enabled = true ∧ firstOf (s.part 0).pdesc ≤ lastOf (s.part 0).pdesc ∧
    ((left [0, 512]).part 0).sdPend = [(d, [0, 512])] ∧ 0 ∈ [0, 512] ∧ (∃ x ∈ [0, 512], x ≠ 0) ∧ (∀ x ∈ [0], x = 0) ∧ ((left [0]).cluster 0).tlb = [page] := by
  decide +kernel

/-- A command of each kind in range, on a clean, an owned and a mapped frame, with a busy partition and out of range; scrubs, write-backs and wakes. -/
theorem witness_StageTwoCommands :
    let s := world [] freeTask
    let v (guest frame : Nat) : Word := word (guest * 2 ^ 32 + frame)
    let busy := s.mapPart 0 fun t => { t with s2busy := true }
    let scrub := s.mapPart 0 fun t => { t with scrub := some (0, 5), s2busy := true }
    let back := s.mapPart 0 fun t => { t with writeback := some (0, 1), s2busy := true }
    let f : FaultTok := { token := 9, part := 0, ctx := 0, page := 1, acc := 0, stage2 := true, waiters := [.thread ⟨.barrel, 0, 0⟩], addr := 0, info := 0, written := true }
    let trap : TrapRec := { kind := 0, taddr := 0x10000, tinfo := 0 }
    let w : State := { s.mapPart 0 fun t => { t with s2tok := 9 } with cur := { s.cur with wait := .fault 9 trap }, faults := [f] }
    S2Fields s 0 (v 2 3) 0 2 3 ∧ S2Fields s 0 (v 1 3) 0 1 3 ∧ S2Fields s 0 (v 2 700) 0 2 700 ∧ s.frames.getD 3 .clean = .clean ∧ s.frames.getD 1 .clean ≠ .clean ∧
    s.s2map.get? 2 = none ∧ s.s2map.get? 1 = some { w := true, frame := 1 } ∧ (busy.part 0).s2busy = true ∧ 640 ≤ (v 640 0).toNat / 2 ^ 32 % 2 ^ 10 ∧
    lastOf (s.part 0).pdesc < firstOf (s.part 0).pdesc + (word (2 ^ 48)).toNat / 2 ^ 48 % 2 ^ 6 ∧ (scrub.part 0).scrub = some (0, 5) ∧ Canonical scrub ∧
    (back.part 0).writeback = some (0, 1) ∧ (s.part 0).scrub = none ∧ w.faults = [f] ∧ f.token = (w.part 0).s2tok ∧ f.waiters = [.thread w.cur.id] ∧ w.cur.wait = .fault 9 trap ∧ Enters w ∧
    (∀ x ∈ s.faults, x.part = 0 → x.token ≠ (s.part 0).s2tok) := by
  refine ⟨⟨⟨?_, ?_, ?_⟩, ⟨?_, ?_⟩, ⟨?_, ?_⟩, ?_⟩, ⟨⟨?_, ?_, ?_⟩, ⟨?_, ?_⟩, ⟨?_, ?_⟩, ?_⟩, ⟨⟨?_, ?_, ?_⟩, ⟨?_, ?_⟩, ⟨?_, ?_⟩, ?_⟩, ?_, ?_, ?_, ?_, ?_, ?_, ?_, ?_, canonical_page ?_,
    ?_, ?_, rfl, ?_, rfl, rfl, ?_, ?_⟩ <;> first | decide +kernel | (unfold Enters; decide +kernel)

/-- A partition whose sweep has taken the token to a cluster. -/
def sweeping (inc : Option Nat) (swept : Nat) (switching : List Nat) (vacant : Bool) (saves : List SaveArea) : State :=
  (tiled [] [f32x2 3] [] [] freeTask).mapPart 0 fun t => { t with sweep := some inc, swept := swept, switching := switching, vacant := vacant, saves := saves }

/-- A slice that ends and one that is ignored; a stop; a cluster that stops, one that saves, one that loads, and the last; a stop that waits and one that is done. -/
theorem witness_ContextsAreSwitched :
    let s := world [] freeTask
    let two := s.mapPart 0 fun t => { t with pdesc := word (2 ^ 63 + 2 ^ 59) }
    let out := sweeping (some 1) 1 [0] false []
    let a : SaveArea := { l := 0, c := 1, valid := 2, cluster := { Cluster.reset with scratch := [] }, threads := [{ Thread.idle ⟨.barrel, 0, 5⟩ with wait := .ready }], slots := [] }
    let inn := (sweeping (some 1) 1 [0] true [a])
    let stop (q : List Req) : State := { s.mapPart 0 fun t => { t with stopReq := true, vacant := true } with reqs := q }
    (s.part 0).enabled = true ∧ (s.part 0).sweep = none ∧ (s.part 0).stopReq = false ∧ (s.part 0).resetting = false ∧ (s.part 0).evictedAt = none ∧
    (word (2 ^ 8)).toNat / 2 ^ 8 % 8 ≤ (two.part 0).pdesc.toNat / 2 ^ 59 % 8 ∧ (out.part 0).sweep ≠ none ∧ (s.part 0).stopped = false ∧ (s.part 0).vacant = false ∧
    s.hostMem.wf = true ∧ (out.part 0).enabled = true ∧ ((sweeping (some 1) 0 [] false []).part 0).swept = 0 ∧ 0 < (out.part 0).clusters ∧ 0 ∈ (out.part 0).switching ∧
    out.canSwitch 0 0 (out.part 0).resident = true ∧ ((out.cur :: out.others).map fun th => th.id).Nodup ∧ inn.savedAt 0 0 1 = some a ∧ (∀ b ∈ (inn.part 0).inboxes, b.items = []) ∧
    ((sweeping (some 1) 9 [] false []).part 0).swept = ((sweeping (some 1) 9 [] false []).part 0).clusters + 1 ∧ (out.part 0).shed = 0 ∧ out.pf.pcapLate = none ∧
    ((stop []).part 0).vacant = true ∧ (∃ q ∈ (stop [reqOf .copy []]).reqs, q.part = 0) ∧ (sweeping none 1 [0] false []).canSwitch 0 0 0 = true := by
  refine ⟨?_, ?_, ?_, ?_, ?_, ?_, ?_, ?_, ?_, ?_, ?_, ?_, ?_, ?_, ?_, ?_, ?_, ?_, ?_, ?_, ?_, ?_, ?_, ?_⟩ <;> decide +kernel

/-- A cluster that has marked its save area, with and without a context to come, in a mapped area and in one that is not, and one that loads from a mapped area. -/
theorem witness_ContextsAreSwitched_areas :
    let a (c v : Nat) : SaveArea := { l := 0, c := c, valid := v, cluster := Cluster.reset, threads := [], slots := [] }
    let marked (inc : Option Nat) : State := sweeping inc 1 [0] false [a 0 1]
    let mapped (s : State) : State := { s with s2map := [(0, { w := true, frame := 1 })] }
    let inn := sweeping (some 1) 1 [0] true [a 1 2]
    (∀ y ∈ ((sweeping (some 1) 1 [0] false []).part 0).saves, ¬ (y.l = 0 ∧ y.c = 0 ∧ y.valid = 1)) ∧
    (∀ inc ∈ [none, some 1], (∃ y ∈ ((marked inc).part 0).saves, y.l = 0 ∧ y.c = 0 ∧ y.valid = 1) ∧ (marked inc).canSwitch 0 0 0 = true ∧
      ((marked inc).part 0).savebase.toNat % 2 ^ 22 = 0 ∧ (mapped (marked inc)).physOf 0 0 = some (2 ^ 25) ∧
      (∀ y ∈ ((marked inc).cluster 0).tiles, y.data.wf = true) ∧ ((marked inc).cluster 0).tiles.length ≤ 32) ∧
    ((marked none).part 0).conf.windows = [] ∧ (inn.part 0).conf.windows = [] ∧
    Canonical (mapped (marked none)) ∧ ({ marked none with s2map := [] } : State).physOf 0 0 = none ∧
    inn.savedAt 0 0 1 = some (a 1 2) ∧ (a 1 2).hosts = [] ∧ Canonical (mapped inn) ∧ (mapped inn).physOf 0 (2 ^ 22) = some (2 ^ 25 + 2 ^ 22) := by
  refine ⟨?_, ?_, rfl, rfl, canonical_page ?_, ?_, ?_, ?_, canonical_page ?_, ?_⟩ <;> decide +kernel

/-- A fabric to drain with an image, one that runs a stream of a context that is not resident, one that hangs and one that does not; a reset of a partition with a save area. -/
theorem witness_DrainsAndResets :
    let g (f : Fabric → Fabric) := fabricked freeTask fun g => f { g with image := some (oneElement 1 80 (arcs 2 false 0)) }
    let str := { (g fun g => { g with stream := some { req := 5, args := [], pos := [], ended := [] } }) with reqs := [{ reqOf .strm [] with ctx := 1 }] }
    let own : State := { str with reqs := [reqOf .strm []] }
    let hang (t : Nat) : State := { fabricked freeTask fun g => { g with fifos := [(4, [tok 1 false])], firedAt := 0 } with tick := t }
    let s := (world [] freeTask).mapPart 0 fun t => { t with savebase := 0 }
    let m : State := { s with s2map := [(0, { w := true, frame := 1 })] }
    ((g id).part 0).enabled = true ∧ ((g id).fabric 0 0).image ≠ none ∧ ((g id).fabric 0 0).loading = none ∧ ((g id).fabric 0 0).stream = none ∧ 0 < ((g id).part 0).clusters ∧
    (str.fabric 0 0).stream = some { req := 5, args := [], pos := [], ended := [] } ∧ str.req? 5 = some { reqOf .strm [] with ctx := 1 } ∧ (str.part 0).resident ≠ 1 ∧
    own.req? 5 = some (reqOf .strm []) ∧ (own.part 0).sweep = none ∧ (own.part 0).vacant = false ∧ (own.part 0).resident = 0 ∧ m.pf.pcapLate = none ∧
    (m.part 0).conf.windows = [] ∧ (s.part 0).stopReq = false ∧ (s.part 0).shed = 0 ∧ (s.part 0).evictedAt = none ∧
    ((hang 0).fabric 0 0).occupancy = 1 ∧ (hang (2 ^ 20 - 1)).tick < ((hang 0).fabric 0 0).firedAt + 2 ^ 20 ∧ ((g id).fabric 0 0).occupancy = 0 ∧
    ((m.cur :: m.others).map fun th => th.id).Nodup ∧ (m.part 0).clusters = 7 + 1 ∧ (m.part 0).pdesc.toNat / 2 ^ 59 % 8 = 0 ∧ Canonical m ∧
    m.physOf 0 ((8 * 7 + 0) * 2 ^ 22) = none ∧
    ({ m with s2map := [(7, { w := true, frame := 1 })] }).physOf 0 ((8 * 7 + 0) * 2 ^ 22) ≠ none ∧ (State.reset.part 0).enabled = false ∧ (s.part 0).resetting = false ∧
    ((s.mapPart 0 fun t => { t with resetting := true }).part 0).resetting = true := by
  refine ⟨?_, ?_, ?_, ?_, ?_, rfl, rfl, ?_, rfl, rfl, rfl, rfl, rfl, rfl, rfl, rfl, rfl, ?_, ?_, ?_, ?_, ?_, ?_, canonical_page ?_, ?_, ?_, ?_, ?_, ?_⟩ <;> decide +kernel

/-- A cap in range with one partition in the shedding order at each depth, and a cap out of range. -/
theorem witness_CapsShedLoad :
    let w : Word := word (2 ^ 63 + 128 * 2 ^ 36 + 1500 * 2 ^ 24 + 1000 * 2 ^ 12 + 500)
    let s : State := { world [] freeTask with pf := { Pf.reset with shedding := [(3, w)] } }
    (word 2001).toNat % 2 ^ 12 = 2001 ∧ (∀ e ∈ s.parts, ¬ (e.2.sweep ≠ none ∧ e.2.evictedAt ≠ none)) ∧ s.parts = [(0, part0)] ∧ part0.enabled = true ∧
    s.pf.shedding = [(3, w)] ∧ w.toNat / 2 ^ 56 % 2 ^ 6 = 0 ∧ shedDepth w 2000 = 0 ∧ shedDepth w 1499 = 1 ∧ shedDepth w 999 = 2 ∧ shedDepth w 499 = 3 ∧
    w.toNat / 2 ^ 36 % 2 ^ 8 = 128 ∧ part0.vacant = false := by
  refine ⟨?_, ?_, rfl, ?_, rfl, ?_, ?_, ?_, ?_, ?_, ?_, ?_⟩ <;> decide +kernel

/-- An entry on the length of a ready queue, that crosses its threshold upwards and that does not, with a counter at 0 and above. -/
theorem witness_WatchesFire :
    let w (last : Option Nat) : Watch := { wctl := word (2 ^ 63 + 2 ^ 60 + 6 * 2 ^ 28), wthr := 1, whdr := word headerG, last := last }
    let s (last : Option Nat) (ctrl : Nat) : State :=
      { State.holding (queued [entryOf 1 3 1 false] [] freeTask) [(0x98, ctrl)] with pf := { Pf.reset with watches := [(5, w last)] } }
    (s (some 0) 0).pf.watches = [(5, w (some 0))] ∧ (w none).wctl.getLsbD 63 = true ∧ (w none).wctl.toNat % 2 ^ 32 = 6 * 2 ^ 28 + 0 * 2 ^ 16 ∧
    ((s none 0).cluster 0).readyQ.length = 1 ∧ (w none).wctl.getLsbD 60 = true ∧ (w none).wthr.toNat = 1 ∧
    ((s (some 0) 0).readD 0 (headerG + 0x18)).toNat / 2 ^ 16 % 2 ^ 16 = 0 ∧ ((s (some 0) (2 ^ 17)).readD 0 (headerG + 0x18)).toNat / 2 ^ 16 % 2 ^ 16 = 2 ∧
    Canonical (s (some 0) (2 ^ 17)) ∧ (∃ a, (s (some 0) (2 ^ 17)).physOf 0 (headerG + 0x18) = some a) ∧
    (∀ j < 8, ((s (some 0) (2 ^ 17)).part 0).windowAt (headerG + 0x18 + j) = none) ∧ (w none).whdr.toNat % 64 = 0 := by
  refine ⟨rfl, ?_, ?_, ?_, ?_, ?_, ?_, ?_, canonical_page ?_, ⟨headerG + 0x18, ?_⟩, fun _ _ => rfl, ?_⟩ <;> decide +kernel

/-- A populated line; a free task alone on its cluster; a device that runs, one in recovery, and an image that verifies and one that does not. -/
theorem witness_ErrorsBootAndRegisters :
    let s := world [] freeTask
    let r : State := { s with boot := .recovery }
    populated 0 = true ∧ s.cur.id.kind = .barrel ∧ s.cur.id.unit = 0 ∧ s.cur.task = some freeTask ∧ s.cur.wait ≠ .free ∧ s.others = [] ∧ (s.cluster 0).store = [] ∧
    (s.cluster 0).readyQ = [] ∧ r.boot = .recovery ∧ r.pf.measure.length = 8 ∧ { s with boot := .running }.boot = .running ∧
    partRow (s.part 0) 0x12345 0x50 { s.part 0 with ctxdesc := 0x12200 } ∧ (s.part 0).pretok.length = 8 ∧ partRow (s.part 0) 7 0x48 { s.part 0 with pretok := (s.part 0).pretok.set 7 7 } ∧
    pfRow s.pf 9 0x8018 { s.pf with s2cons := 9 } ∧ (∃ y, pfRow s.pf (word (2 ^ 63 + 5)) 0x9100 y) := by
  refine ⟨?_, rfl, rfl, rfl, ?_, rfl, ?_, ?_, rfl, ?_, rfl, .inl ⟨rfl, ?_⟩, ?_, ?_, ?_, ⟨{ (world [] freeTask).pf with shedding := (world [] freeTask).pf.shedding.put 0 (word (2 ^ 63 + 5)) }, ?_⟩⟩
  all_goals try decide +kernel
  · exact .inr (.inr (.inr (.inr (.inr (.inr ⟨7, by decide, rfl, by decide +kernel, rfl⟩)))))
  · exact .inr (.inr (.inl ⟨rfl, rfl⟩))
  · exact .inr (.inr (.inr (.inr (.inr (.inr (.inr ⟨0, by decide, rfl, word (2 ^ 63 + 5), rfl, by decide +kernel⟩))))))

/-! ### Decoding and the step -/

/-- A state whose next instruction is the `MULH` of 05 R117, or the two-byte `JLR` of 06. -/
def nextMulh : State := State.reset.placeCode [0x29, 0xC0, 0x03, 0x8E]
def nextJlr16 : State := State.reset.placeCode [0x25, 0x38]

/-- What a fetch gives. -/
def halfAt (s : State) (va : Word) : BitVec 16 × State :=
  match s.fetchHalf va with
  | .ok h u => (h, u)
  | _ => (0, s)

theorem half_ok {s : State} {va : Word} {b0 b1 : Byte} (h : (match s.fetchHalf va with | .ok x _ => decide (x = halfOf b0 b1) | _ => false) = true) :
    s.fetchHalf va = .ok (halfOf b0 b1) (halfAt s va).2 := by
  unfold halfAt
  split at h
  · rename_i e; rw [e, of_decide_eq_true h]
  · cases h

theorem witness_StepRunsTheDecodedInstruction_short : FetchesAs nextJlr16 (halfAt nextJlr16 nextJlr16.pc).2 (.jlr16 9) :=
  ⟨rfl, ⟨rfl, rfl⟩, by decide +kernel, .inl ⟨0x25, 0x38, half_ok (by decide +kernel), by decide +kernel⟩⟩

theorem witness_StepRunsTheDecodedInstruction :
    let u := (halfAt nextMulh nextMulh.pc).2
    FetchesAs nextMulh (halfAt u (u.pc + 2)).2 (.mulh 5 6 7) ∧ (∀ th ∈ nextMulh.others, th.wait ≠ .ready) ∧
    (∀ r, atPage.locate 0x10008 2 r = .ok (.dram 0 (2 ^ 25 + 8)) atPage) ∧ atPage.cachedLine 0 (.dram 0 (2 ^ 25 + 8)) = none ∧
    atPage.askHome (.dram 0 (2 ^ 25 + 8)) false = .granted atPage ∧ (atPage.cluster 0).oldCode = [] ∧
    (let m : Move := .unit .dispatch 0 0 0
     let q : State := { nextMulh with agenda := [m], patience := 0 }
     q.agenda = m :: [] ∧ q.patience = 0 ∧ q.retiring m = none) ∧
    (let th : Thread := { Thread.idle ⟨.barrel, 0, 1⟩ with wait := .ready }
     let q : State := { nextMulh with others := [th], rotation := 0 }
     q.others.find? (fun x => decide (x.wait = .ready)) = some th ∧ q.rotation = 0) := by
  refine ⟨⟨rfl, ⟨rfl, rfl⟩, ?_, .inr ⟨0x29, 0xC0, 0x03, 0x8E, _, half_ok ?_, ?_, ?_, half_ok ?_, ?_⟩⟩, ?_, fun r => located ?_ r, rfl, rfl, ?_, ⟨rfl, rfl, ?_⟩, ?_, rfl⟩ <;> decide +kernel

theorem witness_DecodingInvertsEncoding : (Instr.mulh 5 6 7).wf = true ∧ (Instr.mulh 5 6 7).len ≠ 0 ∧ (Instr.jlr16 15).wf = true ∧ (Instr.jlr16 15).len ≠ 0 := by decide +kernel

theorem witness_DecodingGivesWellFormed : decodeBytes [0x29, 0xC0, 0x03, 0x8E, 1] = some (.mulh 5 6 7, [1]) ∧ (decodeBytes [0xFF, 0xFF, 0xFF, 0xFF]).isSome = true := by decide +kernel

theorem witness_StepsKeepMemoriesCanonical : MemoriesCanonical nextMulh ∧ after (step nextMulh) (fun _ => true) = true ∧
    MemoriesCanonical (State.holding (world [] freeTask) [(8, 7)]) := by
  unfold MemoriesCanonical; decide +kernel

end Sys2Proof.Tests
end

/-! The `INT` major: the frame of a register instruction, and one lemma for each row of 05 R116 and R117. -/

namespace Sys2Proof.Proofs

open Sys2Proof.Machine Sys2Proof.Claims

/-! ### The frame of a register instruction -/

theorem onlyThread_trans {s t u : State} (h : OnlyThread s t) (h' : OnlyThread t u) : OnlyThread s u := by
  rw [OnlyThread, h', h]

theorem onlyThread_setG (s : State) (d : Reg) (v : Word) : OnlyThread s (s.setG d v) := rfl

theorem onlyThread_advance (s : State) (n : Nat) : OnlyThread s (s.advance n) := rfl

theorem gpaByte_cur (s : State) (th : Thread) (p gpa : Nat) : { s with cur := th }.gpaByte p gpa = s.gpaByte p gpa := rfl

/-- The bytes of the memories do not depend on the running thread. -/
theorem sameBytes_of_onlyThread {s t : State} (h : OnlyThread s t) : SameBytes s t := by
  intro l
  rw [h]
  cases l with
  | dram p g =>
    simp only [State.byteAt, gpaByte_cur]
    rfl
  | scratch c o => rfl
  | phys a => rfl
  | host a => rfl

/-- The frame of an instruction that writes registers of the running thread and then goes on at the next one. -/
theorem regFrame_advance {s t : State} {len : Nat} (device : OnlyThread s t) (trap : SameTrapRegs s.cur.regs t.cur.regs)
    (thread : GoesOn s (t.advance len)) (pc : t.pc = s.pc) : RegFrame s (t.advance len) (s.pc + word len) :=
  have device' := onlyThread_trans device (onlyThread_advance t len)
  ⟨by rw [State.advance_pc, pc], trap, thread, device', sameBytes_of_onlyThread device'⟩

/-- An instruction that ends with `State.result` writes g[d] and nothing else (05 R115). -/
theorem writes_result (s : State) (d : Reg) (v : Word) (len : Nat) : Writes (s.result d v len) s d v len := by
  refine ⟨(s.setG d v).advance len, rfl, fun r => ?_, fun k => ?_, ?_, regFrame_advance (onlyThread_setG s d v) ?_ ?_ ?_⟩
  · simp
  · simp
  · simp
  · simp [SameTrapRegs]
  · simp [GoesOn]
  · simp

/-! ### Words, their bits and their bytes -/

theorem bits_eq (w : Word) (lo len : Nat) : bits w lo len = w.toNat / 2 ^ lo % 2 ^ len := by
  simp [bits, Nat.shiftRight_eq_div_pow]

theorem sh6_eq (b : Word) : sh6 b = b.toNat % 64 := by simp [sh6, bits_eq]

theorem sh5_eq (b : Word) : sh5 b = b.toNat % 32 := by simp [sh5, bits_eq]

theorem toNat_word {n : Nat} (h : n < 2 ^ 64) : (word n).toNat = n := by
  simpa [word] using Nat.mod_eq_of_lt h

theorem getLsbD_word {i : Nat} (hi : i < 64) (n : Nat) : (word n).getLsbD i = n.testBit i := by
  rw [word, BitVec.getLsbD_ofNat, decide_eq_true hi, Bool.true_and]

theorem toInt_wordI {n : Int} (lo : -2 ^ 63 ≤ n) (hi : n < 2 ^ 63) : (wordI n).toInt = n := by
  rw [wordI, BitVec.toInt_ofInt]
  exact Int.bmod_eq_of_le (by simpa using lo) (by simpa using hi)

theorem abs_toInt_le (w : Word) : |w.toInt| ≤ 2 ^ 63 :=
  abs_le.2 ⟨BitVec.le_toInt w, BitVec.toInt_lt.le⟩

theorem wordI_tdiv (a b : Word) : wordI (a.toInt.tdiv b.toInt) = a.sdiv b := by
  apply BitVec.eq_of_toInt_eq
  rw [wordI, BitVec.toInt_ofInt, BitVec.toInt_sdiv]

theorem wordI_tmod (a b : Word) : wordI (a.toInt.tmod b.toInt) = a.srem b := by
  rw [wordI, ← BitVec.toInt_srem, BitVec.ofInt_toInt]

theorem wordB_decide (p : Prop) [Decidable p] : wordB (decide p) = if p then 1 else 0 := by
  by_cases h : p <;> simp [wordB, h]

/-- `sext` of the low n bits is the sign extension of an n-bit word (00 R9). -/
theorem sextW_eq_signExtend (w : Word) {n : Nat} (hn : 1 ≤ n) : sextW w n = (w.setWidth n).signExtend 64 := by
  obtain ⟨n, rfl⟩ := Nat.exists_eq_add_of_le' hn
  have hp : 2 ^ (n + 1) = 2 * 2 ^ n := pow_succ' 2 n
  rw [sextW, BitVec.signExtend, BitVec.toInt_eq_toNat_cond, BitVec.toNat_setWidth, Nat.add_sub_cancel]
  by_cases h : w.toNat % 2 ^ (n + 1) < 2 ^ n
  · rw [if_pos h, if_pos (by omega), word, BitVec.ofInt_natCast]
  · rw [if_neg h, if_neg (by omega), wordI]
    push_cast; rfl

theorem getLsbD_sextW (w : Word) {n i : Nat} (hn : n < 64) (hi : i < 64) :
    (sextW w (n + 1)).getLsbD i = w.getLsbD (min i n) := by
  rw [sextW_eq_signExtend w (by omega), BitVec.getLsbD_signExtend]
  by_cases h : i < n + 1
  · simp [hi, h, Nat.min_eq_left (Nat.le_of_lt_succ h)]
  · simp [hi, h, BitVec.msb_eq_getLsbD_last, Nat.min_eq_right (by omega : n ≤ i)]

theorem getLsbD_zextW (w : Word) (n : Nat) {i : Nat} (hi : i < 64) :
    (zextW w n).getLsbD i = (decide (i < n) && w.getLsbD i) := by
  rw [zextW, getLsbD_word hi, Nat.testBit_mod_two_pow, BitVec.testBit_toNat]

theorem toInt_sx32 (w : Word) : (sx32 w).toInt = (w.toNat : Int).bmod (2 ^ 32) := by
  rw [sx32, BitVec.toInt_signExtend_of_le (by norm_num), BitVec.toInt_setWidth]

/-- What a `W` instruction keeps of a result that is known modulo 2^64 (02 R43). -/
theorem toInt_sx32_of_bmod {w : Word} {n : Int} (h : w.toInt = n.bmod (2 ^ 64)) : (sx32 w).toInt = n.bmod (2 ^ 32) := by
  have hd : 2 ^ 32 ∣ 2 ^ 64 := pow_dvd_pow 2 (by norm_num)
  rw [toInt_sx32, ← Int.bmod_bmod_of_dvd hd, ← BitVec.toInt_eq_toNat_bmod, h, Int.bmod_bmod_of_dvd hd]

/-! ### Counts of bits, and bits and bytes in reverse order -/

theorem bitLen_eq_size (n : Nat) : bitLen n = n.size := by
  by_cases h : n = 0
  · simp [bitLen, h]
  · rw [bitLen, if_neg h]
    exact le_antisymm (Nat.lt_size.2 (Nat.log2_self_le h)) (Nat.size_le.2 Nat.lt_log2_self)

theorem bitLen_le {n k : Nat} : bitLen n ≤ k ↔ n < 2 ^ k := by rw [bitLen_eq_size, Nat.size_le]

theorem lt_bitLen {n k : Nat} : k < bitLen n ↔ 2 ^ k ≤ n := by rw [bitLen_eq_size, Nat.lt_size]

theorem testBit_bitLen_sub_one {n : Nat} (h : 0 < bitLen n) : n.testBit (bitLen n - 1) = true :=
  Nat.testBit_of_two_pow_le_and_two_pow_add_one_gt (lt_bitLen.1 (by omega)) (bitLen_le.1 (by omega))

theorem trailZeros_le : (k n : Nat) → trailZeros k n ≤ k
  | 0, _ => Nat.le_refl 0
  | k + 1, n => by
    have ih := trailZeros_le k (n / 2)
    rw [trailZeros]; split <;> omega

theorem testBit_lt_trailZeros : {k n i : Nat} → i < trailZeros k n → n.testBit i = false
  | 0, _, _, h => absurd h (Nat.not_lt_zero _)
  | k + 1, n, i, h => by
    rw [trailZeros] at h
    split at h
    next => exact absurd h (Nat.not_lt_zero _)
    next heven =>
      cases i with
      | zero => simpa [Nat.testBit_zero] using heven
      | succ i =>
        rw [Nat.testBit_succ]
        exact testBit_lt_trailZeros (k := k) (by omega)

theorem testBit_trailZeros : {k n : Nat} → trailZeros k n < k → n.testBit (trailZeros k n) = true
  | 0, _, h => absurd h (Nat.not_lt_zero _)
  | k + 1, n, h => by
    rw [trailZeros] at h ⊢
    split at h
    next hodd => simp [hodd, Nat.testBit_zero]
    next heven =>
      rw [if_neg heven, Nat.add_comm, Nat.testBit_succ]
      exact testBit_trailZeros (by omega)

theorem popCount_eq_length_filter : (k n : Nat) → popCount k n = ((List.range k).filter fun i => n.testBit i).length
  | 0, _ => rfl
  | k + 1, n => by
    have ih := popCount_eq_length_filter k (n / 2)
    have hs : (fun i => n.testBit i) ∘ Nat.succ = fun i => (n / 2).testBit i := funext fun i => Nat.testBit_succ n i
    rw [popCount, ih, List.range_succ_eq_map, List.filter_cons, List.filter_map, hs, Nat.testBit_zero]
    by_cases h : n % 2 = 1
    · simp [h, Nat.add_comm]
    · simp [Nat.mod_two_ne_one.1 h]

theorem revBits_lt : (k n : Nat) → revBits k n < 2 ^ k
  | 0, _ => Nat.one_pos
  | k + 1, n => by
    have ih := revBits_lt k (n / 2)
    have hb : n % 2 * 2 ^ k ≤ 1 * 2 ^ k := Nat.mul_le_mul_right _ (by omega)
    rw [revBits, pow_succ]; omega

theorem testBit_revBits : {k i : Nat} → (n : Nat) → i < k → (revBits k n).testBit i = n.testBit (k - 1 - i)
  | 0, _, _, h => absurd h (Nat.not_lt_zero _)
  | k + 1, i, n, h => by
    rw [revBits, Nat.mul_comm, Nat.testBit_two_pow_mul_add _ (revBits_lt k _)]
    by_cases hik : i < k
    · rw [if_pos hik, testBit_revBits _ hik, ← Nat.testBit_succ]
      congr 1; omega
    · have : i = k := by omega
      simp [this, Nat.testBit_zero]

/-- Bit 8 i + j of a little-endian number is bit j of its byte i (00 R5). -/
theorem testBit_leNat : (bs : List Byte) → (i : Nat) → {j : Nat} → j < 8 →
    (leNat bs).testBit (8 * i + j) = (bs.getD i 0).getLsbD j
  | [], i, j, _ => by simp [leNat]
  | b :: bs, i, j, hj => by
    have hle : leNat (b :: bs) = 2 ^ 8 * leNat bs + b.toNat := by rw [leNat]; omega
    rw [hle, Nat.testBit_two_pow_mul_add _ b.isLt]
    cases i with
    | zero => simp [hj, BitVec.testBit_toNat]
    | succ i =>
      rw [if_neg (by omega), (by omega : 8 * (i + 1) + j - 8 = 8 * i + j), testBit_leNat bs i hj, List.getD_cons_succ]

theorem getLsbD_leBytes (v : Nat) {n i j : Nat} (hi : i < n) (hj : j < 8) :
    ((leBytes n v).getD i 0).getLsbD j = v.testBit (8 * i + j) := by
  rw [← testBit_leNat _ i hj, leNat_leBytes, Nat.testBit_mod_two_pow, decide_eq_true (by omega), Bool.true_and]

/-! ### The rows of the `INT` major (05 R116, R117; 02 R44) -/

section
variable {A B D : Word} {d a b : Reg}

theorem intRow_add : intRow A B D (A + B) (.add d a b) := BitVec.toNat_add A B

theorem intRow_sub : intRow A B D (A - B) (.sub d a b) := by
  have := A.isLt
  have := B.isLt
  show ((A - B).toNat + B.toNat) % 2 ^ 64 = A.toNat
  rw [BitVec.toNat_sub]
  omega

theorem intRow_mul : intRow A B D (A * B) (.mul d a b) := BitVec.toNat_mul A B

theorem intRow_mulh : intRow A B D (mulHigh A B) (.mulh d a b) := by
  have h : |A.toInt * B.toInt| ≤ 2 ^ 63 * 2 ^ 63 := by
    rw [abs_mul]
    exact mul_le_mul (abs_toInt_le A) (abs_toInt_le B) (abs_nonneg _) (by norm_num)
  obtain ⟨lo, hi⟩ := abs_le.1 h
  exact toInt_wordI (by omega) (by omega)

theorem intRow_mulhn : intRow A B D (mulHighN A B) (.mulhn d a b) := by
  have h : A.toNat * B.toNat < 2 ^ 64 * 2 ^ 64 := Nat.mul_lt_mul'' A.isLt B.isLt
  exact toNat_word (by omega)

theorem intRow_div : intRow A B D (quotS A B) (.div d a b) := by
  show if B = 0 then _ else if A = minWord ∧ B = BitVec.allOnes 64 then _ else _
  rw [quotS, wordI_tdiv]
  split
  next => rfl
  next =>
    split
    next hmin => rw [hmin.1, hmin.2]; decide
    next hmin => exact BitVec.toInt_sdiv_of_ne_or_ne A B (not_and_or.1 hmin)

theorem intRow_divn : intRow A B D (quotN A B) (.divn d a b) := by
  show if B = 0 then _ else _
  rw [quotN]
  split
  next => rfl
  next => exact toNat_word (lt_of_le_of_lt (Nat.div_le_self _ _) A.isLt)

theorem intRow_rem : intRow A B D (remS A B) (.rem d a b) := by
  show if B = 0 then _ else if A = minWord ∧ B = BitVec.allOnes 64 then _ else _
  rw [remS, wordI_tmod]
  split
  next => rfl
  next =>
    split
    next hmin => rw [hmin.1, hmin.2]; decide
    next => exact BitVec.toInt_srem A B

theorem intRow_remn : intRow A B D (remN A B) (.remn d a b) := by
  show if B = 0 then _ else _
  rw [remN]
  split
  next => rfl
  next => exact toNat_word (lt_of_le_of_lt (Nat.mod_le _ _) A.isLt)

theorem intRow_and : intRow A B D (A &&& B) (.and d a b) := fun _ _ => BitVec.getLsbD_and

theorem intRow_or : intRow A B D (A ||| B) (.or d a b) := fun _ _ => BitVec.getLsbD_or

theorem intRow_xor : intRow A B D (A ^^^ B) (.xor d a b) := fun _ _ => BitVec.getLsbD_xor

theorem intRow_andn : intRow A B D (A &&& ~~~B) (.andn d a b) := fun i hi => by simp [hi]

theorem intRow_orn : intRow A B D (A ||| ~~~B) (.orn d a b) := fun i hi => by simp [hi]

theorem intRow_shl : intRow A B D (A <<< sh6 B) (.shl d a b) := by
  show _ = A.toNat * 2 ^ (B.toNat % 64) % 2 ^ 64
  rw [BitVec.toNat_shiftLeft, Nat.shiftLeft_eq, sh6_eq]

theorem intRow_shr : intRow A B D (A >>> sh6 B) (.shr d a b) := by
  show _ = A.toNat / 2 ^ (B.toNat % 64)
  rw [BitVec.toNat_ushiftRight, Nat.shiftRight_eq_div_pow, sh6_eq]

theorem intRow_sra : intRow A B D (A.sshiftRight (sh6 B)) (.sra d a b) := by
  show _ = A.toInt / 2 ^ (B.toNat % 64)
  rw [BitVec.toInt_sshiftRight, Int.shiftRight_eq_div_pow, sh6_eq, Nat.cast_pow, Nat.cast_ofNat]

theorem intRow_rol : intRow A B D (A.rotateLeft (sh6 B)) (.rol d a b) := fun i hi => by
  have hn : B.toNat % 64 < 64 := Nat.mod_lt _ (by norm_num)
  rw [sh6_eq, BitVec.getLsbD_rotateLeft_of_le hn]
  generalize B.toNat % 64 = n at *
  by_cases h : i + n < 64
  · rw [Nat.mod_eq_of_lt h]
    simp [h, Nat.not_lt.2 (Nat.le_add_left n i)]
  · have hm : (i + n) % 64 = i + n - 64 := by omega
    have hlt : i + n - 64 < n := by omega
    have hi' : 64 - n + (i + n - 64) = i := by omega
    simp [hm, hlt, hi']

theorem intRow_ror : intRow A B D (A.rotateRight (sh6 B)) (.ror d a b) := fun i hi => by
  have hn : B.toNat % 64 < 64 := Nat.mod_lt _ (by norm_num)
  rw [sh6_eq, BitVec.getLsbD_rotateRight_of_lt hn]
  generalize B.toNat % 64 = n at *
  by_cases h : i < 64 - n
  · simp [h, Nat.add_comm n i, Nat.mod_eq_of_lt (by omega : i + n < 64)]
  · have hm : (i + n) % 64 = i - (64 - n) := by omega
    simp [h, hi, hm]

theorem intRow_min : intRow A B D (if A.toInt ≤ B.toInt then A else B) (.min d a b) := by
  show _ = min A.toInt B.toInt
  rw [apply_ite BitVec.toInt, min_def]

theorem intRow_max : intRow A B D (if A.toInt ≤ B.toInt then B else A) (.max d a b) := by
  show _ = max A.toInt B.toInt
  rw [apply_ite BitVec.toInt, max_def]

theorem intRow_minn : intRow A B D (if A.toNat ≤ B.toNat then A else B) (.minn d a b) := by
  show _ = min A.toNat B.toNat
  rw [apply_ite BitVec.toNat, min_def]

theorem intRow_maxn : intRow A B D (if A.toNat ≤ B.toNat then B else A) (.maxn d a b) := by
  show _ = max A.toNat B.toNat
  rw [apply_ite BitVec.toNat, max_def]

theorem intRow_slt : intRow A B D (wordB (decide (A.toInt < B.toInt))) (.slt d a b) := wordB_decide _

theorem intRow_sltn : intRow A B D (wordB (decide (A.toNat < B.toNat))) (.sltn d a b) := wordB_decide _

theorem intRow_seq : intRow A B D (wordB (decide (A = B))) (.seq d a b) := wordB_decide _

theorem intRow_sne : intRow A B D (wordB (decide (A ≠ B))) (.sne d a b) := by
  show _ = if A = B then 0 else 1
  rw [wordB_decide, ite_not]

theorem intRow_clz : intRow A B D (word (64 - bitLen A.toNat)) (.clz d a) := by
  have hl : bitLen A.toNat ≤ 64 := bitLen_le.2 A.isLt
  have hv : (word (64 - bitLen A.toNat)).toNat = 64 - bitLen A.toNat := toNat_word (by omega)
  show _ ≤ 64 ∧ (∀ i < 64, 64 ≤ i + _ → _) ∧ (_ < 64 → A.getLsbD (63 - _) = true)
  rw [hv]
  refine ⟨by omega, fun i _ hi => ?_, fun h => ?_⟩
  · exact Nat.testBit_lt_two_pow (bitLen_le.1 (by omega))
  · rw [(by omega : 63 - (64 - bitLen A.toNat) = bitLen A.toNat - 1)]
    exact testBit_bitLen_sub_one (by omega)

theorem intRow_ctz : intRow A B D (word (trailZeros 64 A.toNat)) (.ctz d a) := by
  have hl : trailZeros 64 A.toNat ≤ 64 := trailZeros_le 64 _
  have hv : (word (trailZeros 64 A.toNat)).toNat = trailZeros 64 A.toNat := toNat_word (by omega)
  show _ ≤ 64 ∧ (∀ i < _, A.getLsbD i = false) ∧ (_ < 64 → A.getLsbD _ = true)
  rw [hv]
  exact ⟨hl, fun i hi => testBit_lt_trailZeros hi, testBit_trailZeros⟩

theorem intRow_popc : intRow A B D (word (popCount 64 A.toNat)) (.popc d a) := by
  have hl : popCount 64 A.toNat ≤ 64 := by
    rw [popCount_eq_length_filter]
    simpa using List.length_filter_le (fun i => A.toNat.testBit i) (List.range 64)
  show _ = ((List.range 64).filter fun i => A.getLsbD i).length
  rw [toNat_word (by omega), popCount_eq_length_filter]
  rfl

theorem intRow_brev : intRow A B D (word (revBits 64 A.toNat)) (.brev d a) := fun i hi => by
  rw [getLsbD_word hi, testBit_revBits _ hi, BitVec.testBit_toNat]

theorem intRow_bswap : intRow A B D (word (leNat (leBytes 8 A.toNat).reverse)) (.bswap d a) := fun i hi j hj => by
  have hr : (leBytes 8 A.toNat).reverse.getD i 0 = (leBytes 8 A.toNat).getD (7 - i) 0 := by
    rw [List.getD_eq_getElem?_getD, List.getElem?_reverse (by simpa [leBytes_length] using hi), leBytes_length,
      ← List.getD_eq_getElem?_getD]
  rw [getLsbD_word (by omega), testBit_leNat _ i hj, hr, getLsbD_leBytes _ (by omega) hj, BitVec.testBit_toNat]

theorem intRow_sext : intRow A B D (sextW A (bits B 0 6 + 1)) (.sext d a b) := fun i hi => by
  have hb : bits B 0 6 = B.toNat % 64 := sh6_eq B
  rw [hb, getLsbD_sextW A (Nat.mod_lt _ (by norm_num)) hi]

theorem intRow_zext : intRow A B D (zextW A (bits B 0 6 + 1)) (.zext d a b) := fun i hi => by
  have hb : bits B 0 6 = B.toNat % 64 := sh6_eq B
  simp only [hb, getLsbD_zextW A _ hi, Nat.lt_succ_iff]

theorem intRow_bfx : intRow A B D (bitsExtract A B) (.bfx d a b) := fun i hi => by
  have hb : bits B 0 6 = B.toNat % 64 := sh6_eq B
  rw [bitsExtract, hb, getLsbD_word hi, Nat.testBit_mod_two_pow, Nat.testBit_div_two_pow, BitVec.testBit_toNat]

theorem intRow_bfi : intRow A B D (bitsInsert D A B) (.bfi d a b) := fun i hi => by
  have hb : bits B 0 6 = B.toNat % 64 := sh6_eq B
  have hm : (word ((2 ^ fieldLen B - 1) * 2 ^ (B.toNat % 64))).getLsbD i =
      decide (B.toNat % 64 ≤ i ∧ i < B.toNat % 64 + fieldLen B) := by
    rw [getLsbD_word hi, Nat.testBit_mul_two_pow, Nat.testBit_two_pow_sub_one, ← Bool.decide_and]
    exact decide_eq_decide.2 (by omega)
  simp only [bitsInsert, hb, BitVec.getLsbD_or, BitVec.getLsbD_and, BitVec.getLsbD_not, BitVec.getLsbD_shiftLeft, hm, hi]
  by_cases h : B.toNat % 64 ≤ i ∧ i < B.toNat % 64 + fieldLen B
  · simp [h, Nat.not_lt.2 h.1]
  · simp [h]

theorem intRow_cmovz : intRow A B D (if B = 0 then A else D) (.cmovz d a b) := rfl

theorem intRow_cmovnz : intRow A B D (if B ≠ 0 then A else D) (.cmovnz d a b) := ite_not ..

theorem intRow_addw : intRow A B D (sx32 (A + B)) (.addw d a b) := toInt_sx32_of_bmod (BitVec.toInt_add A B)

theorem intRow_subw : intRow A B D (sx32 (A - B)) (.subw d a b) := toInt_sx32_of_bmod BitVec.toInt_sub

theorem intRow_mulw : intRow A B D (sx32 (A * B)) (.mulw d a b) := toInt_sx32_of_bmod (BitVec.toInt_mul A B)

theorem intRow_shlw : intRow A B D (sx32 (A <<< sh5 B)) (.shlw d a b) := by
  refine toInt_sx32_of_bmod ?_
  rw [BitVec.toInt_shiftLeft, Nat.shiftLeft_eq, sh5_eq, Nat.cast_mul, Nat.cast_pow, Nat.cast_ofNat]

theorem intRow_shrw : intRow A B D (sx32 (zextW A 32 >>> sh5 B)) (.shrw d a b) := by
  have hz : (zextW A 32).toNat = A.toNat % 2 ^ 32 := toNat_word (by omega)
  show _ = Int.bmod (A.toNat % 2 ^ 32 / 2 ^ (B.toNat % 32)) (2 ^ 32)
  rw [toInt_sx32, BitVec.toNat_ushiftRight, Nat.shiftRight_eq_div_pow, hz, sh5_eq]
  push_cast
  rfl

theorem intRow_sraw : intRow A B D ((sx32 A).sshiftRight (sh5 B)) (.sraw d a b) := by
  have hs : (sx32 A).toInt = A.toInt.bmod (2 ^ 32) := toInt_sx32_of_bmod A.toInt_bmod_cancel.symm
  show _ = A.toInt.bmod (2 ^ 32) / 2 ^ (B.toNat % 32)
  rw [BitVec.toInt_sshiftRight, Int.shiftRight_eq_div_pow, hs, sh5_eq, Nat.cast_pow, Nat.cast_ofNat]

end

/-! ### Every instruction of the major -/

/-- An instruction that ends with `State.result` does its row when the value written satisfies the row. -/
theorem givesIntRow {i : Instr} {d a b d' a' b' : Reg} {s : State} {v : Word} (hexec : exec i s = s.result d v)
    (hrow : intRow (s.g a) (s.g b) (s.g d) v i) :
    some (d, a, b) = some (d', a', b') → ∃ v, intRow (s.g a') (s.g b') (s.g d') v i ∧ Writes (exec i s) s d' v 4 := by
  rintro ⟨⟩
  exact ⟨v, hrow, hexec ▸ writes_result s d v 4⟩

/-- Settles O1: one row of R116 and R117 per branch of `intFields`, with the frame of `State.result`. -/
theorem integerMajorGivesItsRow : Obligations.IntegerMajorGivesItsRow := by
  intro i d a b s
  fun_cases intFields i
  · exact givesIntRow rfl intRow_add
  · exact givesIntRow rfl intRow_sub
  · exact givesIntRow rfl intRow_mul
  · exact givesIntRow rfl intRow_mulh
  · exact givesIntRow rfl intRow_mulhn
  · exact givesIntRow rfl intRow_div
  · exact givesIntRow rfl intRow_divn
  · exact givesIntRow rfl intRow_rem
  · exact givesIntRow rfl intRow_remn
  · exact givesIntRow rfl intRow_and
  · exact givesIntRow rfl intRow_or
  · exact givesIntRow rfl intRow_xor
  · exact givesIntRow rfl intRow_andn
  · exact givesIntRow rfl intRow_orn
  · exact givesIntRow rfl intRow_shl
  · exact givesIntRow rfl intRow_shr
  · exact givesIntRow rfl intRow_sra
  · exact givesIntRow rfl intRow_rol
  · exact givesIntRow rfl intRow_ror
  · exact givesIntRow rfl intRow_min
  · exact givesIntRow rfl intRow_max
  · exact givesIntRow rfl intRow_minn
  · exact givesIntRow rfl intRow_maxn
  · exact givesIntRow rfl intRow_slt
  · exact givesIntRow rfl intRow_sltn
  · exact givesIntRow rfl intRow_seq
  · exact givesIntRow rfl intRow_sne
  · exact givesIntRow rfl intRow_sext
  · exact givesIntRow rfl intRow_zext
  · exact givesIntRow rfl intRow_bfx
  · exact givesIntRow rfl intRow_bfi
  · exact givesIntRow rfl intRow_cmovz
  · exact givesIntRow rfl intRow_cmovnz
  · exact givesIntRow rfl intRow_addw
  · exact givesIntRow rfl intRow_subw
  · exact givesIntRow rfl intRow_mulw
  · exact givesIntRow rfl intRow_shlw
  · exact givesIntRow rfl intRow_shrw
  · exact givesIntRow rfl intRow_sraw
  · exact givesIntRow rfl intRow_clz
  · exact givesIntRow rfl intRow_ctz
  · exact givesIntRow rfl intRow_popc
  · exact givesIntRow rfl intRow_brev
  · exact givesIntRow rfl intRow_bswap
  · exact nofun

end Sys2Proof.Proofs

/-! The binary formats: the fields of a bit pattern, the canonical significand and exponent of a finite number, and what rounding
does to an exact value (02 R45 to R47). -/

namespace Sys2Proof.Proofs

open Sys2Proof.Machine Sys2Proof.Claims

/-! ### The fields of a bit pattern (02 R45) -/

/-- The bit pattern of a sign, a biased exponent and a trailing significand. -/
def fields (f : FloatSpec) (neg : Bool) (ex fr : Nat) : Nat := f.zero neg + ex * 2 ^ (f.prec - 1) + fr

/-- A format with room for a quiet bit and for normal numbers. -/
structure Sound (f : FloatSpec) : Prop where
  prec  : 2 ≤ f.prec
  ebits : 2 ≤ f.ebits

theorem sound_specOf (f : FpFmt) : Sound (specOf f) := by cases f <;> exact ⟨by decide, by decide⟩

section
variable {f : FloatSpec} (hf : Sound f)
include hf

theorem width_sub_one : f.width - 1 = f.prec - 1 + f.ebits := by
  have := hf.prec
  rw [FloatSpec.width]; omega

theorem two_pow_width : 2 ^ f.width = 2 * (2 ^ (f.prec - 1) * 2 ^ f.ebits) := by
  rw [← pow_add, ← width_sub_one hf, ← pow_succ']
  congr 1
  have := hf.prec
  rw [FloatSpec.width]; omega

/-- A pattern as significand field, exponent field and sign, from below. -/
theorem fields_eq (neg : Bool) (ex fr : Nat) :
    fields f neg ex fr = 2 ^ (f.prec - 1) * (2 ^ f.ebits * neg.toNat + ex) + fr := by
  have hz : f.zero neg = 2 ^ (f.prec - 1) * (2 ^ f.ebits * neg.toNat) := by
    rw [FloatSpec.zero, width_sub_one hf, pow_add]
    cases neg <;> simp
  rw [fields, hz]; ring

theorem fields_div {neg : Bool} {ex fr : Nat} (hfr : fr < 2 ^ (f.prec - 1)) :
    fields f neg ex fr / 2 ^ (f.prec - 1) = 2 ^ f.ebits * neg.toNat + ex := by
  rw [fields_eq hf, Nat.mul_add_div (by positivity), Nat.div_eq_of_lt hfr, Nat.add_zero]

theorem fields_sign {neg : Bool} {ex fr : Nat} (hex : ex < 2 ^ f.ebits) (hfr : fr < 2 ^ (f.prec - 1)) :
    fields f neg ex fr / 2 ^ (f.width - 1) = neg.toNat := by
  rw [width_sub_one hf, pow_add, ← Nat.div_div_eq_div_mul, fields_div hf hfr, Nat.mul_add_div (by positivity),
    Nat.div_eq_of_lt hex, Nat.add_zero]

theorem fields_lt {neg : Bool} {ex fr : Nat} (hex : ex < 2 ^ f.ebits) (hfr : fr < 2 ^ (f.prec - 1)) :
    fields f neg ex fr < 2 ^ f.width := by
  have h := fields_sign hf (neg := neg) hex hfr
  have hn := Bool.toNat_le neg
  rw [two_pow_width hf, ← pow_add, ← width_sub_one hf]
  by_contra hc
  have : 2 ≤ fields f neg ex fr / 2 ^ (f.width - 1) := (Nat.le_div_iff_mul_le (by positivity)).2 (by omega)
  omega

/-- Every number has fields; the sign is its top bit. -/
theorem exists_fields (w : Nat) : ∃ neg ex fr, ex < 2 ^ f.ebits ∧ fr < 2 ^ (f.prec - 1) ∧
    w % 2 ^ f.width = fields f neg ex fr ∧ w.testBit (f.width - 1) = neg := by
  have hlow : w % 2 ^ (f.width - 1) = fields f false (w / 2 ^ (f.prec - 1) % 2 ^ f.ebits) (w % 2 ^ (f.prec - 1)) := by
    rw [fields_eq hf, width_sub_one hf, pow_add, Nat.mod_mul]
    simp [Nat.add_comm]
  have hw : f.width = f.width - 1 + 1 := by have := hf.prec; rw [FloatSpec.width]; omega
  refine ⟨w.testBit (f.width - 1), w / 2 ^ (f.prec - 1) % 2 ^ f.ebits, w % 2 ^ (f.prec - 1),
    Nat.mod_lt _ (by positivity), Nat.mod_lt _ (by positivity), ?_, rfl⟩
  have hbit : w / 2 ^ (f.width - 1) % 2 = (w.testBit (f.width - 1)).toNat := (Nat.toNat_testBit ..).symm
  rw [hw, pow_succ, Nat.mod_mul, ← hw, hbit, hlow, fields, fields, FloatSpec.zero, FloatSpec.zero]
  cases w.testBit (f.width - 1) with
  | false => simp
  | true =>
    simp only [Bool.toNat_true, if_true]
    simp; ring

/-- What a pattern with given fields stands for (02 R45). -/
theorem decode_fields {neg : Bool} {ex fr : Nat} (hex : ex < 2 ^ f.ebits) (hfr : fr < 2 ^ (f.prec - 1)) :
    f.decode (fields f neg ex fr) =
      if ex = 2 ^ f.ebits - 1 then if fr = 0 then .inf neg else .nan (fr < 2 ^ (f.prec - 2))
      else if ex = 0 then .num neg fr (f.emin - (f.prec - 1))
      else .num neg (fr + 2 ^ (f.prec - 1)) (f.emin - (f.prec - 1) + (ex - 1)) := by
  have hs : (neg.toNat == 1) = neg := by cases neg <;> rfl
  have he : (2 ^ f.ebits * neg.toNat + ex) % 2 ^ f.ebits = ex := by
    rw [Nat.mul_add_mod, Nat.mod_eq_of_lt hex]
  have hm : fields f neg ex fr % 2 ^ (f.prec - 1) = fr := by
    rw [fields_eq hf, Nat.mul_add_mod, Nat.mod_eq_of_lt hfr]
  simp only [FloatSpec.decode, Nat.mod_eq_of_lt (fields_lt hf hex hfr), fields_sign hf hex hfr, fields_div hf hfr, he, hm, hs]

omit hf in
theorem decode_mod (w : Nat) : f.decode (w % 2 ^ f.width) = f.decode w := by
  simp only [FloatSpec.decode, Nat.mod_mod]

end

/-! ### Finite numbers: one significand and one exponent each -/

/-- m × 2^e is a finite magnitude as the format holds it: normal, or subnormal with the smallest exponent. -/
structure Canonical (f : FloatSpec) (m : Nat) (e : Int) : Prop where
  lt     : m < 2 ^ f.prec
  low    : f.emin - (f.prec - 1) ≤ e
  high   : e + (f.prec - 1) ≤ f.emax
  normal : m < 2 ^ (f.prec - 1) → e = f.emin - (f.prec - 1)

/-- The exponent field of a canonical significand and exponent. -/
def exponentField (f : FloatSpec) (m : Nat) (e : Int) : Nat :=
  if m < 2 ^ (f.prec - 1) then 0 else (e + (f.prec - 1) - f.emin + 1).toNat

/-- The trailing significand of a canonical significand. -/
def trailing (f : FloatSpec) (m : Nat) : Nat := if m < 2 ^ (f.prec - 1) then m else m - 2 ^ (f.prec - 1)

/-- The pattern of a canonical significand and exponent with a sign. -/
def pattern (f : FloatSpec) (neg : Bool) (m : Nat) (e : Int) : Nat := fields f neg (exponentField f m e) (trailing f m)

section
variable {f : FloatSpec} (hf : Sound f)
include hf

theorem two_pow_prec : 2 ^ f.prec = 2 * 2 ^ (f.prec - 1) :=
  (mul_pow_sub_one (by have := hf.prec; omega) 2).symm

/-- The exponent fields of finite numbers reach from 0 to 2^ebits − 2. -/
theorem two_mul_emax : 2 * f.emax = ((2 ^ f.ebits - 2 : Nat) : Int) := by
  have h : 2 ^ f.ebits = 2 * 2 ^ (f.ebits - 1) := (mul_pow_sub_one (by have := hf.ebits; omega) 2).symm
  have hp : 0 < 2 ^ (f.ebits - 1) := by positivity
  rw [FloatSpec.emax, h]
  push_cast [(by omega : 2 ≤ 2 * 2 ^ (f.ebits - 1))]
  ring

theorem one_le_emax : 1 ≤ f.emax := by
  have h4 : 2 ^ 2 ≤ 2 ^ f.ebits := Nat.pow_le_pow_right (by norm_num) hf.ebits
  have := two_mul_emax hf
  omega

theorem trailing_lt {m : Nat} (h : m < 2 ^ f.prec) : trailing f m < 2 ^ (f.prec - 1) := by
  have := two_pow_prec hf
  rw [trailing]
  split <;> omega

theorem exponentField_lt {m : Nat} {e : Int} (h : Canonical f m e) : exponentField f m e < 2 ^ f.ebits - 1 := by
  have hone := one_le_emax hf
  have hmax := two_mul_emax hf
  have hhigh := h.high
  rw [exponentField, FloatSpec.emin]
  split <;> omega

/-- The pattern of a canonical significand and exponent stands for them. -/
theorem decode_canonical {m : Nat} {e : Int} (h : Canonical f m e) (neg : Bool) :
    f.decode (pattern f neg m e) = .num neg m e := by
  have hex := exponentField_lt hf h
  rw [pattern, decode_fields hf (by omega) (trailing_lt hf h.lt), if_neg (by omega), exponentField, trailing]
  split
  next hm => rw [if_pos rfl, h.normal hm]
  next hm =>
    have hlow := h.low
    rw [if_neg (by omega), Nat.sub_add_cancel (not_lt.1 hm)]
    congr 1
    omega

/-- What a pattern stands for when it is finite is canonical, and the pattern is that of its value. -/
theorem canonical_of_decode {w : Nat} {neg : Bool} {m : Nat} {e : Int} (h : f.decode w = .num neg m e) :
    Canonical f m e ∧ w % 2 ^ f.width = pattern f neg m e := by
  obtain ⟨n, ex, fr, hex, hfr, hw, -⟩ := exists_fields hf w
  rw [hw, pattern]
  rw [← decode_mod, hw, decode_fields hf hex hfr] at h
  have hone := one_le_emax hf
  split at h
  next => split at h <;> cases h
  next hne =>
    split at h
    next h0 =>
      cases h
      refine ⟨⟨?_, le_refl _, ?_, fun _ => rfl⟩, ?_⟩
      · have := two_pow_prec hf; omega
      · rw [FloatSpec.emin]; omega
      · rw [exponentField, trailing, if_pos hfr, if_pos hfr, h0]
    next h0 =>
      cases h
      have hmax := two_mul_emax hf
      have hnlt : ¬ fr + 2 ^ (f.prec - 1) < 2 ^ (f.prec - 1) := by omega
      refine ⟨⟨?_, ?_, ?_, fun hm => absurd hm hnlt⟩, ?_⟩
      · have := two_pow_prec hf; omega
      · omega
      · rw [FloatSpec.emin]; omega
      · rw [exponentField, trailing, if_neg hnlt, if_neg hnlt, Nat.add_sub_cancel]
        congr 1
        omega

end

/-! ### Rounding into a format (02 R46) -/

/-- The exponent of the unit in the last place to which ± m × 2^e is rounded. -/
def quantum (f : FloatSpec) (m : Nat) (e : Int) : Int := max f.emin (e + bitLen m - 1) - (f.prec - 1)

/-- Where the kept part is canonical, rounding gives its pattern; `NX` and `UF` only when a part is dropped. -/
theorem round_eq_pattern {f : FloatSpec} {mode : RoundMode} {neg : Bool} {m : Nat} {e : Int} {r : Nat × Bool} (hm : m ≠ 0)
    (hr : shiftRound mode neg m (quantum f m e - e) = r) (h : Canonical f r.1 (quantum f m e)) :
    ∃ tiny, f.round mode neg m e = ⟨pattern f neg r.1 (quantum f m e), { uf := tiny && r.2, nx := r.2 }⟩ := by
  have hq : (if e + bitLen m - 1 < f.emin then f.emin else e + bitLen m - 1) - ((f.prec : Int) - 1) = quantum f m e := by
    rw [quantum, max_def]
    split <;> split <;> omega
  have hlen := bitLen_le.2 h.lt
  have hhigh := h.high
  simp only [FloatSpec.round, if_neg hm, hq, hr]
  rw [if_neg (by omega), pattern, exponentField, trailing, fields]
  split
  next => exact ⟨_, by rw [Nat.zero_mul, Nat.add_zero]⟩
  next => exact ⟨_, by rw [← Nat.add_assoc]⟩

section
variable {f : FloatSpec} (hf : Sound f)
include hf

theorem quantum_canonical {m : Nat} {e : Int} (h : Canonical f m e) : quantum f m e = e := by
  have := hf.prec
  by_cases hs : m < 2 ^ (f.prec - 1)
  · have := bitLen_le.2 hs
    have := h.normal hs
    rw [quantum, max_eq_left (by omega)]; omega
  · have := bitLen_le.2 h.lt
    have : f.prec - 1 < bitLen m := lt_bitLen.2 (not_lt.1 hs)
    have := h.low
    rw [quantum, max_eq_right (by omega)]; omega

/-- A finite number of the format rounds to itself, in every mode and without a flag. -/
theorem round_canonical {m : Nat} {e : Int} (h : Canonical f m e) (mode : RoundMode) (neg : Bool) :
    f.round mode neg m e = ⟨pattern f neg m e, .none⟩ := by
  by_cases hm : m = 0
  · have h0 : m < 2 ^ (f.prec - 1) := hm ▸ by positivity
    rw [FloatSpec.round, if_pos hm, pattern, exponentField, trailing, if_pos h0, if_pos h0, hm, fields]
    simp
  · have hq := quantum_canonical hf h
    obtain ⟨tiny, hround⟩ := round_eq_pattern (mode := mode) (neg := neg) (r := (m, false)) hm (by rw [hq, sub_self]; rfl) (hq ▸ h)
    rw [hround, hq, Bool.and_false]; rfl

/-- What a pattern stands for rounds to the pattern, unless it is a NaN. -/
theorem roundVal_decode (mode : RoundMode) {w : Nat} (h : (f.decode w).isNan = false) :
    f.roundVal mode (f.decode w) = ⟨w % 2 ^ f.width, .none⟩ := by
  cases hv : f.decode w with
  | nan q => rw [hv] at h; cases h
  | num neg m e =>
    obtain ⟨hcan, hw⟩ := canonical_of_decode hf hv
    rw [FloatSpec.roundVal, round_canonical hf hcan, hw]
  | inf neg =>
    obtain ⟨n, ex, fr, hex, hfr, hw, -⟩ := exists_fields hf w
    rw [← decode_mod, hw, decode_fields hf hex hfr] at hv
    split at hv
    next hmax =>
      split at hv
      next hzero =>
        cases hv
        rw [hw, hmax, hzero]; rfl
      next => cases hv
    next => split at hv <;> cases hv

/-! ### The numbers of a format -/

omit hf in
theorem rat_nonneg (m : Nat) (e : Int) : 0 ≤ rat false m e := by
  rw [rat]; simp only [Bool.false_eq_true, if_false, one_mul]; positivity

/-- The largest significand is below twice the smallest normal one. -/
theorem canonical_lt {m : Nat} {e : Int} (h : Canonical f m e) : (m : ℚ) < 2 * 2 ^ (f.prec - 1) := by
  have := h.lt
  rw [two_pow_prec hf] at this
  exact_mod_cast this

omit hf in
/-- Above the smallest exponent a significand is normal. -/
theorem canonical_ge {m : Nat} {e e' : Int} (h : Canonical f m e) (h' : f.emin - (f.prec - 1) ≤ e') (hlt : e' < e) :
    (2 : ℚ) ^ (f.prec - 1) ≤ m := by
  have hn : ¬ m < 2 ^ (f.prec - 1) := fun hm => absurd (h.normal hm) (by omega)
  exact_mod_cast not_lt.1 hn

/-- Of two canonical magnitudes the one with the smaller exponent is smaller. -/
theorem canonical_lt_of_exponent_lt {m m' : Nat} {e e' : Int} (h : Canonical f m e) (h' : Canonical f m' e') (hlt : e < e') :
    (m : ℚ) * 2 ^ e < m' * 2 ^ e' := by
  calc (m : ℚ) * 2 ^ e < 2 * 2 ^ (f.prec - 1) * 2 ^ e := by gcongr; exact canonical_lt hf h
    _ = 2 ^ (f.prec - 1) * 2 ^ (e + 1) := by rw [zpow_add_one₀ (by norm_num)]; ring
    _ ≤ m' * 2 ^ e' := by
      gcongr
      · exact canonical_ge h' h.low hlt
      · norm_num
      · omega

/-- A magnitude of the format has one canonical form. -/
theorem canonical_unique {m m' : Nat} {e e' : Int} (h : Canonical f m e) (h' : Canonical f m' e')
    (heq : (m : ℚ) * 2 ^ e = m' * 2 ^ e') : m = m' ∧ e = e' := by
  rcases lt_trichotomy e e' with hlt | rfl | hgt
  · exact absurd heq (canonical_lt_of_exponent_lt hf h h' hlt).ne
  · exact ⟨by exact_mod_cast mul_right_cancel₀ (by positivity) heq, rfl⟩
  · exact absurd heq (canonical_lt_of_exponent_lt hf h' h hgt).ne'

/-! ### Rounding toward zero -/

omit hf in
theorem shiftRound_rz (neg : Bool) (m : Nat) (sh : Int) : (shiftRound .rz neg m sh).1 = ⌊(m : ℚ) * 2 ^ (-sh)⌋₊ := by
  match sh with
  | .ofNat 0 => simp [shiftRound]
  | .ofNat (k + 1) =>
    have : (m : ℚ) * 2 ^ (-(Int.ofNat (k + 1))) = (m : ℚ) / (2 ^ (k + 1) : Nat) := by
      rw [Int.ofNat_eq_natCast, zpow_neg, zpow_natCast]; push_cast; rfl
    rw [this, Nat.floor_div_eq_div]
    rfl
  | .negSucc k =>
    have : (m : ℚ) * 2 ^ (-(Int.negSucc k)) = (m * 2 ^ (k + 1) : Nat) := by
      rw [Int.neg_negSucc, zpow_natCast]; push_cast; rfl
    rw [this, Nat.floor_natCast]
    rfl

section
variable {m : Nat} {e : Int}

/-- The kept part of m × 2^e under rounding toward zero. -/
def truncated (f : FloatSpec) (m : Nat) (e : Int) : Nat := ⌊(m : ℚ) * 2 ^ (e - quantum f m e)⌋₊

omit hf in
/-- An integer multiple of the quantum is at most m × 2^e exactly when it is at most the kept part. -/
theorem le_truncated {k : Nat} : k ≤ truncated f m e ↔ (k : ℚ) * 2 ^ quantum f m e ≤ m * 2 ^ e := by
  rw [truncated, Nat.le_floor_iff (by positivity), zpow_sub₀ (by norm_num), ← mul_div_assoc,
    le_div_iff₀ (by positivity)]

omit hf in
theorem pow_mul_zpow (n : Nat) (z : Int) : (2 : ℚ) ^ n * 2 ^ z = 2 ^ (n + z) := by
  rw [← zpow_natCast, ← zpow_add₀ (by norm_num)]

/-- A number that is not below the smallest normal one keeps all the bits of a significand. -/
theorem le_truncated_of_normal (hm : m ≠ 0) (hn : f.emin ≤ e + bitLen m - 1) : 2 ^ (f.prec - 1) ≤ truncated f m e := by
  have := hf.prec
  have hpos : 0 < bitLen m := lt_bitLen.2 (Nat.pos_of_ne_zero hm)
  have hlow : (2 : ℚ) ^ (bitLen m - 1) ≤ m := by exact_mod_cast lt_bitLen.1 (Nat.sub_lt hpos Nat.one_pos)
  rw [le_truncated]
  calc ((2 ^ (f.prec - 1) : Nat) : ℚ) * 2 ^ quantum f m e = 2 ^ (bitLen m - 1) * 2 ^ e := by
        push_cast
        rw [pow_mul_zpow, pow_mul_zpow, quantum, max_eq_right hn]
        congr 1
        omega
    _ ≤ m * 2 ^ e := by gcongr

theorem truncated_lt : truncated f m e < 2 ^ f.prec := by
  have := hf.prec
  have hlen : (m : ℚ) < 2 ^ bitLen m := by exact_mod_cast bitLen_le.1 (le_refl (bitLen m))
  rw [← not_le, le_truncated, not_le]
  calc (m : ℚ) * 2 ^ e < 2 ^ bitLen m * 2 ^ e := by gcongr
    _ ≤ ((2 ^ f.prec : Nat) : ℚ) * 2 ^ quantum f m e := by
        push_cast
        rw [pow_mul_zpow, pow_mul_zpow, quantum]
        exact zpow_le_zpow_right₀ (by norm_num) (by omega)

theorem truncated_canonical (hm : m ≠ 0) (h : e + bitLen m - 1 ≤ f.emax) :
    Canonical f (truncated f m e) (quantum f m e) where
  lt := truncated_lt hf
  low := sub_le_sub_right (le_max_left ..) _
  high := by
    have := one_le_emax hf
    rw [quantum, sub_add_cancel, FloatSpec.emin]
    exact max_le (by omega) h
  normal hlt := by
    have hsub : ¬ f.emin ≤ e + bitLen m - 1 := fun hn => absurd (le_truncated_of_normal hf hm hn) (not_le.2 hlt)
    rw [quantum, max_eq_left (by omega)]

/-- No number of the format lies between the kept part and the number that is rounded. -/
theorem isDown_truncated (hm : m ≠ 0) (h : e + bitLen m - 1 ≤ f.emax) :
    IsDown f (exactly (rat false m e)) (rat false (truncated f m e) (quantum f m e)) := by
  have hrat (k : Nat) (z : Int) : rat false k z = k * 2 ^ z := by simp [rat]
  refine ⟨by simpa [exactly, hrat] using le_truncated.1 (le_refl (truncated f m e)), ?_⟩
  rintro _ ⟨w, -, neg, m', e', hw, rfl⟩ hle
  obtain ⟨hcan, -⟩ := canonical_of_decode hf hw
  cases neg with
  | true =>
    have hneg : rat true m' e' ≤ 0 := by simp only [rat, if_true]; nlinarith [rat_nonneg m' e', hrat m' e']
    exact hneg.trans (rat_nonneg _ _)
  | false =>
    simp only [exactly, hrat] at hle ⊢
    by_cases hq : e' < quantum f m e
    · exact (canonical_lt_of_exponent_lt hf hcan (truncated_canonical hf hm h) hq).le
    · obtain ⟨n, hn⟩ := Int.eq_ofNat_of_zero_le (sub_nonneg.2 (not_lt.1 hq))
      have hk : (m' : ℚ) * 2 ^ e' = (m' * 2 ^ n : Nat) * 2 ^ quantum f m e := by
        push_cast
        rw [mul_assoc, pow_mul_zpow]
        congr 2
        omega
      rw [hk] at hle ⊢
      gcongr
      exact le_truncated.2 hle

theorem pattern_lt {k : Nat} {z : Int} (h : Canonical f k z) (neg : Bool) : pattern f neg k z < 2 ^ f.width :=
  fields_lt hf ((exponentField_lt hf h).trans_le (Nat.sub_le _ _)) (trailing_lt hf h.lt)

/-- A positive number below the overflow limit, rounded toward zero (02 R46). -/
theorem roundsTo_round_rz (hm : m ≠ 0) (h : e + bitLen m - 1 ≤ f.emax) :
    RoundsTo f .rz (exactly (rat false m e)) (f.round .rz false m e).bits := by
  have hcan := truncated_canonical hf hm h
  have hr : (shiftRound .rz false m (quantum f m e - e)).1 = truncated f m e := by
    rw [shiftRound_rz, neg_sub, truncated]
  obtain ⟨tiny, hround⟩ := round_eq_pattern (neg := false) hm rfl (hr ▸ hcan)
  rw [hround, hr]
  refine ⟨pattern_lt hf hcan false, ?_⟩
  rw [decode_canonical hf hcan]
  refine ⟨?_, .inl ⟨rat_nonneg m e, isDown_truncated hf hm h⟩⟩
  simpa [exactly] using rat_nonneg m e

end
end

end Sys2Proof.Proofs

/-! The `RNG` major: Philox4x32-10 and the uniforms (02 R69 to R71; 06 R150). -/

namespace Sys2Proof.Proofs

open Sys2Proof.Machine Sys2Proof.Claims

/-! ### Philox4x32-10 (02 R69) -/

/-- The four words of a Philox counter. -/
abbrev Counter := BitVec 32 × BitVec 32 × BitVec 32 × BitVec 32

/-- The words of a counter as numbers, which the model computes with. -/
def counterNat (c : Counter) : Nat × Nat × Nat × Nat := (c.1.toNat, c.2.1.toNat, c.2.2.1.toNat, c.2.2.2.toNat)

/-- The counter in two registers (02 R70). -/
def counterOf (a b : Word) : Counter := (a.extractLsb' 0 32, a.extractLsb' 32 32, b.extractLsb' 0 32, b.extractLsb' 32 32)

/-- One round of Philox on words. -/
def roundWords (c : Counter) (k0 k1 : BitVec 32) : Counter :=
  (mulHi 0xCD9E8D57 c.2.2.1 ^^^ c.2.1 ^^^ k0, mulLo 0xCD9E8D57 c.2.2.1,
   mulHi 0xD2511F53 c.1 ^^^ c.2.2.2 ^^^ k1, mulLo 0xD2511F53 c.1)

/-- The words of a counter after r rounds; before round r the key has been bumped r times. -/
def wordsAfter (c : Counter) (k0 k1 : BitVec 32) : Nat → Counter
  | 0 => c
  | r + 1 => roundWords (wordsAfter c k0 k1 r) (k0 + BitVec.ofNat 32 r * 0x9E3779B9) (k1 + BitVec.ofNat 32 r * 0xBB67AE85)

theorem philoxRounds_wordsAfter (c : Counter) (k0 k1 : BitVec 32) : PhiloxRounds (wordsAfter c k0 k1) k0 k1 :=
  fun _ _ => rfl

theorem toNat_mulHi {m : Nat} (hm : m < 2 ^ 32) (x : BitVec 32) : (mulHi m x).toNat = m * x.toNat / 2 ^ 32 := by
  have h : m * x.toNat < 2 ^ 32 * 2 ^ 32 := Nat.mul_lt_mul'' hm x.isLt
  rw [mulHi, BitVec.toNat_ofNat]
  exact Nat.mod_eq_of_lt (by omega)

theorem counterNat_roundWords (c : Counter) (k0 k1 : BitVec 32) :
    counterNat (roundWords c k0 k1) = philoxRound (counterNat c) k0.toNat k1.toNat := by
  simp only [counterNat, roundWords, philoxRound, BitVec.toNat_xor, toNat_mulHi (by norm_num : 0xCD9E8D57 < 2 ^ 32),
    toNat_mulHi (by norm_num : 0xD2511F53 < 2 ^ 32), mulLo, BitVec.toNat_ofNat]
  rfl

/-- The recursion of the model's rounds. As an equation of functions it holds by computation; with its operands applied the kernel
would count up to the bumps of the key. -/
theorem philoxRounds_succ (n : Nat) : philoxRounds (n + 1) = fun c k0 k1 =>
    philoxRounds n (philoxRound c k0 k1) ((k0 + 0x9E3779B9) % 2 ^ 32) ((k1 + 0xBB67AE85) % 2 ^ 32) := rfl

/-- The model's rounds, which bump the key as they go, are the rounds on words from round r on. -/
theorem philoxRounds_counterNat (c : Counter) (k0 k1 : BitVec 32) : (n r : Nat) →
    philoxRounds n (counterNat (wordsAfter c k0 k1 r)) (k0 + BitVec.ofNat 32 r * 0x9E3779B9).toNat
      (k1 + BitVec.ofNat 32 r * 0xBB67AE85).toNat = counterNat (wordsAfter c k0 k1 (r + n))
  | 0, _ => rfl
  | n + 1, r => by
    have bump (k w : BitVec 32) :
        (k + BitVec.ofNat 32 (r + 1) * w).toNat = ((k + BitVec.ofNat 32 r * w).toNat + w.toNat) % 2 ^ 32 := by
      rw [← BitVec.toNat_add, BitVec.ofNat_add, BitVec.add_mul, BitVec.one_mul, ← BitVec.add_assoc]
    have ih := philoxRounds_counterNat c k0 k1 n (r + 1)
    rw [bump, bump, wordsAfter, counterNat_roundWords, Nat.succ_add_eq_add_succ] at ih
    rw [philoxRounds_succ]
    exact ih

theorem bits_eq_extractLsb' (w : Word) (lo : Nat) : bits w lo 32 = (w.extractLsb' lo 32).toNat := by
  rw [bits, BitVec.extractLsb'_toNat]

theorem word_add_mul (lo hi : BitVec 32) : word (lo.toNat + hi.toNat * 2 ^ 32) = hi ++ lo := by
  apply BitVec.eq_of_toNat_eq
  rw [toNat_word (by omega), BitVec.toNat_append, Nat.shiftLeft_eq, Nat.add_comm, Nat.mul_comm]
  exact Nat.two_pow_add_eq_or_of_lt lo.isLt _

/-- The output words of `RNGP`, in the order of 02 R70. -/
theorem philox_eq (a b key : Word) :
    let c := wordsAfter (counterOf a b) (key.extractLsb' 0 32) (key.extractLsb' 32 32) 10
    philox a b key = (c.2.1 ++ c.1, c.2.2.2 ++ c.2.2.1) := by
  intro c
  have hrounds : philoxRounds 10 (bits a 0 32, bits a 32 32, bits b 0 32, bits b 32 32) (bits key 0 32) (bits key 32 32) =
      counterNat c := by
    have h := philoxRounds_counterNat (counterOf a b) (key.extractLsb' 0 32) (key.extractLsb' 32 32) 10 0
    rw [BitVec.ofNat_eq_ofNat, BitVec.zero_mul, BitVec.zero_mul, BitVec.add_zero, BitVec.add_zero] at h
    simp only [bits_eq_extractLsb']
    exact h
  rw [philox, hrounds, counterNat, word_add_mul, word_add_mul]

/-- The known answer of 02 R70. -/
theorem philox_zero : philox 0 0 0 = (0xE169C58D6627E8D5, 0x9B00DBD8BC57AC4C) := by decide

theorem onlyThread_setX (s : State) (k : XReg) (v : Word) : OnlyThread s (s.setX k v) := rfl

/-- The frame of `RNGP`: it writes g[d] and x5 and nothing else. -/
theorem rngp_frame (s : State) (d : Reg) (v w : Word) :
    let t := ((s.setG d v).setX 5 w).advance 4
    GivesG s t d v ∧ (∀ k, t.x k = if k = 5 then w else s.x k) ∧ t.cur.regs.status = s.cur.regs.status ∧
      RegFrame s t (s.pc + 4) := by
  refine ⟨fun r => ?_, fun k => ?_, ?_,
    regFrame_advance (onlyThread_trans (onlyThread_setG s d v) (onlyThread_setX _ 5 w)) ?_ ?_ ?_⟩
  · simp
  · simp
  · simp
  · simp [SameTrapRegs]
  · simp [GoesOn]
  · simp

/-! ### The uniforms (02 R71) -/

/-- An odd multiple 2 k + 1 of half a unit in the last place is k and a half units. -/
theorem rat_two_mul_add_one (k : Nat) (e : Int) : rat false (2 * k + 1) (e - 1) = ((k : ℚ) + 1 / 2) * 2 ^ e := by
  rw [rat, zpow_sub_one₀ (by norm_num)]
  push_cast
  ring

/-- A number between 0 and 1 of a format, rounded toward zero, fits a register. -/
theorem uniform_rounds {f : FpFmt} {k n : Nat} (hk : k < 2 ^ n) (e : Int) (he : e ≤ -n) :
    RoundsTo (specOf f) .rz (exactly (((k : ℚ) + 1 / 2) * 2 ^ e))
      (word ((specOf f).round .rz false (2 * k + 1) (e - 1)).bits).toNat := by
  have hlen : bitLen (2 * k + 1) ≤ n + 1 := bitLen_le.2 (by rw [pow_succ]; omega)
  have hone := one_le_emax (sound_specOf f)
  have h := roundsTo_round_rz (sound_specOf f) (m := 2 * k + 1) (e := e - 1) (by omega) (by omega)
  rw [rat_two_mul_add_one] at h
  have hw : 2 ^ (specOf f).width ≤ 2 ^ 64 := Nat.pow_le_pow_right (by norm_num) (by cases f <;> decide)
  rwa [toNat_word (h.1.trans_le hw)]

/-- Settles O9: `RNGP` by its rounds on words, the uniforms by rounding toward zero. -/
theorem randomStreams : Obligations.RandomStreams := by
  intro d a b s
  refine ⟨⟨(philox (s.g a) (s.g b) (s.x 6)).1, (philox (s.g a) (s.g b) (s.x 6)).2, _, rfl, ?_⟩,
    ⟨_, ?_, writes_result ..⟩, ⟨_, ?_, writes_result ..⟩⟩
  · obtain ⟨hg, hx, hstatus, hframe⟩ := rngp_frame s d (philox (s.g a) (s.g b) (s.x 6)).1 (philox (s.g a) (s.g b) (s.x 6)).2
    refine ⟨hg, hx, hstatus, hframe, ⟨_, rfl, philoxRounds_wordsAfter (counterOf (s.g a) (s.g b)) _ _, ?_⟩, fun ha hb hk => ?_⟩
    · rw [philox_eq]; exact ⟨rfl, rfl⟩
    · rw [ha, hb, hk, philox_zero]; exact ⟨rfl, rfl⟩
  · exact uniform_rounds (n := 53) (Nat.div_lt_of_lt_mul (s.g a).isLt) (-53) (by norm_num)
  · rw [bits_eq]
    exact uniform_rounds (Nat.mod_lt _ (by norm_num)) (-24) (by norm_num)

end Sys2Proof.Proofs

/-! `FMIN`, `FMAX`, the comparisons, the sign operations and `FCLASS` (02 R50, R51; 06 R141, R142). -/

namespace Sys2Proof.Proofs

open Sys2Proof.Machine Sys2Proof.Claims

/-! ### The frame of a floating-point instruction (06 R138) -/

theorem getLsbD_wordB (b : Bool) (i : Nat) : (wordB b).getLsbD i = (decide (i = 0) && b) := by
  cases b
  · simp [wordB]
  · simp [wordB, BitVec.getLsbD_one]

theorem getLsbD_mask (fl : FFlags) {i : Nat} (hi : i < 64) : fl.mask.getLsbD i = flagAt fl i := by
  simp only [FFlags.mask, BitVec.getLsbD_or, BitVec.getLsbD_shiftLeft, getLsbD_wordB, hi]
  match i with
  | 0 | 1 | 2 | 3 | 4 => simp [flagAt]
  | n + 5 => simp [flagAt]

theorem onlyThread_raiseFlags (s : State) (fl : FFlags) : OnlyThread s (s.raiseFlags fl) := rfl

/-- An instruction that ends with `State.resultF` writes g[d], raises its flags, and does nothing else. -/
theorem writesF_resultF (s : State) (d : Reg) (v : Word) (fl : FFlags) : WritesF (s.resultF d v fl) s d v fl := by
  refine ⟨((s.setG d v).raiseFlags fl).advance 4, rfl, fun r => ?_, fun k => ?_, fun i hi => ?_,
    regFrame_advance (onlyThread_trans (onlyThread_setG s d v) (onlyThread_raiseFlags _ fl)) ?_ ?_ ?_⟩
  · simp
  · simp
  · simp [getLsbD_mask fl hi]
  · simp [SameTrapRegs]
  · simp [GoesOn]
  · simp

/-- An instruction that ends with `State.resultFp` gives the bits and flags of its result. -/
theorem writesBits_resultFp {o : Out} {s : State} {d : Reg} {r : FRes} (ho : o = s.resultFp d r) {w : Nat} {fl : FFlags}
    (hr : r = ⟨w, fl⟩) : WritesBits o s d w fl := by
  rw [ho, hr]
  exact writesF_resultF s d _ fl

/-- One that ends with `State.result` raises no flag. -/
theorem writesBits_result (s : State) (d : Reg) (w : Nat) : WritesBits (s.result d (word w)) s d w noFlag := by
  obtain ⟨t, ho, hg, hx, hstatus, hframe⟩ := writes_result s d (word w) 4
  refine ⟨t, ho, hg, hx, fun i hi => ?_, hframe⟩
  rw [hstatus, ← getLsbD_mask noFlag hi]
  simp [FFlags.mask, noFlag, wordB]

/-- A result that raises `NV` just when a condition holds. -/
theorem writesBits_nv {o : Out} {s : State} {d : Reg} {w : Nat} {sig : Bool} {p : Prop} (hp : p ↔ sig = true)
    (h : WritesBits o s d w { nv := sig }) : (p → WritesBits o s d w onlyNv) ∧ (¬ p → WritesBits o s d w noFlag) := by
  cases sig with
  | true => exact ⟨fun _ => h, fun hn => absurd (hp.2 rfl) hn⟩
  | false => exact ⟨fun hs => absurd (hp.1 hs) Bool.false_ne_true, fun _ => h⟩

/-! ### Operands and the words of the claims -/

theorem canonicalNan_eq (f : FpFmt) : canonicalNan f = (specOf f).nan := by cases f <;> rfl

theorem signBit_eq (f : FpFmt) : signBit f = 2 ^ ((specOf f).width - 1) := by cases f <;> rfl

theorem withSign_eq (f : FpFmt) (neg : Bool) (w : Nat) : withSign f neg w = (specOf f).zero neg + w := by
  rw [withSign, signBit_eq, FloatSpec.zero]

section
variable {f : FpFmt} {w : Word}

theorem isNan_iff : IsNan f w ↔ (fval f w).isNan = true := by
  rw [IsNan]
  cases fval f w <;> simp [FVal.isNan]

theorem isSnan_iff : IsSnan f w ↔ (fval f w).signalling = true := by
  rw [IsSnan]
  cases fval f w <;> simp [FVal.signalling]

theorem isNum_iff {n : Bool} {m : Nat} {e : Int} (h : fval f w = .num n m e) {k : Bool} {q : ℚ} :
    IsNum f w k q ↔ k = n ∧ q = rat n m e := by
  rw [IsNum, h]
  constructor
  · rintro ⟨_, _, ⟨⟩, rfl⟩; exact ⟨rfl, rfl⟩
  · rintro ⟨rfl, rfl⟩; exact ⟨m, e, rfl, rfl⟩

theorem fsign_eq (f : FpFmt) (w : Word) : fsign f w = w.getLsbD ((specOf f).width - 1) := by
  rw [fsign, bit, Nat.shiftRight_eq_div_pow, BitVec.getLsbD, Nat.testBit_eq_decide_div_mod_eq]
  rfl

/-- A number carries the sign of its pattern (02 R45). -/
theorem sign_fval (h : ¬ IsNan f w) : (fval f w).sign = w.getLsbD ((specOf f).width - 1) := by
  have hf := sound_specOf f
  obtain ⟨neg, ex, fr, hex, hfr, hw, hs⟩ := exists_fields hf w.toNat
  rw [isNan_iff, fval] at h
  rw [fval]
  rw [BitVec.getLsbD, hs]
  rw [← decode_mod, hw, decode_fields hf hex hfr] at h ⊢
  split
  next h1 =>
    split
    next => rfl
    next h2 => rw [if_pos h1, if_neg h2] at h; exact absurd rfl h
  next => split <;> rfl

end

/-! ### The order of numbers (02 R50, R51) -/

theorem signedMag_mul_zpow (n : Bool) (m : Nat) (e : Int) : (signedMag n m : ℚ) * 2 ^ e = rat n m e := by
  cases n <;> simp [signedMag, rat]

theorem rat_not (n : Bool) (m : Nat) (e : Int) : rat (!n) m e = -rat n m e := by
  cases n <;> simp [rat]

/-- A magnitude over a smaller exponent. -/
theorem rat_rescale (n : Bool) (m : Nat) {e e' : Int} (h : e' ≤ e) : rat n (m * 2 ^ (e - e').toNat) e' = rat n m e := by
  have hpow : (2 : ℚ) ^ (e - e').toNat * 2 ^ e' = 2 ^ e := by
    rw [pow_mul_zpow, Int.toNat_of_nonneg (sub_nonneg.2 h), sub_add_cancel]
  rw [rat, rat, ← hpow]
  push_cast; ring

/-- The exact sum is the sum. -/
theorem sumExact_eq (n1 : Bool) (m1 : Nat) (e1 : Int) (n2 : Bool) (m2 : Nat) (e2 : Int) :
    ((sumExact n1 m1 e1 n2 m2 e2).1 : ℚ) * 2 ^ (sumExact n1 m1 e1 n2 m2 e2).2 = rat n1 m1 e1 + rat n2 m2 e2 := by
  have he : (if e1 < e2 then e1 else e2) = min e1 e2 := by rw [min_def]; split <;> split <;> omega
  simp only [sumExact, he]
  push_cast
  rw [add_mul, signedMag_mul_zpow, signedMag_mul_zpow, rat_rescale n1 m1 (min_le_left ..), rat_rescale n2 m2 (min_le_right ..)]

/-- Two finite numbers compare as the sign of their difference. -/
theorem sub_eq_sumExact (n1 : Bool) (m1 : Nat) (e1 : Int) (n2 : Bool) (m2 : Nat) (e2 : Int) :
    rat n1 m1 e1 - rat n2 m2 e2 = (sumExact n1 m1 e1 (!n2) m2 e2).1 * 2 ^ (sumExact n1 m1 e1 (!n2) m2 e2).2 := by
  rw [sumExact_eq, rat_not, sub_eq_add_neg]

theorem cmp_num_neg {n1 n2 : Bool} {m1 m2 : Nat} {e1 e2 : Int} :
    (FVal.num n1 m1 e1).cmp (.num n2 m2 e2) < 0 ↔ rat n1 m1 e1 < rat n2 m2 e2 := by
  have hpos : (0 : ℚ) < 2 ^ (sumExact n1 m1 e1 (!n2) m2 e2).2 := by positivity
  rw [FVal.cmp, Int.sign_neg_iff, ← sub_neg (a := rat n1 m1 e1), sub_eq_sumExact, ← Int.cast_lt_zero (R := ℚ)]
  exact ⟨fun h => mul_neg_of_neg_of_pos h hpos, fun h => neg_of_mul_neg_left h hpos.le⟩

theorem cmp_num_zero {n1 n2 : Bool} {m1 m2 : Nat} {e1 e2 : Int} :
    (FVal.num n1 m1 e1).cmp (.num n2 m2 e2) = 0 ↔ rat n1 m1 e1 = rat n2 m2 e2 := by
  rw [FVal.cmp, Int.sign_eq_zero_iff_zero, ← sub_eq_zero (a := rat n1 m1 e1), sub_eq_sumExact, mul_eq_zero,
    or_iff_left (by positivity), Int.cast_eq_zero]

section
variable {f : FpFmt} {x y : Word} (hx : ¬ IsNan f x) (hy : ¬ IsNan f y)
include hx hy

/-- The model's comparison is below 0 exactly for a number below another. -/
theorem cmp_neg_iff : (fval f x).cmp (fval f y) < 0 ↔ Less f x y := by
  simp only [Less, IsNan, IsInf] at *
  cases hvx : fval f x with
  | nan q => exact absurd ⟨q, hvx⟩ hx
  | inf a =>
    cases hvy : fval f y with
    | nan q => exact absurd ⟨q, hvy⟩ hy
    | inf b => cases a <;> cases b <;> simp [FVal.cmp, IsNum, hvx, hvy]
    | num k m' e' => cases a <;> simp [FVal.cmp, IsNum, hvx, hvy]
  | num n m e =>
    cases hvy : fval f y with
    | nan q => exact absurd ⟨q, hvy⟩ hy
    | inf b => cases b <;> simp [FVal.cmp, IsNum, hvx, hvy]
    | num k m' e' =>
      rw [cmp_num_neg]
      simp [isNum_iff hvx, isNum_iff hvy]

/-- The model's comparison is 0 exactly for equal numbers. -/
theorem cmp_eq_zero_iff : (fval f x).cmp (fval f y) = 0 ↔ Same f x y := by
  simp only [Same, IsInf]
  cases hvx : fval f x with
  | nan q => exact absurd ⟨q, hvx⟩ hx
  | inf a =>
    cases hvy : fval f y with
    | nan q => exact absurd ⟨q, hvy⟩ hy
    | inf b => cases a <;> cases b <;> simp [FVal.cmp, IsNum, hvx, hvy]
    | num k m' e' => cases a <;> simp [FVal.cmp, IsNum, hvx, hvy]
  | num n m e =>
    cases hvy : fval f y with
    | nan q => exact absurd ⟨q, hvy⟩ hy
    | inf b => cases b <;> simp [FVal.cmp, IsNum, hvx, hvy]
    | num k m' e' =>
      rw [cmp_num_zero]
      simp [isNum_iff hvx, isNum_iff hvy, eq_comm]

end

/-! ### NaNs, order and signs of operands -/

section
variable {f : FpFmt} {x y : Word}

theorem not_isNan_of_isInf {n : Bool} (h : IsInf f x n) : ¬ IsNan f x := by
  rintro ⟨q, hq⟩
  rw [IsInf, hq] at h
  cases h

theorem not_isNan_of_isNum {n : Bool} {q : ℚ} (h : IsNum f x n q) : ¬ IsNan f x := by
  obtain ⟨m, e, h, -⟩ := h
  rintro ⟨q, hq⟩
  rw [hq] at h
  cases h

theorem not_isNan_of_less (h : Less f x y) : ¬ IsNan f x ∧ ¬ IsNan f y := by
  obtain ⟨hx, hy, -⟩ | ⟨hy, hx, -⟩ | ⟨n, k, A, B, hx, hy, -⟩ := h
  · exact ⟨not_isNan_of_isInf hx, hy⟩
  · exact ⟨hx, not_isNan_of_isInf hy⟩
  · exact ⟨not_isNan_of_isNum hx, not_isNan_of_isNum hy⟩

theorem not_isNan_of_same (h : Same f x y) : ¬ IsNan f x ∧ ¬ IsNan f y := by
  obtain ⟨n, hx, hy⟩ | ⟨n, k, A, hx, hy⟩ := h
  · exact ⟨not_isNan_of_isInf hx, not_isNan_of_isInf hy⟩
  · exact ⟨not_isNan_of_isNum hx, not_isNan_of_isNum hy⟩

theorem not_signalling (h : ¬ IsNan f x) : (fval f x).signalling = false := by
  cases hv : fval f x with
  | nan q => exact absurd ⟨q, hv⟩ h
  | inf n => rfl
  | num n m e => rfl

theorem cmp_asymm : (u v : FVal) → u.cmp v < 0 → ¬ v.cmp u < 0
  | .num .., .num .. => by
    rw [cmp_num_neg, cmp_num_neg]
    exact lt_asymm
  | .inf a, .inf b => by cases a <;> cases b <;> simp [FVal.cmp]
  | .inf a, .num .. | .num .., .inf a | .inf a, .nan _ | .nan _, .inf a => by cases a <;> simp [FVal.cmp]
  | .nan _, .nan _ | .nan _, .num .. | .num .., .nan _ => by simp [FVal.cmp]

theorem not_less_of_less (h : Less f x y) : ¬ Less f y x := by
  obtain ⟨hx, hy⟩ := not_isNan_of_less h
  rw [← cmp_neg_iff hy hx]
  exact cmp_asymm _ _ ((cmp_neg_iff hx hy).2 h)

theorem not_same_of_less (h : Less f x y) : ¬ Same f x y := by
  obtain ⟨hx, hy⟩ := not_isNan_of_less h
  rw [← cmp_eq_zero_iff hx hy]
  exact ((cmp_neg_iff hx hy).2 h).ne

theorem same_symm (h : Same f x y) : Same f y x :=
  h.imp (fun ⟨n, hx, hy⟩ => ⟨n, hy, hx⟩) fun ⟨n, k, A, hx, hy⟩ => ⟨k, n, A, hy, hx⟩

/-- Equal numbers of the same sign are the same value: only −0 and +0 are equal and differ. -/
theorem fval_eq_of_same (h : Same f x y)
    (hs : x.getLsbD ((specOf f).width - 1) = y.getLsbD ((specOf f).width - 1)) : fval f x = fval f y := by
  obtain ⟨hx, hy⟩ := not_isNan_of_same h
  rw [← sign_fval hx, ← sign_fval hy] at hs
  obtain ⟨n, hx, hy⟩ | ⟨n, k, A, ⟨m, e, hx, rfl⟩, m', e', hy, hA⟩ := h
  · exact hx.trans hy.symm
  · rw [hx, hy] at hs ⊢
    obtain rfl : n = k := hs
    have hmag : (m : ℚ) * 2 ^ e = m' * 2 ^ e' := by
      cases n <;> simpa [rat] using hA
    obtain ⟨rfl, rfl⟩ := canonical_unique (sound_specOf f) (canonical_of_decode (sound_specOf f) hx).1
      (canonical_of_decode (sound_specOf f) hy).1 hmag
    rfl

/-- The bits that `FMIN` and `FMAX` pick are those of the operand. -/
theorem roundVal_fval (h : ¬ IsNan f x) : ((specOf f).roundVal .rne (fval f x)).bits = x.toNat % 2 ^ (specOf f).width := by
  rw [isNan_iff, Bool.not_eq_true] at h
  rw [fval, roundVal_decode (sound_specOf f) .rne h]

theorem low_eq_of_same (h : Same f x y)
    (hs : x.getLsbD ((specOf f).width - 1) = y.getLsbD ((specOf f).width - 1)) :
    x.toNat % 2 ^ (specOf f).width = y.toNat % 2 ^ (specOf f).width := by
  obtain ⟨hx, hy⟩ := not_isNan_of_same h
  rw [← roundVal_fval hx, ← roundVal_fval hy, fval_eq_of_same h hs]

/-! ### `FMIN` and `FMAX` (02 R50) -/

/-- The order of `FMIN` and `FMAX`, in which −0 is below +0. -/
def Below (f : FpFmt) (x y : Word) : Prop :=
  Less f x y ∨ (Same f x y ∧ x.getLsbD ((specOf f).width - 1) = true ∧ ¬ y.getLsbD ((specOf f).width - 1) = true)

theorem not_isNan_of_below (h : Below f x y) : ¬ IsNan f x ∧ ¬ IsNan f y :=
  h.elim not_isNan_of_less fun h => not_isNan_of_same h.1

/-- Two numbers: the lower one is picked for a minimum and the other for a maximum. -/
theorem minmax_numbers (hx : ¬ IsNan f x) (hy : ¬ IsNan f y) [Decidable (Below f x y)] (mx : Bool) :
    (specOf f).minmax mx (fval f x) (fval f y) =
      ⟨(if decide (Below f x y) = mx then y else x).toNat % 2 ^ (specOf f).width, noFlag⟩ := by
  have hless : (decide ((fval f x).cmp (fval f y) < 0) ||
      (decide ((fval f x).cmp (fval f y) = 0) && (fval f x).sign && !(fval f y).sign)) = decide (Below f x y) := by
    rw [Bool.eq_iff_iff, decide_eq_true_iff]
    simp [Below, cmp_neg_iff hx hy, cmp_eq_zero_iff hx hy, sign_fval hx, sign_fval hy, and_assoc]
  have hnx := Bool.not_eq_true _ ▸ isNan_iff.not.1 hx
  have hny := Bool.not_eq_true _ ▸ isNan_iff.not.1 hy
  simp only [FloatSpec.minmax, hnx, hny, hless, nanFlags, List.any_cons, List.any_nil, not_signalling hx, not_signalling hy,
    roundVal_fval hx, roundVal_fval hy, Bool.false_and, Bool.false_eq_true, if_false]
  split <;> rfl

theorem minmax_nan_left (hx : IsNan f x) (hy : ¬ IsNan f y) (mx : Bool) :
    (specOf f).minmax mx (fval f x) (fval f y) = ⟨y.toNat % 2 ^ (specOf f).width, { nv := (fval f x).signalling }⟩ := by
  simp [FloatSpec.minmax, isNan_iff.1 hx, Bool.eq_false_iff.2 (isNan_iff.not.1 hy), nanFlags, not_signalling hy, roundVal_fval hy]

theorem minmax_nan_right (hx : ¬ IsNan f x) (hy : IsNan f y) (mx : Bool) :
    (specOf f).minmax mx (fval f x) (fval f y) = ⟨x.toNat % 2 ^ (specOf f).width, { nv := (fval f y).signalling }⟩ := by
  simp [FloatSpec.minmax, isNan_iff.1 hy, Bool.eq_false_iff.2 (isNan_iff.not.1 hx), nanFlags, not_signalling hx, roundVal_fval hx]

theorem minmax_nan_both (hx : IsNan f x) (hy : IsNan f y) (mx : Bool) :
    (specOf f).minmax mx (fval f x) (fval f y) =
      ⟨canonicalNan f, { nv := (fval f x).signalling || (fval f y).signalling }⟩ := by
  simp [FloatSpec.minmax, isNan_iff.1 hx, isNan_iff.1 hy, nanFlags, canonicalNan_eq]

/-- A signalling operand among two. -/
theorem isSnan_or_iff : IsSnan f x ∨ IsSnan f y ↔ ((fval f x).signalling || (fval f y).signalling) = true := by
  rw [isSnan_iff, isSnan_iff, Bool.or_eq_true]

/-! ### The comparisons (02 R51) -/

theorem fcompare_nan (h : IsNan f x ∨ IsNan f y) (quiet : Bool) (test : Int → Bool) :
    fcompare quiet test (fval f x) (fval f y) =
      ⟨0, if quiet then { nv := (fval f x).signalling || (fval f y).signalling } else onlyNv⟩ := by
  rw [isNan_iff, isNan_iff, ← Bool.or_eq_true] at h
  rw [fcompare, if_pos h]
  simp [nanFlags, FFlags.invalid, onlyNv]

theorem fcompare_numbers (hx : ¬ IsNan f x) (hy : ¬ IsNan f y) (quiet : Bool) (test : Int → Bool) :
    fcompare quiet test (fval f x) (fval f y) = ⟨if test ((fval f x).cmp (fval f y)) then 1 else 0, noFlag⟩ := by
  rw [fcompare, Bool.eq_false_iff.2 (isNan_iff.not.1 hx), Bool.eq_false_iff.2 (isNan_iff.not.1 hy)]
  rfl

end

section
variable {f : FpFmt} (d a b : Reg) (s : State)

/-- `FMIN` gives the lower number and `FMAX` the other one. -/
theorem fmin_fmax_of_below (h : Below f (s.g a) (s.g b)) :
    WritesBits (exec (.fmin d a b f) s) s d ((s.g a).toNat % 2 ^ (specOf f).width) noFlag ∧
    WritesBits (exec (.fmax d a b f) s) s d ((s.g b).toNat % 2 ^ (specOf f).width) noFlag := by
  classical
  obtain ⟨ha, hb⟩ := not_isNan_of_below h
  exact ⟨writesBits_resultFp rfl (by rw [minmax_numbers ha hb, decide_eq_true h]; rfl),
    writesBits_resultFp rfl (by rw [minmax_numbers ha hb, decide_eq_true h]; rfl)⟩

theorem fmin_fmax_of_not_below (ha : ¬ IsNan f (s.g a)) (hb : ¬ IsNan f (s.g b)) (h : ¬ Below f (s.g a) (s.g b)) :
    WritesBits (exec (.fmin d a b f) s) s d ((s.g b).toNat % 2 ^ (specOf f).width) noFlag ∧
    WritesBits (exec (.fmax d a b f) s) s d ((s.g a).toNat % 2 ^ (specOf f).width) noFlag := by
  classical
  exact ⟨writesBits_resultFp rfl (by rw [minmax_numbers ha hb, decide_eq_false h]; rfl),
    writesBits_resultFp rfl (by rw [minmax_numbers ha hb, decide_eq_false h]; rfl)⟩

/-- A comparison of numbers gives 1 when its test holds and 0 otherwise. -/
theorem compare_numbers {o : Out} {quiet : Bool} {test : Int → Bool} {p : Prop} (ha : ¬ IsNan f (s.g a)) (hb : ¬ IsNan f (s.g b))
    (ho : o = s.resultFp d (fcompare quiet test (fval f (s.g a)) (fval f (s.g b))))
    (hp : test ((fval f (s.g a)).cmp (fval f (s.g b))) = true ↔ p) :
    (p → WritesBits o s d 1 noFlag) ∧ (¬ p → WritesBits o s d 0 noFlag) :=
  ⟨fun h => writesBits_resultFp ho (by rw [fcompare_numbers ha hb, if_pos (hp.2 h)]),
    fun h => writesBits_resultFp ho (by rw [fcompare_numbers ha hb, if_neg (hp.not.2 h)])⟩

end

theorem minimumMaximumAndComparison : Sys2Proof.Claims.MinimumMaximumAndComparison := by
  intro d a b f s A B low neg gives either
  refine ⟨fun h => fmin_fmax_of_below d a b s h, fun h => ?_, fun h hs => ?_, fun ha hb => ?_, fun ha hb => ?_, fun ha hb => ?_,
    fun h => ?_, fun ha hb => ?_⟩
  · have hnan : ¬ IsNan f (s.g b) ∧ ¬ IsNan f (s.g a) := h.elim not_isNan_of_less fun h => (not_isNan_of_same h.1).symm
    refine fmin_fmax_of_not_below d a b s hnan.2 hnan.1 ?_
    rintro (hless | ⟨hsame, hneg, -⟩)
    · exact h.elim (not_less_of_less hless) fun h => not_same_of_less hless h.1
    · exact h.elim (fun hless => not_same_of_less hless (same_symm hsame)) fun h => h.2.1 hneg
  · obtain ⟨ha, hb⟩ := not_isNan_of_same h
    have hlow : low B = low A := (low_eq_of_same h (Bool.eq_iff_iff.2 hs)).symm
    have hpick := fmin_fmax_of_not_below d a b s ha hb fun hbelow =>
      hbelow.elim (fun hless => not_same_of_less hless h) fun hz => hz.2.2 (hs.1 hz.2.1)
    exact ⟨hlow ▸ hpick.1, hpick.2⟩
  · exact ⟨writesBits_nv isSnan_iff (writesBits_resultFp rfl (minmax_nan_left ha hb false)),
      writesBits_nv isSnan_iff (writesBits_resultFp rfl (minmax_nan_left ha hb true))⟩
  · exact ⟨writesBits_nv isSnan_iff (writesBits_resultFp rfl (minmax_nan_right ha hb false)),
      writesBits_nv isSnan_iff (writesBits_resultFp rfl (minmax_nan_right ha hb true))⟩
  · exact ⟨writesBits_nv isSnan_or_iff (writesBits_resultFp rfl (minmax_nan_both ha hb false)),
      writesBits_nv isSnan_or_iff (writesBits_resultFp rfl (minmax_nan_both ha hb true))⟩
  · exact ⟨writesBits_nv isSnan_or_iff (writesBits_resultFp rfl (fcompare_nan h true _)),
      writesBits_resultFp rfl (fcompare_nan h false _), writesBits_resultFp rfl (fcompare_nan h false _)⟩
  · obtain ⟨eqTrue, eqFalse⟩ := compare_numbers (o := exec (.feq d a b f) s) d a b s ha hb rfl
      (decide_eq_true_iff.trans (cmp_eq_zero_iff ha hb))
    obtain ⟨ltTrue, ltFalse⟩ := compare_numbers (o := exec (.flt d a b f) s) d a b s ha hb rfl
      (decide_eq_true_iff.trans (cmp_neg_iff ha hb))
    obtain ⟨leTrue, leFalse⟩ := compare_numbers (o := exec (.fle d a b f) s) d a b s ha hb rfl
      (decide_eq_true_iff.trans (le_iff_lt_or_eq.trans (or_congr (cmp_neg_iff ha hb) (cmp_eq_zero_iff ha hb))))
    exact ⟨eqTrue, eqFalse, ltTrue, ltFalse, leTrue, leFalse⟩

/-! ### The sign operations and `FCLASS` (06 R141, R142) -/

section
variable {f : FpFmt} {x : Word}

theorem withSign_number (h : ¬ IsNan f x) (neg : Bool) :
    (specOf f).withSign x.toNat neg = ⟨withSign f neg (x.toNat % signBit f), noFlag⟩ := by
  rw [isNan_iff, fval] at h
  rw [FloatSpec.withSign, if_neg h, withSign_eq, signBit_eq]
  rfl

theorem withSign_nan (h : IsNan f x) (neg : Bool) : (specOf f).withSign x.toNat neg = ⟨canonicalNan f, noFlag⟩ := by
  rw [isNan_iff, fval] at h
  rw [FloatSpec.withSign, if_pos h, canonicalNan_eq]
  rfl

end

/-- A magnitude of a format is below the smallest normal number exactly when its significand is. -/
theorem lt_two_pow_emin_iff {f : FloatSpec} {m : Nat} {e : Int} (h : Canonical f m e) (hf : Sound f) :
    (m : ℚ) * 2 ^ e < 2 ^ f.emin ↔ m < 2 ^ (f.prec - 1) := by
  have hmin : (2 : ℚ) ^ f.emin = (2 ^ (f.prec - 1) : Nat) * 2 ^ (f.emin - (f.prec - 1)) := by
    have := hf.prec
    push_cast
    rw [pow_mul_zpow]
    congr 1
    omega
  rw [hmin]
  constructor
  · intro hlt
    by_contra hm
    refine absurd hlt (not_lt.2 ?_)
    gcongr
    · exact not_lt.1 hm
    · norm_num
    · exact h.low
  · intro hm
    rw [h.normal hm]
    gcongr

section
variable {f : FloatSpec} {m : Nat}

theorem fclass_zero (n : Bool) (e : Int) : f.fclass (.num n 0 e) = if n then 2 ^ 3 else 2 ^ 4 := rfl

theorem fclass_subnormal (n : Bool) (e : Int) (h0 : m ≠ 0) (h : m < 2 ^ (f.prec - 1)) :
    f.fclass (.num n m e) = if n then 2 ^ 2 else 2 ^ 5 := by
  simp only [FloatSpec.fclass, if_neg h0, if_pos h]

theorem fclass_normal (n : Bool) (e : Int) (h : ¬ m < 2 ^ (f.prec - 1)) :
    f.fclass (.num n m e) = if n then 2 ^ 1 else 2 ^ 6 := by
  have h0 : m ≠ 0 := fun h0 => h (h0 ▸ by positivity)
  simp only [FloatSpec.fclass, if_neg h0, if_neg h]

end

theorem signOperationsAndClass : Sys2Proof.Claims.SignOperationsAndClass := by
  intro d a b f s A low top gives cls tiny
  have hcls (k : Nat) (h : (specOf f).fclass (fval f A) = 2 ^ k) : cls k := by
    show WritesBits (s.result d (word ((specOf f).fclass (fval f A)))) s d (2 ^ k) noFlag
    exact h ▸ writesBits_result s d _
  refine ⟨fun h => ⟨?_, ?_, ?_⟩, fun h => ⟨?_, ?_, ?_⟩, fun h hq => ?_, fun h => ?_, fun h => ?_, fun h => ?_, fun neg q h => ?_⟩
  · exact writesBits_resultFp rfl (fsign_eq f A ▸ withSign_number h _)
  · exact writesBits_resultFp rfl ((withSign_number h false).trans (by simp [withSign, low]))
  · exact writesBits_resultFp rfl (fsign_eq f (s.g b) ▸ withSign_number h _)
  · exact writesBits_resultFp rfl (withSign_nan h _)
  · exact writesBits_resultFp rfl (withSign_nan h _)
  · exact writesBits_resultFp rfl (withSign_nan h _)
  · obtain ⟨sig, hv⟩ := h
    cases sig with
    | false => exact hcls 9 (by rw [hv]; rfl)
    | true => exact absurd hv hq
  · exact hcls 8 (by rw [h]; rfl)
  · exact hcls 7 (by rw [h]; rfl)
  · exact hcls 0 (by rw [h]; rfl)
  · obtain ⟨m, e, hv, rfl⟩ := h
    have hsmall := lt_two_pow_emin_iff (canonical_of_decode (sound_specOf f) hv).1 (sound_specOf f)
    have hzero : (m : ℚ) * 2 ^ e = 0 ↔ m = 0 := by
      rw [mul_eq_zero, or_iff_left (by positivity), Nat.cast_eq_zero]
    have hpos : (0 : ℚ) ≤ m * 2 ^ e := by positivity
    have hplus : rat false m e = m * 2 ^ e := by simp [rat]
    have hminus : rat true m e = -(m * 2 ^ e) := by simp [rat]
    rw [hv] at hcls
    refine ⟨?_, ?_, ?_, ?_, ?_, ?_⟩ <;> rintro rfl <;> simp only [hplus, hminus, neg_eq_zero, Left.neg_neg_iff]
    · intro hq
      exact hcls 6 (fclass_normal false e (hsmall.not.1 (not_lt.2 hq)))
    · intro hq hlt
      exact hcls 5 (fclass_subnormal false e (hzero.not.1 hq.ne') (hsmall.1 hlt))
    · intro hq
      exact hcls 4 (by rw [hzero.1 hq]; rfl)
    · intro hq
      exact hcls 3 (by rw [hzero.1 hq]; rfl)
    · intro hq hlt
      exact hcls 2 (fclass_subnormal true e (hzero.not.1 hq.ne') (hsmall.1 (neg_lt_neg_iff.1 hlt)))
    · intro hq
      exact hcls 1 (fclass_normal true e (hsmall.not.1 (not_lt.2 (neg_le_neg_iff.1 hq))))

/-- Settles O6: the comparisons through the order of the exact values, the sign operations and `FCLASS` through the fields. -/
theorem comparisonsAndSignOperations : Obligations.ComparisonsAndSignOperations :=
  ⟨minimumMaximumAndComparison, signOperationsAndClass⟩

end Sys2Proof.Proofs

/-! The immediate majors, `LI`, `LIX` and the moves between the register files (05 R118 to R120). -/

namespace Sys2Proof.Proofs

open Sys2Proof.Machine Sys2Proof.Claims

/-! ### The frame of a write of an `x` register -/

/-- An instruction that ends by writing x[k] and going on at the next one writes nothing else (05 R119, R120). -/
theorem writesX_setX_advance (s : State) (k : XReg) (v : Word) (len : Nat) :
    WritesX (.next ((s.setX k v).advance len)) s k v len := by
  refine ⟨(s.setX k v).advance len, rfl, fun r => ?_, fun n => ?_, ?_, regFrame_advance (onlyThread_setX s k v) ?_ ?_ ?_⟩
  · simp
  · simp
  · simp
  · simp [SameTrapRegs]
  · simp [GoesOn]
  · simp

/-! ### Immediates (03 R85) -/

theorem toInt_simm14 (imm : BitVec 14) : (simm14 imm).toInt = imm.toInt :=
  BitVec.toInt_signExtend_of_le (by norm_num)

/-- The sign-extended immediate as an unsigned number is its value modulo 2^64. -/
theorem toNat_simm14 (imm : BitVec 14) : ((simm14 imm).toNat : Int) = imm.toInt % 2 ^ 64 := by
  have hmod : (2 : Int) ^ 64 = (2 ^ 64 : Nat) := by norm_num
  rw [← toInt_simm14, BitVec.toInt_eq_toNat_bmod, hmod, Int.bmod_emod, Int.emod_eq_of_lt (by omega) (by omega)]

theorem simm14_eq_sextW (imm : BitVec 14) : simm14 imm = sextW (imm.setWidth 64) 14 := by
  rw [sextW_eq_signExtend _ (by norm_num), BitVec.setWidth_setWidth_of_le _ (by norm_num), BitVec.setWidth_eq, simm14]

/-- A bit of the sign-extended immediate above its sign bit is the sign bit. -/
theorem getLsbD_simm14 (imm : BitVec 14) {i : Nat} (hi : i < 64) : (simm14 imm).getLsbD i = imm.getLsbD (min i 13) := by
  rw [simm14_eq_sextW, getLsbD_sextW _ (by norm_num) hi, BitVec.getLsbD_setWidth, decide_eq_true (by omega), Bool.true_and]

/-- `LIX`: the shifted word and the 21 bits below it do not overlap, so the OR is a sum (05 R119). -/
theorem toNat_shiftLeft_or_setWidth (x : Word) (imm : BitVec 21) :
    ((x <<< 21) ||| imm.setWidth 64).toNat = (x.toNat * 2 ^ 21 + imm.toNat) % 2 ^ 64 := by
  have himm : (imm.setWidth 64).toNat = imm.toNat := BitVec.toNat_setWidth_of_le (by norm_num)
  have hlow : imm.toNat < 2 ^ 21 := imm.isLt
  have hshift : (x <<< 21).toNat = 2 ^ 21 * (x.toNat % 2 ^ 43) := by
    rw [BitVec.toNat_shiftLeft, Nat.shiftLeft_eq]
    omega
  rw [BitVec.toNat_or, himm, hshift, ← Nat.two_pow_add_eq_or_of_lt hlow]
  omega

/-! ### Every instruction of the majors -/

/-- An instruction that ends with `State.result` gives its row when the value written satisfies it. -/
theorem gives_of_result {i : Instr} {d : Reg} {s : State} {v : Word} {p : Word → Prop} (hexec : exec i s = s.result d v)
    (hrow : p v) : ∃ v, p v ∧ Writes (exec i s) s d v 4 :=
  ⟨v, hrow, hexec ▸ writes_result s d v 4⟩

theorem immediatesGiveTheirRow : ImmediatesGiveTheirRow := by
  intro d a imm sh imm19 s A gives
  have hadd : (A + simm14 imm).toInt = (A.toInt + imm.toInt).bmod (2 ^ 64) := by rw [BitVec.toInt_add, toInt_simm14]
  have hzero (i : Nat) (hi : i < 64) : (imm.setWidth 64).getLsbD i = imm.getLsbD i := by
    rw [BitVec.getLsbD_setWidth, decide_eq_true hi, Bool.true_and]
  have hless : A.toNat < (simm14 imm).toNat ↔ (A.toNat : Int) < imm.toInt % 2 ^ 64 := by rw [← toNat_simm14, Nat.cast_lt]
  refine ⟨gives_of_result rfl hadd, gives_of_result rfl (toInt_sx32_of_bmod hadd), gives_of_result rfl fun i hi => ?andi,
    gives_of_result rfl fun i hi => ?ori, gives_of_result rfl fun i hi => ?xori, gives_of_result rfl ?shli,
    gives_of_result rfl ?shri, gives_of_result rfl ?srai, gives_of_result rfl ?slti, gives_of_result rfl ?sltni,
    gives_of_result rfl ?li⟩
  case andi => rw [BitVec.getLsbD_and, getLsbD_simm14 imm hi]
  case ori => rw [BitVec.getLsbD_or, hzero i hi]
  case xori => rw [BitVec.getLsbD_xor, hzero i hi]
  case shli => rw [BitVec.toNat_shiftLeft, Nat.shiftLeft_eq]
  case shri => rw [BitVec.toNat_ushiftRight, Nat.shiftRight_eq_div_pow]
  case srai => rw [BitVec.toInt_sshiftRight, Int.shiftRight_eq_div_pow, Nat.cast_pow, Nat.cast_ofNat]
  case slti => rw [wordB_decide, toInt_simm14]
  case sltni => exact (wordB_decide _).trans (if_congr hless rfl rfl)
  case li => exact BitVec.toInt_signExtend_of_le (by norm_num)

theorem extensionRegisterMoves : ExtensionRegisterMoves := by
  intro k d a imm s
  refine ⟨⟨_, toNat_shiftLeft_or_setWidth (s.x k) imm, ?lix⟩, ?xmov, ?movgx, ?xclr⟩
  case lix => exact writesX_setX_advance s k _ 4
  case xmov => exact writesX_setX_advance s k (s.g a) 4
  case movgx => exact writes_result s d (s.x k) 4
  case xclr => exact writesX_setX_advance s k 0 4

/-- Settles O2: one row per immediate instruction, with the frames of `State.result` and of a write of an `x` register. -/
theorem immediatesAndExtensionRegisters : Obligations.ImmediatesAndExtensionRegisters :=
  ⟨immediatesGiveTheirRow, extensionRegisterMoves⟩

end Sys2Proof.Proofs

/-! Conditional branches, jumps and links (05 R132 to R134). -/

namespace Sys2Proof.Proofs

open Sys2Proof.Machine Sys2Proof.Claims

/-! ### Targets -/

/-- A target is PC + sext(off) × 2 modulo 2^64 (05 R132, R133). -/
theorem toInt_target {w : Nat} (hw : w ≤ 64) (pc : Word) (off : BitVec w) :
    (target pc off).toInt = (pc.toInt + off.toInt * 2).bmod (2 ^ 64) := by
  have htwo : (2 : Word).toInt = 2 := by decide
  rw [target, BitVec.toInt_add, BitVec.toInt_mul, BitVec.toInt_signExtend_of_le hw, htwo, Int.add_bmod_bmod]

theorem eq_target {w : Nat} (hw : w ≤ 64) {pc dest : Word} {off : BitVec w}
    (h : dest.toInt = (pc.toInt + off.toInt * 2).bmod (2 ^ 64)) : dest = target pc off :=
  BitVec.eq_of_toInt_eq (h.trans (toInt_target hw pc off).symm)

/-! ### The frame of a jump -/

theorem onlyThread_jump (s : State) (pc : Word) : OnlyThread s (s.jump pc) := rfl

/-- The frame of an instruction that writes registers of the running thread and then goes on at a target. -/
theorem regFrame_jump {s t : State} {pc : Word} (device : OnlyThread s t) (trap : SameTrapRegs s.cur.regs t.cur.regs)
    (thread : GoesOn s (t.jump pc)) : RegFrame s (t.jump pc) pc :=
  have device' := onlyThread_trans device (onlyThread_jump t pc)
  ⟨t.jump_pc pc, trap, thread, device', sameBytes_of_onlyThread device'⟩

/-- A jump writes the PC and no other register (05 R132). -/
theorem onlyPc_jump (s : State) (pc : Word) : OnlyPc (.next (s.jump pc)) s pc :=
  ⟨s.jump pc, rfl, s.jump_g pc, s.jump_x pc, rfl, regFrame_jump rfl (by simp [SameTrapRegs]) (by simp [GoesOn])⟩

/-- An instruction that only goes on at the next one is a jump there. -/
theorem onlyPc_advance (s : State) (len : Nat) : OnlyPc (.next (s.advance len)) s (s.pc + word len) :=
  onlyPc_jump s (s.pc + word len)

/-- A linking jump writes `lk` with the link, and the PC (05 R133, R134). -/
theorem link_jump {o : Out} {s : State} {link pc : Word} (ho : o = .next ((s.setG lk link).jump pc)) :
    ∃ t, o = .next t ∧ GivesG s t 31 link ∧ (∀ k, t.x k = s.x k) ∧ t.cur.regs.status = s.cur.regs.status ∧ RegFrame s t pc := by
  refine ⟨_, ho, fun r => ?_, fun k => ?_, ?_, regFrame_jump (onlyThread_setG s lk link) ?_ ?_⟩
  · simp [lk]
  · simp
  · simp
  · simp [SameTrapRegs]
  · simp [GoesOn]

/-! ### Conditional branches (05 R132) -/

/-- A branch goes to its target when its condition holds, and to the next instruction otherwise. -/
theorem branch_goes {i : Instr} {s : State} {w len : Nat} {off : BitVec w} {c : Prop} [Decidable c] (hw : w ≤ 64)
    (hexec : exec i s = s.branch (decide c) off len) :
    (c → ∀ pc : Word, pc.toInt = (s.pc.toInt + off.toInt * 2).bmod (2 ^ 64) → OnlyPc (exec i s) s pc) ∧
    (¬ c → OnlyPc (exec i s) s (s.pc + word len)) := by
  rw [hexec]
  constructor
  · intro hc pc hpc
    rw [State.branch, decide_eq_true hc, eq_target hw hpc]
    exact onlyPc_jump s (target s.pc off)
  · intro hc
    rw [State.branch, decide_eq_false hc]
    exact onlyPc_advance s len

theorem branchesCompareAndGo : BranchesCompareAndGo := by
  intro a b o s A B goes
  have hw : 14 ≤ 64 := by norm_num
  exact ⟨branch_goes hw rfl, branch_goes hw rfl, branch_goes hw rfl, branch_goes hw rfl, branch_goes hw rfl, branch_goes hw rfl⟩

/-! ### Jumps (05 R133, R134) -/

theorem bit_eq_getLsbD (w : Word) (n : Nat) : bit w n = w.getLsbD n := by
  rw [bit, BitVec.getLsbD, Nat.testBit_eq_decide_div_mod_eq, Nat.shiftRight_eq_div_pow]
  rfl

/-- A jump through a register to an even address does not trap. -/
theorem jumpReg_even (s : State) {pc : Word} (h : pc.getLsbD 0 = false) :
    s.jumpReg pc none = .next (s.jump pc) ∧ ∀ link, s.jumpReg pc (some link) = .next ((s.setG lk link).jump pc) := by
  simp only [State.jumpReg, bit_eq_getLsbD, h, Bool.false_eq_true, if_false, implies_true, and_self]

theorem jumpsAndLinks : JumpsAndLinks := by
  intro a o s pc hpc linked
  obtain rfl := eq_target (by norm_num) hpc
  refine ⟨onlyPc_jump s (target s.pc o), link_jump rfl, fun heven => ?_⟩
  obtain ⟨hjr, hjlr⟩ := jumpReg_even s heven
  have jr : exec (.jr a) s = .next (s.jump (s.g a)) := hjr
  exact ⟨jr ▸ onlyPc_jump s (s.g a), link_jump (hjlr (s.pc + 4))⟩

/-- Settles O10: branches through `State.branch`, jumps through `State.jump`, both with the frame of a jump. -/
theorem branchesAndJumps : Obligations.BranchesAndJumps := ⟨branchesCompareAndGo, jumpsAndLinks⟩

end Sys2Proof.Proofs

/-! The `PK` major: a word of packed lanes, and one lemma for each row of 06 R147 and R148 and for the dot product of R149. -/

namespace Sys2Proof.Proofs

open Sys2Proof.Machine Sys2Proof.Claims

/-! ### Words of lanes -/

theorem upFrom_eq_range' : (lo n : Nat) → upFrom lo n = List.range' lo n
  | _, 0 => rfl
  | lo, n + 1 => congrArg (lo :: ·) (upFrom_eq_range' (lo + 1) n)

theorem foldl_map_upFrom {α : Type} [AddMonoid α] (n : Nat) (f : Nat → α) :
    ((upFrom 0 n).map f).foldl (· + ·) 0 = ((List.range n).map f).sum := by
  rw [upFrom_eq_range', ← List.range_eq_range', ← List.sum_eq_foldl]

theorem lane_eq_laneAt (h : PkShape) (w : Word) (i : Nat) : lane h w i = laneAt h w i := bits_eq w _ _

/-- The lanes of a shape fill the word. -/
theorem two_pow_laneWidth_pow_laneCount (h : PkShape) : (2 ^ laneWidth h) ^ laneCount h = 2 ^ 64 := by
  cases h <;> rfl

theorem one_lt_two_pow_laneWidth (h : PkShape) : 1 < 2 ^ laneWidth h := by cases h <;> decide

theorem two_pow_laneWidth (h : PkShape) : 2 ^ laneWidth h = 2 * 2 ^ (laneWidth h - 1) := by cases h <;> rfl

section

variable {h : PkShape} {k : Nat}

theorem laneAt_lt (w : Word) (i : Nat) : laneAt h w i < 2 ^ laneWidth h := Nat.mod_lt _ (Nat.two_pow_pos _)

/-- The lanes of a word are its digits in base 2^w. -/
theorem ofLanes_eq_ofDigits (f : Nat → Nat) :
    ofLanes h f = word (Nat.ofDigits (2 ^ laneWidth h) ((List.range (laneCount h)).map fun i => f i % 2 ^ laneWidth h)) := by
  rw [ofLanes, foldl_map_upFrom, Nat.ofDigits_eq_sum_mapIdx]
  congr 2
  refine List.ext_getElem (by simp) fun i _ _ => ?_
  simp [← pow_mul, Nat.mul_comm i]

/-- A lane of a packed word is what was put there. -/
theorem laneAt_ofLanes (hk : k < laneCount h) (f : Nat → Nat) : laneAt h (ofLanes h f) k = f k % 2 ^ laneWidth h := by
  have hlt : ∀ l ∈ (List.range (laneCount h)).map fun i => f i % 2 ^ laneWidth h, l < 2 ^ laneWidth h := by
    simpa using fun i _ => Nat.mod_lt (f i) (Nat.two_pow_pos _)
  have hfit := Nat.ofDigits_lt_base_pow_length (one_lt_two_pow_laneWidth h) hlt
  rw [List.length_map, List.length_range, two_pow_laneWidth_pow_laneCount] at hfit
  rw [laneAt, ofLanes_eq_ofDigits, toNat_word hfit, Nat.mul_comm k, pow_mul,
    Nat.ofDigits_div_pow_eq_ofDigits_drop k (Nat.two_pow_pos _) _ hlt, List.drop_eq_getElem_cons (by simpa using hk),
    Nat.ofDigits_cons, Nat.add_mul_mod_self_left, List.getElem_map, List.getElem_range, Nat.mod_mod]

theorem laneAt_lanes2 (hk : k < laneCount h) (f : Nat → Nat → Nat) (A B : Word) :
    laneAt h (lanes2 h f A B) k = f (laneAt h A k) (laneAt h B k) % 2 ^ laneWidth h := by
  rw [lanes2, laneAt_ofLanes hk, lane_eq_laneAt, lane_eq_laneAt]

/-- A lane of `lanes2` whose value fits holds it unreduced. -/
theorem laneAt_lanes2_of_lt (hk : k < laneCount h) {f : Nat → Nat → Nat} {A B : Word} {v : Nat}
    (hv : f (laneAt h A k) (laneAt h B k) = v) (hlt : v < 2 ^ laneWidth h) : laneAt h (lanes2 h f A B) k = v := by
  rw [laneAt_lanes2 hk, hv, Nat.mod_eq_of_lt hlt]

/-! ### Signed lanes -/

theorem signedN_eq_bmod {v w : Nat} (hw : 2 ^ w = 2 * 2 ^ (w - 1)) : signedN v w = (v : Int).bmod (2 ^ w) := by
  have hcast : (2 : Int) ^ w = ((2 ^ w : Nat) : Int) := by push_cast; rfl
  simp only [signedN, Int.bmod, hcast]
  split <;> split <;> omega

theorem signedN_lane (w : Word) (i : Nat) : signedN (lane h w i) (laneWidth h) = laneInt h w i := by
  rw [signedN_eq_bmod (two_pow_laneWidth h), lane_eq_laneAt, laneInt]

/-- The range of a signed lane. -/
theorem laneInt_bounds (w : Word) (i : Nat) :
    -2 ^ (laneWidth h - 1) ≤ laneInt h w i ∧ laneInt h w i ≤ 2 ^ (laneWidth h - 1) - 1 := by
  have hlo := Int.le_bmod (x := laneAt h w i) (Nat.two_pow_pos (laneWidth h))
  have hhi := Int.bmod_lt (x := laneAt h w i) (Nat.two_pow_pos (laneWidth h))
  have hhalf : ((2 ^ laneWidth h : Nat) : Int) = 2 * 2 ^ (laneWidth h - 1) := mod_cast two_pow_laneWidth h
  rw [← laneInt, hhalf] at hlo hhi
  omega

theorem laneAt_emod (w : Word) (i : Nat) : (laneAt h w i : Int) % 2 ^ laneWidth h = laneAt h w i :=
  mod_cast Nat.mod_eq_of_lt (laneAt_lt w i)

theorem laneInt_emod (w : Word) (i : Nat) : laneInt h w i % 2 ^ laneWidth h = laneAt h w i := by
  rw [← laneAt_emod]
  exact_mod_cast Int.bmod_emod

theorem laneAt_lanesS (hk : k < laneCount h) (f : Int → Int → Int) (A B : Word) :
    (laneAt h (lanesS h f A B) k : Int) = f (laneInt h A k) (laneInt h B k) % 2 ^ laneWidth h := by
  have hpos : (0 : Int) < 2 ^ laneWidth h := by positivity
  rw [lanesS, laneAt_ofLanes hk, signedN_lane, signedN_lane, unsignedN, Int.natCast_mod,
    Int.toNat_of_nonneg (Int.emod_nonneg _ hpos.ne')]
  push_cast
  exact Int.emod_emod _ _

/-- A lane of `lanesS` whose value is in the signed range holds it unreduced. -/
theorem laneInt_lanesS (hk : k < laneCount h) {f : Int → Int → Int} {A B : Word} {v : Int}
    (hv : f (laneInt h A k) (laneInt h B k) = v)
    (hrange : -2 ^ (laneWidth h - 1) ≤ v ∧ v ≤ 2 ^ (laneWidth h - 1) - 1) :
    laneInt h (lanesS h f A B) k = v := by
  have hhalf : ((2 ^ laneWidth h : Nat) : Int) = 2 * 2 ^ (laneWidth h - 1) := mod_cast two_pow_laneWidth h
  have hcast : (2 : Int) ^ laneWidth h = (2 ^ laneWidth h : Nat) := by push_cast; rfl
  rw [laneInt, laneAt_lanesS hk, hv, hcast, Int.emod_bmod]
  exact Int.bmod_eq_of_le (by omega) (by omega)

/-- A lane of all ones is −1. -/
theorem neg_one_emod_laneWidth : (-1 : Int) % 2 ^ laneWidth h = ((2 ^ laneWidth h - 1 : Nat) : Int) := by
  cases h <;> rfl

/-- Saturation clamps to the signed range of a lane (06 R147). -/
theorem saturate_eq (v : Int) : saturate h v = max (-2 ^ (laneWidth h - 1)) (min (2 ^ (laneWidth h - 1) - 1) v) := by
  have hpos : (0 : Int) < 2 ^ (laneWidth h - 1) := by positivity
  rw [saturate, clampI]
  split
  next => omega
  next => split <;> omega

theorem saturate_bounds (v : Int) :
    -2 ^ (laneWidth h - 1) ≤ saturate h v ∧ saturate h v ≤ 2 ^ (laneWidth h - 1) - 1 := by
  have hpos : (0 : Int) < 2 ^ (laneWidth h - 1) := by positivity
  rw [saturate_eq]
  omega

/-! ### One lemma per row (06 R147, R148) -/

variable {A B : Word} {d a b : Reg} (hk : k < laneCount h)

include hk

theorem laneRow_padd : laneRow h A B (lanes2 h (fun x y => x + y) A B) k (.padd d a b h) :=
  laneAt_lanes2 hk _ A B

theorem laneRow_psub : laneRow h A B (lanesS h (fun x y => x - y) A B) k (.psub d a b h) := by
  have hv := laneAt_lanesS hk (fun x y => x - y) A B
  rw [Int.sub_emod, laneInt_emod, laneInt_emod] at hv
  zify [laneRow]
  rw [hv, Int.emod_add_emod, sub_add_cancel, laneAt_emod]

theorem laneRow_pmul : laneRow h A B (lanes2 h (fun x y => x * y) A B) k (.pmul d a b h) :=
  laneAt_lanes2 hk _ A B

theorem laneRow_padds : laneRow h A B (lanesS h (fun x y => saturate h (x + y)) A B) k (.padds d a b h) :=
  (laneInt_lanesS hk rfl (saturate_bounds _)).trans (saturate_eq _)

theorem laneRow_psubs : laneRow h A B (lanesS h (fun x y => saturate h (x - y)) A B) k (.psubs d a b h) :=
  (laneInt_lanesS hk rfl (saturate_bounds _)).trans (saturate_eq _)

theorem laneRow_pmin : laneRow h A B (lanesS h (fun x y => if x ≤ y then x else y) A B) k (.pmin d a b h) := by
  have hA := laneInt_bounds (h := h) A k
  have hB := laneInt_bounds (h := h) B k
  exact laneInt_lanesS hk (min_def ..).symm (by omega)

theorem laneRow_pmax : laneRow h A B (lanesS h (fun x y => if x ≤ y then y else x) A B) k (.pmax d a b h) := by
  have hA := laneInt_bounds (h := h) A k
  have hB := laneInt_bounds (h := h) B k
  exact laneInt_lanesS hk (max_def ..).symm (by omega)

theorem laneRow_pminn : laneRow h A B (lanes2 h (fun x y => if x ≤ y then x else y) A B) k (.pminn d a b h) := by
  have hA := laneAt_lt (h := h) A k
  have hB := laneAt_lt (h := h) B k
  exact laneAt_lanes2_of_lt hk (min_def ..).symm (by omega)

theorem laneRow_pmaxn : laneRow h A B (lanes2 h (fun x y => if x ≤ y then y else x) A B) k (.pmaxn d a b h) := by
  have hA := laneAt_lt (h := h) A k
  have hB := laneAt_lt (h := h) B k
  exact laneAt_lanes2_of_lt hk (max_def ..).symm (by omega)

theorem laneRow_pceq :
    laneRow h A B (lanes2 h (fun x y => if x = y then 2 ^ laneWidth h - 1 else 0) A B) k (.pceq d a b h) := by
  have hone := one_lt_two_pow_laneWidth h
  exact laneAt_lanes2_of_lt hk rfl (by split <;> omega)

theorem laneRow_pcgt : laneRow h A B (lanesS h (fun x y => if y < x then -1 else 0) A B) k (.pcgt d a b h) := by
  have hv := laneAt_lanesS hk (fun x y => if y < x then -1 else 0) A B
  show laneAt h _ k = if laneInt h B k < laneInt h A k then 2 ^ laneWidth h - 1 else 0
  split at hv
  next hlt =>
    rw [if_pos hlt]
    exact_mod_cast hv.trans neg_one_emod_laneWidth
  next hle =>
    rw [if_neg hle]
    exact_mod_cast hv.trans (Int.zero_emod _)

theorem laneRow_pshuf : laneRow h A B (shuffle h A B) k (.pshuf d a b h) := by
  have hlt := laneAt_lt (h := h) A (laneAt h B k % laneCount h)
  show laneAt h _ k = if _ then 0 else _
  simp only [shuffle, laneAt_ofLanes hk, lane_eq_laneAt]
  split
  next => exact Nat.zero_mod _
  next => exact Nat.mod_eq_of_lt hlt

end

/-! ### Every lane-by-lane instruction -/

/-- An instruction that ends with `State.result` gives its row when every lane of the value written satisfies the row. -/
theorem givesLaneRow {i : Instr} {d a b d' a' b' : Reg} {h h' : PkShape} {s : State} {v : Word} (hexec : exec i s = s.result d v)
    (hrow : ∀ {k}, k < laneCount h → laneRow h (s.g a) (s.g b) v k i) : some (d, a, b, h) = some (d', a', b', h') →
    ∃ v, (∀ k < laneCount h', laneRow h' (s.g a') (s.g b') v k i) ∧ Writes (exec i s) s d' v 4 := by
  rintro ⟨⟩
  exact gives_of_result hexec fun _ => hrow

theorem packedLanesGiveTheirRow : PackedLanesGiveTheirRow := by
  intro i d a b h s
  fun_cases laneFields i
  · exact givesLaneRow rfl laneRow_padd
  · exact givesLaneRow rfl laneRow_psub
  · exact givesLaneRow rfl laneRow_pmul
  · exact givesLaneRow rfl laneRow_padds
  · exact givesLaneRow rfl laneRow_psubs
  · exact givesLaneRow rfl laneRow_pmin
  · exact givesLaneRow rfl laneRow_pmax
  · exact givesLaneRow rfl laneRow_pminn
  · exact givesLaneRow rfl laneRow_pmaxn
  · exact givesLaneRow rfl laneRow_pceq
  · exact givesLaneRow rfl laneRow_pcgt
  · exact givesLaneRow rfl laneRow_pshuf
  · exact nofun

/-! ### The dot product (06 R149) -/

theorem toInt_laneDot (h : PkShape) (D A B : Word) : (laneDot h D A B).toInt =
    (D.toInt + ((List.range (laneCount h)).map fun i => laneInt h A i * laneInt h B i).sum).bmod (2 ^ 64) := by
  simp only [laneDot, wordI, BitVec.toInt_ofInt, foldl_map_upFrom, signedN_lane]

theorem dotProductIsExact : DotProductIsExact := fun _ a b h s =>
  gives_of_result rfl (toInt_laneDot h _ (s.g a) (s.g b))

/-- Settles O8: the lanes of a packed word are its digits in base 2^w, so each lane of the result is read off alone; `PDOT` is one
sum modulo 2^64. -/
theorem packedLanesAndDotProducts : Obligations.PackedLanesAndDotProducts :=
  ⟨packedLanesGiveTheirRow, dotProductIsExact⟩

end Sys2Proof.Proofs

/-! Bit fields of a word, and taking an exception into the handler (10 R255, R256). -/

namespace Sys2Proof.Proofs

open Sys2Proof.Machine Sys2Proof.Claims

/-! ### Bit fields of a word (00 R9) -/

theorem bits_zero (w : Word) (len : Nat) : bits w 0 len = w.toNat % 2 ^ len := by rw [bits_eq, pow_zero, Nat.div_one]

theorem testBit_bits (w : Word) (lo len i : Nat) : (bits w lo len).testBit i = (decide (i < len) && w.getLsbD (lo + i)) := by
  rw [bits, Nat.testBit_mod_two_pow, Nat.testBit_shiftRight, BitVec.testBit_toNat]

theorem getLsbD_setBits (w : Word) (lo len v : Nat) {i : Nat} (hi : i < 64) :
    (setBits w lo len v).getLsbD i = if lo ≤ i ∧ i < lo + len then v.testBit (i - lo) else w.getLsbD i := by
  have hmask : (BitVec.ofNat 64 ((2 ^ len - 1) <<< lo)).getLsbD i = decide (lo ≤ i ∧ i < lo + len) := by
    rw [BitVec.getLsbD_ofNat, decide_eq_true hi, Nat.testBit_shiftLeft, Nat.testBit_two_pow_sub_one, Bool.true_and,
      ← Bool.decide_and]
    exact decide_eq_decide.2 (by omega)
  have hfield : (BitVec.ofNat 64 ((v % 2 ^ len) <<< lo)).getLsbD i =
      (decide (lo ≤ i ∧ i < lo + len) && v.testBit (i - lo)) := by
    rw [BitVec.getLsbD_ofNat, decide_eq_true hi, Nat.testBit_shiftLeft, Nat.testBit_mod_two_pow, Bool.true_and,
      ← Bool.and_assoc, ← Bool.decide_and]
    exact congrArg (· && _) (decide_eq_decide.2 (by omega))
  simp only [setBits, BitVec.getLsbD_or, BitVec.getLsbD_and, BitVec.getLsbD_not, hmask, hfield, hi]
  by_cases h : lo ≤ i ∧ i < lo + len <;> simp [h]

/-- A field of a word after a field apart from it was set. -/
theorem bits_setBits_of_apart (w : Word) {lo len lo' len' : Nat} (v : Nat) (hlo : lo + len ≤ 64)
    (hapart : lo + len ≤ lo' ∨ lo' + len' ≤ lo) : bits (setBits w lo' len' v) lo len = bits w lo len := by
  refine Nat.eq_of_testBit_eq fun i => ?_
  rw [testBit_bits, testBit_bits]
  by_cases hi : i < len
  · rw [getLsbD_setBits w lo' len' v (by omega), if_neg (by omega)]
  · simp [hi]

theorem bits_setBits_same (w : Word) {lo len : Nat} (v : Nat) (hlo : lo + len ≤ 64) :
    bits (setBits w lo len v) lo len = v % 2 ^ len := by
  refine Nat.eq_of_testBit_eq fun i => ?_
  rw [testBit_bits, Nat.testBit_mod_two_pow]
  by_cases hi : i < len
  · rw [getLsbD_setBits w lo len v (by omega), if_pos (by omega), Nat.add_sub_cancel_left]
  · simp [hi]

/-! ### Taking an exception into the handler (10 R255, R256) -/

/-- `STATUS` after trap entry from a status word. -/
def statusAtEntry (st : Word) : Word :=
  let moved := setBits st 13 2 (bits st 11 2)
  setBits (if bits st 11 2 = 0 then setBits moved 11 2 1 else moved) 15 1 1

theorem enterTrap_status (r : Regs) (t : TrapRec) : (r.enterTrap t).status = statusAtEntry r.status := rfl

/-- The mode after trap entry: user mode becomes supervisor mode. -/
theorem mode_statusAtEntry (st : Word) : bits (statusAtEntry st) 11 2 = if bits st 11 2 = 0 then 1 else bits st 11 2 := by
  rw [statusAtEntry, bits_setBits_of_apart _ _ (by norm_num) (by norm_num)]
  split
  next => exact bits_setBits_same _ 1 (by norm_num)
  next => exact bits_setBits_of_apart _ _ (by norm_num) (by norm_num)

theorem getLsbD_statusAtEntry (st : Word) {i : Nat} (hi : i < 64) (hmode : i < 11 ∨ 12 < i) :
    (statusAtEntry st).getLsbD i =
      if i = 15 then true else if i = 13 ∨ i = 14 then st.getLsbD (i - 2) else st.getLsbD i := by
  have moved : (setBits st 13 2 (bits st 11 2)).getLsbD i = if i = 13 ∨ i = 14 then st.getLsbD (i - 2) else st.getLsbD i := by
    rw [getLsbD_setBits _ _ _ _ hi, testBit_bits]
    by_cases h : i = 13 ∨ i = 14
    · rw [if_pos (by omega), if_pos h, decide_eq_true (by omega), Bool.true_and, (by omega : 11 + (i - 13) = i - 2)]
    · rw [if_neg (by omega), if_neg h]
  have withMode : (if bits st 11 2 = 0 then setBits (setBits st 13 2 (bits st 11 2)) 11 2 1
      else setBits st 13 2 (bits st 11 2)).getLsbD i = (setBits st 13 2 (bits st 11 2)).getLsbD i := by
    split
    next => rw [getLsbD_setBits _ _ _ _ hi, if_neg (by omega)]
    next => rfl
  rw [statusAtEntry, getLsbD_setBits _ _ _ _ hi, withMode, moved]
  by_cases h : i = 15
  · simp [h]
  · rw [if_neg (by omega), if_neg h]

theorem onlyThread_enterTrap (s : State) (r : TrapRec) :
    OnlyThread s (((s.mapRegs fun x => x.enterTrap r).setWait .ready).mapCur fun t => { t with mid := false }) := rfl

/-- A trap outside a handler, on a core that has a handler, is the trap entry of R255 and R256. -/
theorem trapEntry_takeTrap {s : State} (r : TrapRec) (h : Enters s) : TrapEntry s (s.takeTrap r) r.kind r.taddr r.tinfo := by
  obtain ⟨hkind, hta⟩ := h
  have hst (i : Nat) (hi : i < 64) (hm : i < 11 ∨ 12 < i) := getLsbD_statusAtEntry s.cur.regs.status hi hm
  rw [State.takeTrap_enters r hkind ((bit_eq_getLsbD _ _).trans hta)]
  exact {
    tpc := rfl, tkind := rfl, taddrIs := rfl, tinfoIs := rfl, tnest := rfl, pcIs := rfl
    pmode := ⟨hst 13 (by norm_num) (by norm_num), hst 14 (by norm_num) (by norm_num)⟩
    mode := mode_statusAtEntry s.cur.regs.status
    ta := hst 15 (by norm_num) (by norm_num)
    status := fun i hi hm => (hst i hi (by omega)).trans (by rw [if_neg (by omega), if_neg (by omega)])
    g := fun _ => rfl, x := fun _ => rfl, others := ⟨rfl, rfl, rfl⟩, thread := rfl
    device := onlyThread_enterTrap s r
    memory := sameBytes_of_onlyThread (onlyThread_enterTrap s r) }

/-- An instruction that takes a trap takes it into the handler. -/
theorem traps_of_takeTrap {o : Out} {s : State} {r : TrapRec} (ho : o = .next (s.takeTrap r)) (h : Enters s) :
    Traps o s r.kind r.taddr r.tinfo := ⟨_, ho, trapEntry_takeTrap r h⟩

end Sys2Proof.Proofs

/-! The residency tables: the cairn entries of a cluster and the directories (07 R179 to R181). -/

namespace Sys2Proof.Proofs

open Sys2Proof.Machine Sys2Proof.Claims

/-! ### The bytes that a change outside the memories leaves alone -/

theorem sameBytes_trans {s t u : State} (h : SameBytes s t) (h' : SameBytes t u) : SameBytes s u :=
  fun l => (h' l).trans (h l)

/-- No byte depends on the names used, the agenda or the dies. -/
theorem sameBytes_units (s : State) (uidNext : Nat) (agenda : List Move) (dies : Tbl Die) :
    SameBytes s { s with uidNext := uidNext, agenda := agenda, dies := dies } := by
  intro l
  cases l with
  | dram p g => rfl
  | scratch c o => rfl
  | phys a => rfl
  | host a => rfl

/-- Of a cluster the bytes depend on its scratchpad alone. -/
theorem sameBytes_mapCluster (s : State) (cl : Nat) {f : Cluster → Cluster}
    (hf : (f (s.cluster cl)).scratch = (s.cluster cl).scratch) : SameBytes s (s.mapCluster cl f) := by
  intro l
  cases l with
  | dram p g => rfl
  | scratch c o =>
    have hscratch : ((s.mapCluster cl f).cluster c).scratch = (s.cluster c).scratch := by
      rw [State.cluster_mapCluster]
      split
      next h => rw [hf, h]
      next => rfl
    exact congrArg (Memory.read · o) hscratch
  | phys a => rfl
  | host a => rfl

/-! ### Tables and lists of numbers -/

theorem mem_of_get? {α : Type} {a : Nat} {v : α} : {t : Tbl α} → Tbl.get? t a = some v → (a, v) ∈ t
  | (k, w) :: t, h => by
    rw [Tbl.get?] at h
    split at h
    next hk => rw [hk, Option.some.inj h]; exact List.mem_cons_self
    next => exact List.mem_cons_of_mem _ (mem_of_get? h)

/-- A record read from a table in which every record was changed. -/
theorem get?_map {α β : Type} (f : α → β) (a : Nat) : (t : Tbl α) →
    Tbl.get? (t.map fun e => (e.1, f e.2)) a = (Tbl.get? t a).map f
  | [] => rfl
  | (k, v) :: t => by
    rw [List.map_cons, Tbl.get?, Tbl.get?, get?_map f a t]
    split <;> rfl

theorem upFrom_zero (n : Nat) : upFrom 0 n = List.range n := by rw [upFrom_eq_range', List.range_eq_range']

/-! ### The index that a new cairn entry takes (07 R179) -/

/-- The earlier-set of two entries, each by its index and the time when it was set. -/
def earlierSet (b : Nat × Nat) (e : Nat × Cairn) : Nat × Nat := if e.2.setAt < b.2 then (e.1, e.2.setAt) else b

/-- The earliest-set entry of a list and a start is one of them, and none of them was set before it. -/
theorem foldl_earlierSet (l : List (Nat × Cairn)) (b : Nat × Nat) :
    (l.foldl earlierSet b = b ∨ ∃ e ∈ l, l.foldl earlierSet b = (e.1, e.2.setAt)) ∧
      (l.foldl earlierSet b).2 ≤ b.2 ∧ ∀ x ∈ l, (l.foldl earlierSet b).2 ≤ x.2.setAt := by
  induction l generalizing b with
  | nil => simp
  | cons e l ih =>
    obtain ⟨hmem, hle, hall⟩ := ih (earlierSet b e)
    have hstep : (earlierSet b e = b ∨ earlierSet b e = (e.1, e.2.setAt)) ∧
        (earlierSet b e).2 ≤ b.2 ∧ (earlierSet b e).2 ≤ e.2.setAt := by
      rw [earlierSet]; split
      next h => exact ⟨.inr rfl, h.le, le_rfl⟩
      next h => exact ⟨.inl rfl, le_rfl, not_lt.1 h⟩
    obtain ⟨hor, hb, he⟩ := hstep
    rw [List.foldl_cons]
    refine ⟨?_, hle.trans hb, List.forall_mem_cons.2 ⟨hle.trans he, hall⟩⟩
    rcases hmem with h | ⟨x, hx, h⟩
    · exact hor.imp h.trans fun h' => ⟨e, List.mem_cons_self, h.trans h'⟩
    · exact .inr ⟨x, List.mem_cons_of_mem _ hx, h⟩

/-- An entry stands at an index and is valid. -/
def ValidAt (t : Tbl Cairn) (i : Nat) : Prop := ∃ c, t.get? i = some c ∧ c.valid = true

theorem validAt_iff (t : Tbl Cairn) (i : Nat) : ((t.get? i).map fun e => e.valid).getD false = true ↔ ValidAt t i := by
  cases h : t.get? i <;> simp [ValidAt, h]

/-- An entry is valid and has a base. -/
def ValidWith (base : Word) (e : Nat × Cairn) : Prop := e.2.valid = true ∧ e.2.base = base

section
variable (c : Cluster) (base : Word)

/-- A valid entry with the new entry's base is written again. -/
theorem cairnSlot_sameBase (h : ∃ e ∈ c.cairn, ValidWith base e) : ∃ e ∈ c.cairn, e.1 = c.cairnSlot base ∧ ValidWith base e := by
  cases hfind : c.cairn.find? fun e => e.2.valid && e.2.base == base with
  | none =>
    obtain ⟨e, he, hv, hb⟩ := h
    simpa [hv, hb] using List.find?_eq_none.1 hfind e he
  | some e =>
    refine ⟨e, List.mem_of_find?_eq_some hfind, ?_, ?_⟩
    · simp only [Cluster.cairnSlot, hfind]
    · simpa [ValidWith] using List.find?_some hfind

variable (hnew : ∀ e ∈ c.cairn, ¬ ValidWith base e)
include hnew

theorem find?_base_eq_none : (c.cairn.find? fun e => e.2.valid && e.2.base == base) = none :=
  List.find?_eq_none.2 fun e he => by simpa [ValidWith] using hnew e he

/-- Else the lowest-numbered invalid entry is written. -/
theorem cairnSlot_lowestInvalid (h : ∃ j < 64, ¬ ValidAt c.cairn j) :
    c.cairnSlot base < 64 ∧ ¬ ValidAt c.cairn (c.cairnSlot base) ∧ ∀ j < c.cairnSlot base, ValidAt c.cairn j := by
  cases hfind : (upFrom 0 64).find? fun i => !((c.cairn.get? i).map fun e => e.valid).getD false with
  | none =>
    obtain ⟨j, hj, hv⟩ := h
    rw [upFrom_zero, List.find?_range_eq_none] at hfind
    exact absurd ((validAt_iff _ _).1 (by simpa using hfind j hj)) hv
  | some i =>
    have hslot : c.cairnSlot base = i := by simp only [Cluster.cairnSlot, find?_base_eq_none c base hnew, hfind]
    rw [upFrom_zero, List.find?_range_eq_some] at hfind
    obtain ⟨hi, hlt, hbelow⟩ := hfind
    rw [hslot]
    refine ⟨List.mem_range.1 hlt, fun hv => ?_, fun j hj => (validAt_iff _ _).1 ?_⟩
    · simp [(validAt_iff _ _).2 hv] at hi
    · simpa using hbelow j hj

/-- Else the entry set longest ago is written. -/
theorem cairnSlot_setLongestAgo (h : ∀ j < 64, ValidAt c.cairn j) :
    ∃ e ∈ c.cairn, e.1 = c.cairnSlot base ∧ ∀ x ∈ c.cairn, e.2.setAt ≤ x.2.setAt := by
  have hfull : ((upFrom 0 64).find? fun i => !((c.cairn.get? i).map fun e => e.valid).getD false) = none := by
    rw [upFrom_zero, List.find?_range_eq_none]
    exact fun j hj => by simp [(validAt_iff _ _).2 (h j hj)]
  obtain ⟨first, hfirst, -⟩ := h 0 (by norm_num)
  have hslot : c.cairnSlot base = (c.cairn.foldl earlierSet (0, first.setAt)).1 := by
    simp only [Cluster.cairnSlot, find?_base_eq_none c base hnew, hfull, hfirst]
    rfl
  obtain ⟨hmem, -, hall⟩ := foldl_earlierSet c.cairn (0, first.setAt)
  rw [hslot]
  rcases hmem with h | ⟨e, he, h⟩
  · rw [h] at hall ⊢
    exact ⟨(0, first), mem_of_get? hfirst, rfl, hall⟩
  · rw [h] at hall ⊢
    exact ⟨e, he, rfl, hall⟩

end

/-! ### A change on its way to the directories (07 R181) -/

/-- A change of a cairn table reaches the dies and the agenda. -/
theorem updateDirectories_eq (s : State) (p cl : Nat) (regions : List Nat) :
    ∃ agenda dies, s.updateDirectories p cl regions = { s with agenda := agenda, dies := dies } := by
  let changed (u : State) : Prop := ∃ agenda dies, u = { s with agenda := agenda, dies := dies }
  refine List.foldlRecOn (motive := changed) _ _ ⟨s.agenda, s.dies, rfl⟩ fun u hu m _ => ?_
  refine List.foldlRecOn (motive := changed) _ _ hu fun u hu d _ => ?_
  obtain ⟨agenda, dies, rfl⟩ := hu
  exact ⟨_, _, rfl⟩

@[simp] theorem updateDirectories_cur (s : State) (p cl : Nat) (regions : List Nat) :
    (s.updateDirectories p cl regions).cur = s.cur := by
  obtain ⟨agenda, dies, h⟩ := updateDirectories_eq s p cl regions
  rw [h]

@[simp] theorem updateDirectories_cluster (s : State) (p cl : Nat) (regions : List Nat) (c : Nat) :
    (s.updateDirectories p cl regions).cluster c = s.cluster c := by
  obtain ⟨agenda, dies, h⟩ := updateDirectories_eq s p cl regions
  rw [h]
  rfl

theorem sameBytes_updateDirectories (s : State) (p cl : Nat) (regions : List Nat) :
    SameBytes s (s.updateDirectories p cl regions) := by
  obtain ⟨agenda, dies, h⟩ := updateDirectories_eq s p cl regions
  rw [h]
  exact sameBytes_units s s.uidNext agenda dies

/-! ### `RSSET` and `RSCLR` (07 R179, R180) -/

/-- An instruction of a task, where a task runs. -/
theorem needTask_of_task {s : State} {k : Task} (h : s.cur.task = some k) (mnemonic : String) (f : Task → Out) :
    s.needTask mnemonic f = f k := by simp only [State.needTask, h]

/-- An instruction that changes the state without the running thread and the memories, and ends with `State.result`. -/
theorem tells_result {s u : State} {d : Reg} {v : Word} {post : State → Prop} (thread : u.cur = s.cur) (memory : SameBytes s u)
    (hpost : post ((u.setG d v).advance 4)) : Tells (u.result d v) s d v post := by
  have hg (r : Reg) : u.g r = s.g r := by rw [State.g, thread, State.g]
  have hx (k : XReg) : u.x k = s.x k := by rw [State.x, thread, State.x]
  refine ⟨_, rfl, ⟨fun r => ?_, fun k => ?_, ?_, ?_, ?_, ?_⟩, ?_, hpost⟩
  · simp [hg]
  · simp [hx]
  · simp [thread]
  · simp [State.pc, thread, word]
  · simp [SameTrapRegs, thread]
  · simp [GoesOnAcq, thread]
  · exact sameBytes_trans memory (sameBytes_of_onlyThread (onlyThread_trans (onlyThread_setG u d v) (onlyThread_advance _ 4)))

/-- The cairn table of a cluster changed, names used up to `uidNext`, and the change of the regions on its way to the directories. -/
def changeCairns (s : State) (uidNext p cl : Nat) (f : Tbl Cairn → Tbl Cairn) (regions : List Nat) : State :=
  (({ s with uidNext := uidNext } : State).mapCluster cl fun c => { c with cairn := f c.cairn }).updateDirectories p cl regions

/-- An instruction that changes the cairn table of a cluster and ends with `State.result`. -/
theorem tells_changeCairns {s : State} {uidNext p cl : Nat} {f : Tbl Cairn → Tbl Cairn} {regions : List Nat} {d : Reg} {v : Word}
    {post : State → Prop} (hpost : ∀ t : State, (t.cluster cl).cairn = f (s.cluster cl).cairn → post t) :
    Tells ((changeCairns s uidNext p cl f regions).result d v) s d v post := by
  let used : State := { s with uidNext := uidNext }
  have hcairn : ((changeCairns s uidNext p cl f regions).cluster cl).cairn = f (s.cluster cl).cairn := by
    rw [changeCairns, updateDirectories_cluster, State.cluster_mapCluster, if_pos rfl]
    rfl
  have hused : SameBytes s used := sameBytes_units s uidNext s.agenda s.dies
  have htable : SameBytes used (used.mapCluster cl fun c => { c with cairn := f c.cairn }) := sameBytes_mapCluster used cl rfl
  exact tells_result (updateDirectories_cur _ p cl regions)
    (sameBytes_trans hused (sameBytes_trans htable (sameBytes_updateDirectories _ p cl regions))) (hpost _ hcairn)

/-- The entry that `RSSET` writes (07 R179). -/
def rssetCairn (s : State) (a b : Reg) : Cairn :=
  { base := s.g a, units := bits (s.g b) 0 16 + 1, kind := bits (s.g b) 16 1, valid := true, setAt := s.uidNext + 1 }

theorem rssetCairn_units (s : State) (a b : Reg) : (rssetCairn s a b).units = (s.g b).toNat % 2 ^ 16 + 1 :=
  congrArg (· + 1) (bits_zero (s.g b) 16)

theorem rssetCairn_kind (s : State) (a b : Reg) : (rssetCairn s a b).kind = (s.g b).toNat / 2 ^ 16 % 2 := bits_eq (s.g b) 16 1

/-- `RSCLR` clears an entry: it clears all, or its range overlaps the entry (07 R180). -/
def clears (w base : Word) (c : Cairn) : Bool :=
  bit w 63 || (decide (c.base.toNat < base.toNat + (bits w 0 16 + 1) * 4096) &&
    decide (base.toNat < c.base.toNat + c.units * 4096))

theorem clears_iff (w base : Word) (c : Cairn) :
    clears w base c = true ↔ w.getLsbD 63 = true ∨ overlaps c base.toNat ((w.toNat % 2 ^ 16 + 1) * 4096) := by
  simp only [clears, overlaps, bit_eq_getLsbD, bits_zero, Bool.or_eq_true, Bool.and_eq_true, decide_eq_true_eq]

/-- An entry after `RSCLR`. -/
def clearCairn (w base : Word) (c : Cairn) : Cairn := if c.valid && clears w base c then { c with valid := false } else c

theorem clearCairn_of_clears {w base : Word} {c : Cairn} (h : clears w base c = true) :
    clearCairn w base c = { c with valid := false } := by
  rw [clearCairn, h, Bool.and_true]
  split
  next => rfl
  next hv => rw [← Bool.eq_false_of_not_eq_true hv]

theorem clearCairn_of_not_clears {w base : Word} {c : Cairn} (h : ¬ clears w base c = true) : clearCairn w base c = c := by
  rw [clearCairn, if_neg fun hc => h (Bool.and_eq_true_iff.1 hc).2]

section
variable {d a b : Reg} {s : State} {k : Task} (h : s.cur.task = some k)
include h

/-- `RSSET` on a base that is a multiple of 4 KiB writes one entry and gives its index (07 R179). -/
theorem exec_rsset (ha : (s.g a).toNat % 4096 = 0) :
    let i := (s.cluster s.curCluster).cairnSlot (s.g a)
    ∃ regions, exec (.rsset d a b) s = (changeCairns s (s.uidNext + 1) k.part s.curCluster
      (fun t => t.put i (rssetCairn s a b)) regions).result d (word i) :=
  ⟨_, (needTask_of_task h _ _).trans (if_neg (not_not.2 ha))⟩

theorem exec_rsset_misaligned (ha : (s.g a).toNat % 4096 ≠ 0) :
    exec (.rsset d a b) s = .next (s.takeTrap (baseTrap (s.g a))) :=
  (needTask_of_task h _ _).trans (if_pos ha)

/-- `RSCLR` with bit 63 of its operand, or on a base that is a multiple of 4 KiB, clears entries (07 R180). -/
theorem exec_rsclr (hall : (s.g b).getLsbD 63 = true ∨ (s.g a).toNat % 4096 = 0) :
    ∃ regions, exec (.rsclr a b) s = (changeCairns s s.uidNext k.part s.curCluster
      (fun t => t.map fun e => (e.1, clearCairn (s.g b) (s.g a) e.2)) regions).result 0 0 := by
  have hgo : ¬ ((!bit (s.g b) 63) = true ∧ (s.g a).toNat % 4096 ≠ 0) := by
    rintro ⟨hpart, ha⟩
    rw [bit_eq_getLsbD, Bool.not_eq_true'] at hpart
    exact hall.elim (Bool.eq_false_iff.1 hpart) ha
  exact ⟨_, (needTask_of_task h _ _).trans (if_neg hgo)⟩

theorem exec_rsclr_misaligned (hall : (s.g b).getLsbD 63 = false) (ha : (s.g a).toNat % 4096 ≠ 0) :
    exec (.rsclr a b) s = .next (s.takeTrap (baseTrap (s.g a))) := by
  refine (needTask_of_task h _ _).trans (if_pos ⟨?_, ha⟩)
  rw [bit_eq_getLsbD, hall, Bool.not_false]

end

/-! ### The directories (07 R181) -/

theorem canonical_iff (va : Nat) : canonical va = true ↔ va / 2 ^ 56 = 0 ∨ va / 2 ^ 56 = 255 := by
  rw [canonical, Nat.shiftRight_eq_div_pow, Bool.or_eq_true, beq_iff_eq, beq_iff_eq]

/-- The regions that n bytes from an address touch are those that overlap them. -/
theorem mem_regionsOf {lo n m : Nat} (hn : n ≠ 0) : m ∈ regionsOf (lo, n) ↔ lo < m * 2 ^ 21 + 2 ^ 21 ∧ m * 2 ^ 21 < lo + n := by
  rw [regionsOf, upFrom_eq_range', List.mem_range'_1]
  omega

/-- A cairn entry of some units names the regions that it overlaps while it is valid and its base canonical. -/
theorem mem_cairnRegions {c : Cairn} (hunits : c.units ≠ 0) (m : Nat) :
    m ∈ c.regions ↔ c.valid = true ∧ (c.base.toNat / 2 ^ 56 = 0 ∨ c.base.toNat / 2 ^ 56 = 255) ∧
      overlaps c (m * 2 ^ 21) (2 ^ 21) := by
  have hregions := mem_regionsOf (lo := c.base.toNat) (m := m) (by omega : c.units * 4096 ≠ 0)
  rw [Cairn.regions, ← canonical_iff, ← and_assoc, ← Bool.and_eq_true]
  split
  next h => rw [hregions, overlaps, and_iff_right h]
  next h => simp [h]

/-- A step of a directory takes the next change from the queue and brings its own name in line with the cluster's table. -/
theorem directoryUpdate_follows {s : State} {die : Nat} {w : DirUpdate} {rest : List DirUpdate}
    (hq : (s.die die).dirQ = w :: rest) (hunits : ∀ e ∈ (s.cluster w.cl).cairn, e.2.units ≠ 0) :
    ∃ t, exec (.directoryUpdate die) s = .next t ∧ SameBytes s t ∧ t.cur = s.cur ∧ (t.die die).dirQ = rest ∧
      ((w.part, w.region, w.cl) ∈ (t.die die).dir ↔ ∃ e ∈ (s.cluster w.cl).cairn, e.2.valid = true ∧
        (e.2.base.toNat / 2 ^ 56 = 0 ∨ e.2.base.toNat / 2 ^ 56 = 255) ∧ overlaps e.2 (w.region * 2 ^ 21) (2 ^ 21)) ∧
      ∀ e, e ≠ (w.part, w.region, w.cl) → (e ∈ (t.die die).dir ↔ e ∈ (s.die die).dir) := by
  have hexec : exec (.directoryUpdate die) s = execDirectoryUpdate die s := rfl
  rw [hexec, execDirectoryUpdate, hq]
  refine ⟨_, rfl, sameBytes_units s s.uidNext s.agenda _, rfl, ?_, ?_, fun e he => ?_⟩
  all_goals rw [State.die_mapDie, if_pos rfl]
  · have hentry (e : Nat × Cairn) (he : e ∈ (s.cluster w.cl).cairn) := mem_cairnRegions (hunits e he) w.region
    simp only [List.mem_append, List.mem_filter, List.mem_ite_nil_right, List.mem_singleton, List.any_eq_true,
      List.contains_iff_mem, decide_eq_true_eq, ne_eq, not_true_eq_false, and_false, or_false, and_true]
    exact exists_congr fun e => and_congr_right (hentry e)
  · simp [he]

/-- Settles O30: `RSSET` and `RSCLR` change the cairn table alone, the slot follows the three rules of R179, and a directory follows
the regions that the table's entries name. -/
theorem residencyTables : Obligations.ResidencyTables := by
  intro d a b s k hk cl old base units valid
  refine ⟨fun ha => ?rsset, fun ha => ?rsclr, fun ha hs => ⟨?rssetTraps, fun hall => ?rsclrTraps⟩,
    fun die w rest => directoryUpdate_follows⟩
  case rsset =>
    obtain ⟨regions, hexec⟩ := exec_rsset (d := d) (b := b) hk ha
    refine ⟨(s.cluster cl).cairnSlot base, hexec ▸ tells_changeCairns fun t ht =>
      ⟨⟨rssetCairn s a b, ?_, rfl, ?_, ?_, rfl⟩, fun j hj => ?_,
        cairnSlot_sameBase _ base, cairnSlot_lowestInvalid _ base, cairnSlot_setLongestAgo _ base⟩⟩
    · rw [ht, Tbl.get?_put, if_pos rfl]
    · exact rssetCairn_units s a b
    · exact rssetCairn_kind s a b
    · rw [ht, Tbl.get?_put, if_neg hj.symm]
  case rsclr =>
    obtain ⟨regions, hexec⟩ := exec_rsclr hk ha
    refine hexec ▸ tells_changeCairns fun t ht j => ?_
    rw [ht, get?_map]
    refine ⟨fun hj => ?_, fun c hj => ⟨fun hc => ?_, fun hc => ?_⟩⟩
    · rw [hj, Option.map_none]
    · rw [hj, Option.map_some, clearCairn_of_clears ((clears_iff ..).2 hc)]
    · rw [hj, Option.map_some, clearCairn_of_not_clears (mt (clears_iff ..).1 hc)]
  case rssetTraps => exact traps_of_takeTrap (exec_rsset_misaligned hk ha) hs
  case rsclrTraps => exact traps_of_takeTrap (exec_rsclr_misaligned hk hall ha) hs

end Sys2Proof.Proofs

/-! Decoding and encoding are inverse to each other (03 R77 to R90; 04 R102 to R113). -/

namespace Sys2Proof.Proofs

open Sys2Proof.Machine Sys2Proof.Claims

-- The whole text is compiled as one file in bounded memory; one thread at a time needs the least of it.
set_option Elab.async false

/-! ### Words and their fields -/

section
variable {w : BitVec 32} (h : w.extractLsb' 30 2 = 3)
include h

theorem wordA_fields : wordA (fieldOf w 24 6) (fieldOf w 19 5) (fieldOf w 14 5) (fieldOf w 9 5) (fieldOf w 0 9) = w := by
  rw [wordA, ← h]
  simp only [fieldOf, BitVec.extractLsb'_append_extractLsb'_eq_extractLsb']
  exact BitVec.extractLsb'_eq_self

theorem wordI14_fields : wordI14 (fieldOf w 24 6) (fieldOf w 19 5) (fieldOf w 14 5) (fieldOf w 0 14) = w := by
  rw [wordI14, ← h]
  simp only [fieldOf, BitVec.extractLsb'_append_extractLsb'_eq_extractLsb']
  exact BitVec.extractLsb'_eq_self

theorem wordM_fields :
    wordM (fieldOf w 24 6) (fieldOf w 19 5) (fieldOf w 14 5) (fieldOf w 11 3) (fieldOf w 9 2) (fieldOf w 0 9) = w := by
  rw [wordM, ← h]
  simp only [fieldOf, BitVec.extractLsb'_append_extractLsb'_eq_extractLsb']
  exact BitVec.extractLsb'_eq_self

theorem wordLi_fields {m : BitVec 6} (hm : fieldOf w 24 6 = m) : (3 : BitVec 2) ++ m ++ fieldOf w 19 5 ++ fieldOf w 0 19 = w := by
  rw [← h, ← hm]
  simp only [fieldOf, BitVec.extractLsb'_append_extractLsb'_eq_extractLsb']
  exact BitVec.extractLsb'_eq_self

theorem wordLix_fields {m : BitVec 6} (hm : fieldOf w 24 6 = m) : (3 : BitVec 2) ++ m ++ fieldOf w 21 3 ++ fieldOf w 0 21 = w := by
  rw [← h, ← hm]
  simp only [fieldOf, BitVec.extractLsb'_append_extractLsb'_eq_extractLsb']
  exact BitVec.extractLsb'_eq_self

theorem wordJ_fields : (3 : BitVec 2) ++ fieldOf w 24 6 ++ fieldOf w 0 24 = w := by
  rw [← h]
  simp only [fieldOf, BitVec.extractLsb'_append_extractLsb'_eq_extractLsb']
  exact BitVec.extractLsb'_eq_self

theorem wordServe_fields {m : BitVec 6} (hm : fieldOf w 24 6 = m) : (3 : BitVec 2) ++ m ++ fieldOf w 19 5 ++ fieldOf w 14 5 ++ fieldOf w 11 3 ++
    fieldOf w 8 3 ++ fieldOf w 0 8 = w := by
  rw [← h, ← hm]
  simp only [fieldOf, BitVec.extractLsb'_append_extractLsb'_eq_extractLsb']
  exact BitVec.extractLsb'_eq_self

end

section
variable {h : BitVec 16}

theorem half0_fields (e : h.extractLsb' 14 2 = 0) :
    half0 (h.extractLsb' 10 4) (h.extractLsb' 6 4) (h.extractLsb' 2 4) (h.extractLsb' 0 2) = h := by
  rw [half0, ← e]
  simp only [BitVec.extractLsb'_append_extractLsb'_eq_extractLsb']
  exact BitVec.extractLsb'_eq_self

theorem half1_fields (e : h.extractLsb' 14 2 = 1) : half1 (h.extractLsb' 11 3) (h.extractLsb' 7 4) (h.extractLsb' 0 7) = h := by
  rw [half1, ← e]
  simp only [BitVec.extractLsb'_append_extractLsb'_eq_extractLsb']
  exact BitVec.extractLsb'_eq_self

theorem half2_fields (e : h.extractLsb' 14 2 = 2) : half2 (h.extractLsb' 12 2) (h.extractLsb' 0 12) = h := by
  rw [half2, ← e]
  simp only [BitVec.extractLsb'_append_extractLsb'_eq_extractLsb']
  exact BitVec.extractLsb'_eq_self

end

/-! ### Fields whose upper bits are 0 -/

theorem zero_append_low1 : ∀ {x : BitVec 5}, x.extractLsb' 1 4 = 0 → 0#4 ++ x.extractLsb' 0 1 = x := by decide
theorem zero_append_low2 : ∀ {x : BitVec 5}, x.extractLsb' 2 3 = 0 → 0#3 ++ x.extractLsb' 0 2 = x := by decide
theorem zero_append_low3 : ∀ {x : BitVec 5}, x.extractLsb' 3 2 = 0 → 0#2 ++ x.extractLsb' 0 3 = x := by decide
theorem zero_append_low4 : ∀ {x : BitVec 5}, x.extractLsb' 4 1 = 0 → 0#1 ++ x.extractLsb' 0 4 = x := by decide
theorem zero_append_low6 : ∀ {x : BitVec 7}, x.extractLsb' 6 1 = 0 → 0#1 ++ x.extractLsb' 0 6 = x := by decide

/-! ### Parts of a concatenation -/

section
variable {n m : Nat} {x : BitVec n} {y : BitVec m}

theorem extract_extract {lo len lo' len' : Nat} (h : lo' + len' ≤ len) :
    (x.extractLsb' lo len).extractLsb' lo' len' = x.extractLsb' (lo + lo') len' := by
  apply BitVec.eq_of_getLsbD_eq
  intro i hi
  have hlt : lo' + i < len := by omega
  simp only [BitVec.getLsbD_extractLsb', hi, hlt, decide_true, Bool.true_and, Nat.add_assoc]

theorem extract_append_high : (x ++ y).extractLsb' m n = x := by
  rw [BitVec.extractLsb'_append_eq_of_le (Nat.le_refl m), Nat.sub_self, BitVec.extractLsb'_eq_self]

theorem extract_append_low : (x ++ y).extractLsb' 0 m = y := by
  rw [BitVec.extractLsb'_append_eq_of_add_le (by omega), BitVec.extractLsb'_eq_self]

end

/-! ### Sub-fields and their bits (03 R86, 04 R107 to R109) -/

theorem memOrderBits_of (v : BitVec 2) : memOrderBits (memOrderOf v) = v := by revert v; decide
theorem memOrderOf_bits (o : MemOrder) : memOrderOf (memOrderBits o) = o := by cases o <;> rfl
theorem ldKindBits_of {v : BitVec 3} {k : LdKind} : ldKindOf v = some k → ldKindBits k = v := by
  revert v; cases k <;> decide
theorem ldKindOf_bits (k : LdKind) : ldKindOf (ldKindBits k) = some k := by cases k <;> rfl
theorem stKindBits_of {v : BitVec 3} {k : StKind} : stKindOf v = some k → stKindBits k = v := by
  revert v; cases k <;> decide
theorem stKindOf_bits (k : StKind) : stKindOf (stKindBits k) = some k := by cases k <;> rfl
theorem atomSizeBits_of (v : BitVec 1) : atomSizeBits (atomSizeOf v) = v := by revert v; decide
theorem atomSizeOf_bits (s : AtomSize) : atomSizeOf (atomSizeBits s) = s := by cases s <;> rfl
theorem atomOrderBits_of (v : BitVec 2) : atomOrderBits (atomOrderOf v) = v := by revert v; decide
theorem atomOrderOf_bits (o : AtomOrder) : atomOrderOf (atomOrderBits o) = o := by cases o <;> rfl
theorem scopeBits_of (v : BitVec 2) : scopeBits (scopeOf v) = v := by revert v; decide
theorem scopeOf_bits (c : Scope) : scopeOf (scopeBits c) = c := by cases c <;> rfl
theorem fpFmtBits_of (v : BitVec 2) : fpFmtBits (fpFmtOf v) = v := by revert v; decide
theorem fpFmtOf_bits (f : FpFmt) : fpFmtOf (fpFmtBits f) = f := by cases f <;> rfl
theorem roundModeBits_of (v : BitVec 2) : roundModeBits (roundModeOf v) = v := by revert v; decide
theorem roundModeOf_bits (m : RoundMode) : roundModeOf (roundModeBits m) = m := by cases m <;> rfl
theorem pkShapeBits_of {v : BitVec 2} {h : PkShape} : pkShapeOf v = some h → pkShapeBits h = v := by
  revert v; cases h <;> decide
theorem pkShapeOf_bits (h : PkShape) : pkShapeOf (pkShapeBits h) = some h := by cases h <;> rfl

section
variable {t5 : BitVec 5} {t4 : BitVec 4} {t3 k : BitVec 3} {x y m : BitVec 2} {u : BitVec 1}

theorem fields_522 : (t5 ++ x ++ m).extractLsb' 4 5 = t5 ∧ (t5 ++ x ++ m).extractLsb' 2 2 = x ∧ (t5 ++ x ++ m).extractLsb' 0 2 = m := by
  simp (disch := decide) only [BitVec.extractLsb'_append_eq_of_le, BitVec.extractLsb'_append_eq_of_add_le, Nat.reduceSub,
    BitVec.extractLsb'_eq_self, and_self]

theorem fields_3222 : (t3 ++ x ++ y ++ m).extractLsb' 6 3 = t3 ∧ (t3 ++ x ++ y ++ m).extractLsb' 4 2 = x ∧
    (t3 ++ x ++ y ++ m).extractLsb' 2 2 = y ∧ (t3 ++ x ++ y ++ m).extractLsb' 0 2 = m := by
  simp (disch := decide) only [BitVec.extractLsb'_append_eq_of_le, BitVec.extractLsb'_append_eq_of_add_le, Nat.reduceSub,
    BitVec.extractLsb'_eq_self, and_self]

theorem fields_4122 : (t4 ++ u ++ x ++ m).extractLsb' 5 4 = t4 ∧ (t4 ++ u ++ x ++ m).extractLsb' 4 1 = u ∧
    (t4 ++ u ++ x ++ m).extractLsb' 2 2 = x ∧ (t4 ++ u ++ x ++ m).extractLsb' 0 2 = m := by
  simp (disch := decide) only [BitVec.extractLsb'_append_eq_of_le, BitVec.extractLsb'_append_eq_of_add_le, Nat.reduceSub,
    BitVec.extractLsb'_eq_self, and_self]

theorem fields_3321 : (t3 ++ k ++ x ++ u).extractLsb' 6 3 = t3 ∧ (t3 ++ k ++ x ++ u).extractLsb' 3 3 = k ∧
    (t3 ++ k ++ x ++ u).extractLsb' 1 2 = x ∧ (t3 ++ k ++ x ++ u).extractLsb' 0 1 = u := by
  simp (disch := decide) only [BitVec.extractLsb'_append_eq_of_le, BitVec.extractLsb'_append_eq_of_add_le, Nat.reduceSub,
    BitVec.extractLsb'_eq_self, and_self]

end

/-! ### Whatever a major decodes is well-formed and has the word's encoding -/

/-- What a decoding answers, if an instruction, is well-formed and is encoded by these words. -/
structure Reencodes (r : Dec) (ws : Words) : Prop where
  out : ∀ i, r = .ok i → i.wf = true ∧ encodeWords i = ws

theorem reencodes_ok {i : Instr} {ws : Words} (hwf : i.wf = true) (he : encodeWords i = ws) : Reencodes (.ok i) ws :=
  ⟨fun _ e => Except.ok.inj e ▸ ⟨hwf, he⟩⟩

theorem reencodes_of_wf {i : Instr} (h : i.wf = true) : Reencodes (.ok i) (encodeWords i) := reencodes_ok h rfl

theorem reencodes_error {c : BitVec 8} {ws : Words} : Reencodes (.error c) ws :=
  ⟨fun _ h => Except.noConfusion rfl rfl (heq_of_eq h)⟩

theorem reencodes_zeroIf {c : Bool} {i : Instr} {ws : Words} (h : c = true → Reencodes (.ok i) ws) : Reencodes (zeroIf c i) ws := by
  cases c
  case false => exact reencodes_error
  case true => exact h rfl

/-- The arms of a decoding are tried in order: this one is taken for its value, the others for the rest. -/
theorem reencodes_arm_of {n : Nat} {f v : BitVec n} {x : Dec} {rest : ¬ f = v → Dec} {ws : Words}
    (hr : ∀ h, Reencodes (rest h) ws) (hx : f = v → Reencodes x ws) :
    Reencodes (dite (f = v) (Eq.ndrec_symm (motive := fun _ => Dec) x) rest) ws := by
  by_cases h : f = v
  · subst h; rw [dif_pos rfl]; exact hx rfl
  · rw [dif_neg h]; exact hr h

theorem reencodes_arm {n : Nat} {f v : BitVec n} {x : Dec} {rest : ¬ f = v → Dec} {ws : BitVec n → Words}
    (hr : ∀ h, Reencodes (rest h) (ws f)) (hx : Reencodes x (ws v)) :
    Reencodes (dite (f = v) (Eq.ndrec_symm (motive := fun _ => Dec) x) rest) (ws f) :=
  reencodes_arm_of hr fun h => h ▸ hx

/-- A field that has to be 0 is 0 in the word. -/
theorem reencodes_zero {n : Nat} {x : BitVec n} {i : Instr} {ws : BitVec n → Words} (h : Reencodes (.ok i) (ws 0)) :
    Reencodes (zeroIf (x == 0) i) (ws x) :=
  reencodes_zeroIf fun hx => (beq_iff_eq.1 hx).symm ▸ h

theorem reencodes_and_zero {n : Nat} {x : BitVec n} {c : Bool} {i : Instr} {ws : BitVec n → Words} (h : Reencodes (zeroIf c i) (ws 0)) :
    Reencodes (zeroIf (c && x == 0) i) (ws x) := by
  by_cases hx : x = 0
  · subst hx; rwa [beq_self_eq_true, Bool.and_true]
  · rw [zeroIf, beq_false_of_ne hx, Bool.and_false]; exact reencodes_error

section
variable {m : BitVec 6} {d a b : BitVec 5} {f : BitVec 9} {i : Instr} {c : Bool}

theorem reencodes_zero_d (h : Reencodes (.ok i) (.word (wordA m 0 a b f))) : Reencodes (zeroIf (d == 0) i) (.word (wordA m d a b f)) :=
  reencodes_zero (ws := fun d => .word (wordA m d a b f)) h

theorem reencodes_zero_a (h : Reencodes (.ok i) (.word (wordA m d 0 b f))) : Reencodes (zeroIf (a == 0) i) (.word (wordA m d a b f)) :=
  reencodes_zero (ws := fun a => .word (wordA m d a b f)) h

theorem reencodes_zero_b (h : Reencodes (.ok i) (.word (wordA m d a 0 f))) : Reencodes (zeroIf (b == 0) i) (.word (wordA m d a b f)) :=
  reencodes_zero (ws := fun b => .word (wordA m d a b f)) h

theorem reencodes_and_zero_a (h : Reencodes (zeroIf c i) (.word (wordA m d 0 b f))) :
    Reencodes (zeroIf (c && a == 0) i) (.word (wordA m d a b f)) :=
  reencodes_and_zero (ws := fun a => .word (wordA m d a b f)) h

theorem reencodes_and_zero_b (h : Reencodes (zeroIf c i) (.word (wordA m d a 0 f))) :
    Reencodes (zeroIf (c && b == 0) i) (.word (wordA m d a b f)) :=
  reencodes_and_zero (ws := fun b => .word (wordA m d a b f)) h

end

section
variable (d a b : BitVec 5) (f : BitVec 9)

theorem reencodes_decodeInt : Reencodes (decodeInt d a b f) (.word (wordA 0x00 d a b f)) := by
  delta decodeInt decodeInt.match_1
  iterate 44 refine reencodes_arm (ws := fun f => .word (wordA 0x00 d a b f)) (fun _ => ?_) ?_
  all_goals beta_reduce
  · exact reencodes_error
  any_goals with_reducible refine reencodes_zero_b ?_
  all_goals exact reencodes_of_wf rfl

theorem reencodes_decodeJreg : Reencodes (decodeJreg d a b f) (.word (wordA 0x1A d a b f)) := by
  delta decodeJreg decodeJreg.match_1
  iterate 2 refine reencodes_arm (ws := fun f => .word (wordA 0x1A d a b f)) (fun _ => ?_) ?_
  all_goals beta_reduce
  · exact reencodes_error
  any_goals with_reducible refine reencodes_and_zero_b ?_
  any_goals with_reducible refine reencodes_zero_d ?_
  all_goals exact reencodes_of_wf rfl

theorem reencodes_decodeRng : Reencodes (decodeRng d a b f) (.word (wordA 0x29 d a b f)) := by
  delta decodeRng decodeXop.match_1
  iterate 3 refine reencodes_arm (ws := fun f => .word (wordA 0x29 d a b f)) (fun _ => ?_) ?_
  all_goals beta_reduce
  · exact reencodes_error
  any_goals with_reducible refine reencodes_zero_b ?_
  all_goals exact reencodes_of_wf rfl

theorem reencodes_decodeSync : Reencodes (decodeSync d a b f) (.word (wordA 0x2C d a b f)) := by
  delta decodeSync decodeSync.match_1
  iterate 11 refine reencodes_arm (ws := fun f => .word (wordA 0x2C d a b f)) (fun _ => ?_) ?_
  all_goals beta_reduce
  · exact reencodes_error
  any_goals with_reducible refine reencodes_and_zero_b ?_
  any_goals with_reducible refine reencodes_zero_b ?_
  any_goals with_reducible refine reencodes_zero_d ?_
  all_goals exact reencodes_of_wf rfl

theorem reencodes_decodeEng : Reencodes (decodeEng d a b f) (.word (wordA 0x31 d a b f)) := by
  delta decodeEng decodeEng.match_1
  iterate 8 refine reencodes_arm (ws := fun f => .word (wordA 0x31 d a b f)) (fun _ => ?_) ?_
  all_goals beta_reduce
  · exact reencodes_error
  any_goals with_reducible refine reencodes_and_zero_b ?_
  any_goals with_reducible refine reencodes_zero_d ?_
  all_goals exact reencodes_of_wf rfl

theorem reencodes_decodeTile : Reencodes (decodeTile d a b f) (.word (wordA 0x34 d a b f)) := by
  delta decodeTile decodeTile.match_1
  iterate 20 refine reencodes_arm (ws := fun f => .word (wordA 0x34 d a b f)) (fun _ => ?_) ?_
  all_goals beta_reduce
  · exact reencodes_error
  any_goals with_reducible refine reencodes_and_zero_b ?_
  any_goals with_reducible refine reencodes_and_zero_a ?_
  any_goals with_reducible refine reencodes_zero_b ?_
  any_goals with_reducible refine reencodes_zero_a ?_
  any_goals with_reducible refine reencodes_zero_d ?_
  all_goals exact reencodes_of_wf rfl

theorem reencodes_decodeXop : Reencodes (decodeXop d a b f) (.word (wordA 0x0D d a b f)) := by
  delta decodeXop decodeXop.match_1
  refine reencodes_arm (ws := fun f => .word (wordA 0x0D d a b f)) (fun _ => ?_) ?xmov
  refine reencodes_arm (ws := fun f => .word (wordA 0x0D d a b f)) (fun _ => ?_) ?movgx
  refine reencodes_arm (ws := fun f => .word (wordA 0x0D d a b f)) (fun _ => ?_) ?xclr
  all_goals beta_reduce
  · exact reencodes_error
  case xmov =>
    refine reencodes_and_zero_b (reencodes_zeroIf fun h => reencodes_ok rfl ?_)
    exact congrArg (fun r => Words.word (wordA 0x0D r a 0 0)) (zero_append_low3 (beq_iff_eq.1 h))
  case movgx =>
    refine reencodes_and_zero_b (reencodes_zeroIf fun h => reencodes_ok rfl ?_)
    exact congrArg (fun r => Words.word (wordA 0x0D d r 0 1)) (zero_append_low3 (beq_iff_eq.1 h))
  case xclr =>
    refine reencodes_and_zero_b (reencodes_and_zero_a (reencodes_zeroIf fun h => reencodes_ok rfl ?_))
    exact congrArg (fun r => Words.word (wordA 0x0D r 0 0 2)) (zero_append_low3 (beq_iff_eq.1 h))

theorem reencodes_decodeTask : Reencodes (decodeTask d a b f) (.word (wordA 0x2D d a b f)) := by
  delta decodeTask decodeTask.match_1
  iterate 8 refine reencodes_arm (ws := fun f => .word (wordA 0x2D d a b f)) (fun _ => ?_) ?_
  refine reencodes_arm (ws := fun f => .word (wordA 0x2D d a b f)) (fun _ => ?_) ?waitwp
  iterate 3 refine reencodes_arm (ws := fun f => .word (wordA 0x2D d a b f)) (fun _ => ?_) ?_
  all_goals beta_reduce
  · exact reencodes_error
  case waitwp =>
    refine reencodes_zeroIf fun h => reencodes_ok rfl ?_
    exact congrArg (fun r => Words.word (wordA 0x2D d r b 8)) (zero_append_low4 (beq_iff_eq.1 h))
  any_goals with_reducible refine reencodes_and_zero_b ?_
  any_goals with_reducible refine reencodes_and_zero_a ?_
  any_goals with_reducible refine reencodes_zero_b ?_
  any_goals with_reducible refine reencodes_zero_a ?_
  any_goals with_reducible refine reencodes_zero_d ?_
  all_goals exact reencodes_of_wf rfl

theorem reencodes_set_d {m : BitVec 6} {i : Instr} (h : i.wf = true)
    (he : encodeWords i = .word (wordA m (0#4 ++ d.extractLsb' 0 1) a b f)) :
    Reencodes (zeroIf (d.extractLsb' 1 4 == 0) i) (.word (wordA m d a b f)) :=
  reencodes_zeroIf fun hd => reencodes_ok h (by rw [he, zero_append_low1 (beq_iff_eq.1 hd)])

theorem reencodes_set_a {m : BitVec 6} {i : Instr} (h : i.wf = true)
    (he : encodeWords i = .word (wordA m d (0#4 ++ a.extractLsb' 0 1) b f)) :
    Reencodes (zeroIf (a.extractLsb' 1 4 == 0) i) (.word (wordA m d a b f)) :=
  reencodes_zeroIf fun ha => reencodes_ok h (by rw [he, zero_append_low1 (beq_iff_eq.1 ha)])

theorem reencodes_decodeCount : Reencodes (decodeCount d a b f) (.word (wordA 0x35 d a b f)) := by
  delta decodeCount decodeEng.match_1
  refine reencodes_arm (ws := fun f => .word (wordA 0x35 d a b f)) (fun _ => ?_) ?cfmt
  refine reencodes_arm (ws := fun f => .word (wordA 0x35 d a b f)) (fun _ => ?_) ?cstep
  refine reencodes_arm (ws := fun f => .word (wordA 0x35 d a b f)) (fun _ => ?_) ?cmerge
  refine reencodes_arm (ws := fun f => .word (wordA 0x35 d a b f)) (fun _ => ?_) ?cdrain
  refine reencodes_arm (ws := fun f => .word (wordA 0x35 d a b f)) (fun _ => ?_) ?cclr
  refine reencodes_arm (ws := fun f => .word (wordA 0x35 d a b f)) (fun _ => ?_) ?cdepth
  refine reencodes_arm (ws := fun f => .word (wordA 0x35 d a b f)) (fun _ => ?_) ?calloc
  refine reencodes_arm (ws := fun f => .word (wordA 0x35 d a b f)) (fun _ => ?_) ?cfree
  all_goals beta_reduce
  · exact reencodes_error
  case cfmt => exact reencodes_and_zero_b (reencodes_set_d _ _ _ _ rfl rfl)
  case cstep => exact reencodes_set_d _ _ _ _ rfl rfl
  case cmerge | cclr => exact reencodes_and_zero_b (reencodes_and_zero_a (reencodes_set_d _ _ _ _ rfl rfl))
  case cdrain => exact reencodes_set_a _ _ _ _ rfl rfl
  case cdepth => exact reencodes_and_zero_b (reencodes_set_a _ _ _ _ rfl rfl)
  case calloc => exact reencodes_zero_b (reencodes_of_wf rfl)
  case cfree => exact reencodes_and_zero_b (reencodes_zero_d (reencodes_of_wf rfl))

section
variable (t : BitVec 5) (x y m : BitVec 2)

theorem reencodes_decodeFp : Reencodes (decodeFp d a b (t ++ x ++ m)) (.word (wordA 0x24 d a b (t ++ x ++ m))) := by
  obtain ⟨fmt, rfl⟩ : ∃ fmt, fpFmtBits fmt = x := ⟨_, fpFmtBits_of x⟩
  obtain ⟨mode, rfl⟩ : ∃ mode, roundModeBits mode = m := ⟨_, roundModeBits_of m⟩
  delta decodeFp
  rw [fields_522.1, fields_522.2.1, fields_522.2.2, fpFmtOf_bits, roundModeOf_bits]
  delta decodeFp.match_1
  iterate 17 refine reencodes_arm (ws := fun t => .word (wordA 0x24 d a b (t ++ fpFmtBits fmt ++ roundModeBits mode))) (fun _ => ?_) ?_
  · exact reencodes_error
  any_goals with_reducible refine reencodes_and_zero_b ?_
  any_goals with_reducible refine reencodes_zero_b ?_
  any_goals with_reducible refine reencodes_zero (ws := fun m => .word (wordA 0x24 d a _ (_ ++ fpFmtBits fmt ++ m))) ?_
  all_goals exact reencodes_of_wf rfl

theorem reencodes_decodePk : Reencodes (decodePk d a b (t ++ x ++ m)) (.word (wordA 0x28 d a b (t ++ x ++ m))) := by
  delta decodePk
  rw [fields_522.1, fields_522.2.1, fields_522.2.2]
  split
  · exact reencodes_error
  next h hx =>
    obtain rfl := pkShapeBits_of hx
    delta decodePk.match_1
    iterate 13 refine reencodes_arm (ws := fun t => .word (wordA 0x28 d a b (t ++ pkShapeBits h ++ m))) (fun _ => ?_) ?_
    · exact reencodes_error
    all_goals exact reencodes_zero (ws := fun m => .word (wordA 0x28 d a b (_ ++ pkShapeBits h ++ m))) (reencodes_of_wf rfl)

theorem reencodes_decodeFence : Reencodes (decodeFence d a b (t ++ x ++ m)) (.word (wordA 0x14 d a b (t ++ x ++ m))) := by
  unfold decodeFence
  simp (disch := decide) only [BitVec.extractLsb'_append_eq_of_le, BitVec.extractLsb'_append_eq_of_add_le,
    Nat.reduceSub, BitVec.extractLsb'_eq_self]
  split
  · split
    · exact reencodes_error
    next h =>
      refine reencodes_and_zero_b (reencodes_and_zero_a (reencodes_zero_d ?_))
      obtain ⟨o, rfl⟩ : ∃ o, atomOrderBits o = x := ⟨_, atomOrderBits_of x⟩
      obtain ⟨c, rfl⟩ : ∃ c, scopeBits c = m := ⟨_, scopeBits_of m⟩
      rw [atomOrderOf_bits, scopeOf_bits]
      cases o
      case rlx => exact absurd rfl h
      all_goals exact reencodes_of_wf rfl
  next h =>
    refine reencodes_and_zero_b (reencodes_and_zero_a (reencodes_and_zero (ws := fun d => .word (wordA 0x14 d 0 0 _)) ?_))
    refine reencodes_zeroIf fun hm => ?_
    obtain ⟨rfl, rfl⟩ : x = 0 ∧ m = 0 := by revert x m; decide
    exact reencodes_of_wf rfl
  · exact reencodes_error

theorem reencodes_decodeAtom (t : BitVec 4) (u : BitVec 1) :
    Reencodes (decodeAtom d a b (t ++ u ++ x ++ m)) (.word (wordA 0x13 d a b (t ++ u ++ x ++ m))) := by
  obtain ⟨size, rfl⟩ : ∃ size, atomSizeBits size = u := ⟨_, atomSizeBits_of u⟩
  obtain ⟨o, rfl⟩ : ∃ o, atomOrderBits o = x := ⟨_, atomOrderBits_of x⟩
  obtain ⟨c, rfl⟩ : ∃ c, scopeBits c = m := ⟨_, scopeBits_of m⟩
  delta decodeAtom
  rw [fields_4122.1, fields_4122.2.1, fields_4122.2.2.1, fields_4122.2.2.2, atomSizeOf_bits, atomOrderOf_bits, scopeOf_bits]
  delta decodeAtom.match_1
  iterate 10
    refine reencodes_arm (ws := fun t => .word (wordA 0x13 d a b (t ++ atomSizeBits size ++ atomOrderBits o ++ scopeBits c)))
      (fun _ => ?_) ?_
  · exact reencodes_error
  all_goals exact reencodes_of_wf rfl

theorem reencodes_decodeFcvt (t : BitVec 3) :
    Reencodes (decodeFcvt d a b (t ++ x ++ y ++ m)) (.word (wordA 0x25 d a b (t ++ x ++ y ++ m))) := by
  obtain ⟨dst, rfl⟩ : ∃ dst, fpFmtBits dst = x := ⟨_, fpFmtBits_of x⟩
  obtain ⟨src, rfl⟩ : ∃ src, fpFmtBits src = y := ⟨_, fpFmtBits_of y⟩
  obtain ⟨mode, rfl⟩ : ∃ mode, roundModeBits mode = m := ⟨_, roundModeBits_of m⟩
  delta decodeFcvt
  rw [fields_3222.1, fields_3222.2.1, fields_3222.2.2.1, fields_3222.2.2.2, fpFmtOf_bits, fpFmtOf_bits, roundModeOf_bits]
  delta decodeFcvt.match_1
  refine reencodes_arm (ws := fun t => .word (wordA 0x25 d a b (t ++ fpFmtBits dst ++ fpFmtBits src ++ roundModeBits mode))) (fun _ => ?_) ?fcvt
  iterate 6
    refine reencodes_arm (ws := fun t => .word (wordA 0x25 d a b (t ++ fpFmtBits dst ++ fpFmtBits src ++ roundModeBits mode)))
      (fun _ => ?_) ?_
  case fcvt =>
    split
    · exact reencodes_error
    next h =>
      refine reencodes_and_zero_b (reencodes_zeroIf fun hm => ?_)
      have hmode : (roundModeBits mode == 0) = (mode == .rne) := by cases mode <;> rfl
      rw [hmode] at hm
      exact reencodes_ok ((Bool.and_eq_true ..).mpr ⟨bne_iff_ne.2 h, hm⟩) rfl
  · exact reencodes_error
  all_goals refine reencodes_and_zero_b ?_
  any_goals with_reducible refine reencodes_and_zero (ws := fun m => .word (wordA 0x25 d a 0 (_ ++ fpFmtBits dst ++ fpFmtBits src ++ m))) ?_
  any_goals with_reducible refine reencodes_zero (ws := fun x => .word (wordA 0x25 d a 0 (_ ++ x ++ fpFmtBits src ++ _))) (reencodes_of_wf rfl)
  all_goals exact reencodes_zero (ws := fun y => .word (wordA 0x25 d a 0 (_ ++ fpFmtBits dst ++ y ++ _))) (reencodes_of_wf rfl)

theorem reencodes_decodeMemx (t k : BitVec 3) (u : BitVec 1) :
    Reencodes (decodeMemx d a b (t ++ k ++ x ++ u)) (.word (wordA 0x12 d a b (t ++ k ++ x ++ u))) := by
  obtain ⟨o, rfl⟩ : ∃ o, memOrderBits o = x := ⟨_, memOrderBits_of x⟩
  unfold decodeMemx
  rw [fields_3321.1, fields_3321.2.1, fields_3321.2.2.1, fields_3321.2.2.2, memOrderOf_bits]
  split
  · split
    next kind hk =>
      obtain rfl := ldKindBits_of hk
      exact reencodes_zero (ws := fun u => .word (wordA 0x12 d a b (_ ++ u))) (reencodes_of_wf rfl)
    · exact reencodes_error
  · split
    next kind hk =>
      obtain rfl := stKindBits_of hk
      exact reencodes_zero (ws := fun u => .word (wordA 0x12 d a b (_ ++ u))) (reencodes_of_wf rfl)
    · exact reencodes_error
  · exact reencodes_error
end

theorem reencodes_decodeSys : Reencodes (decodeSys d a b f) (.word (wordA 0x38 d a b f)) := by
  delta decodeSys decodeSys.match_1
  refine reencodes_arm (ws := fun f => .word (wordA 0x38 d a b f)) (fun _ => ?_) ?trap
  iterate 2 refine reencodes_arm (ws := fun f => .word (wordA 0x38 d a b f)) (fun _ => ?_) ?_
  refine reencodes_arm (ws := fun f => .word (wordA 0x38 d a b f)) (fun _ => ?_) ?mfs
  refine reencodes_arm (ws := fun f => .word (wordA 0x38 d a b f)) (fun _ => ?_) ?mts
  iterate 8 refine reencodes_arm (ws := fun f => .word (wordA 0x38 d a b f)) (fun _ => ?_) ?_
  all_goals beta_reduce
  case trap =>
    refine reencodes_zeroIf fun h => reencodes_ok rfl ?_
    have hc : (d.extractLsb' 0 2 ++ a ++ b).extractLsb' 10 2 = d.extractLsb' 0 2 ∧
        (d.extractLsb' 0 2 ++ a ++ b).extractLsb' 5 5 = a ∧ (d.extractLsb' 0 2 ++ a ++ b).extractLsb' 0 5 = b := by
      simp (disch := decide) only [BitVec.extractLsb'_append_eq_of_le, BitVec.extractLsb'_append_eq_of_add_le]
      exact ⟨BitVec.extractLsb'_eq_self, BitVec.extractLsb'_eq_self, BitVec.extractLsb'_eq_self⟩
    obtain ⟨h1, h2, h3⟩ := hc
    show Words.word (wordA 0x38 (0#3 ++ (d.extractLsb' 0 2 ++ a ++ b).extractLsb' 10 2) ((d.extractLsb' 0 2 ++ a ++ b).extractLsb' 5 5)
      ((d.extractLsb' 0 2 ++ a ++ b).extractLsb' 0 5) 0) = _
    rw [h1, h2, h3, zero_append_low2 (beq_iff_eq.1 h)]
    rfl
  case mfs | mts =>
    split
    next hn =>
      have hc : (a ++ b).extractLsb' 5 5 = a ∧ (a ++ b).extractLsb' 0 5 = b := by
        simp (disch := decide) only [BitVec.extractLsb'_append_eq_of_le, BitVec.extractLsb'_append_eq_of_add_le]
        exact ⟨BitVec.extractLsb'_eq_self, BitVec.extractLsb'_eq_self⟩
      obtain ⟨h1, h2⟩ := hc
      exact reencodes_ok hn (congrArg₂ (fun x y => Words.word (wordA 0x38 d x y _)) h1 h2)
    · exact reencodes_error
  · exact reencodes_error
  any_goals with_reducible refine reencodes_and_zero_b ?_
  any_goals with_reducible refine reencodes_and_zero_a ?_
  any_goals with_reducible refine reencodes_zero_b ?_
  any_goals with_reducible refine reencodes_zero_a ?_
  any_goals with_reducible refine reencodes_zero_d ?_
  all_goals exact reencodes_of_wf rfl

theorem reencodes_decodeLd (k : BitVec 3) (o : BitVec 2) : Reencodes (decodeLd d a k o f) (.word (wordM 0x10 d a k o f)) := by
  obtain ⟨order, rfl⟩ : ∃ order, memOrderBits order = o := ⟨_, memOrderBits_of o⟩
  unfold decodeLd
  rw [memOrderOf_bits]
  split
  case h_8 => exact reencodes_error
  all_goals
    next hk =>
      obtain rfl := ldKindBits_of hk
      exact reencodes_of_wf rfl

theorem reencodes_decodeSt (k : BitVec 3) (o : BitVec 2) : Reencodes (decodeSt d a k o f) (.word (wordM 0x11 d a k o f)) := by
  obtain ⟨order, rfl⟩ : ∃ order, memOrderBits order = o := ⟨_, memOrderBits_of o⟩
  unfold decodeSt
  rw [memOrderOf_bits]
  split
  case h_5 => exact reencodes_error
  all_goals
    next hk =>
      obtain rfl := stKindBits_of hk
      exact reencodes_of_wf rfl

theorem reencodes_decodeServe (n r : BitVec 3) (s : BitVec 8) : Reencodes (decodeServe d a n r s) 
    (.word ((3 : BitVec 2) ++ (0x30 : BitVec 6) ++ d ++ a ++ n ++ r ++ s)) := by
  unfold decodeServe
  split
  next h => exact reencodes_ok h rfl
  · exact reencodes_error

theorem reencodes_decodeShift {k : Reg → Reg → BitVec 6 → Instr} {m : BitVec 6} (imm : BitVec 14) (hwf : ∀ i, (k d a i).wf = true)
    (hk : ∀ i, encodeWords (k d a i) = .word (wordI14 m d a (0#8 ++ i))) :
    Reencodes (decodeShift k d a imm) (.word (wordI14 m d a imm)) := by
  refine reencodes_zeroIf fun h => ?_
  have himm : (0#8 ++ imm.extractLsb' 0 6 : BitVec 14) = imm := by
    rw [show 0#8 = imm.extractLsb' 6 8 from (beq_iff_eq.1 h).symm]
    simp only [BitVec.extractLsb'_append_extractLsb'_eq_extractLsb']
    exact BitVec.extractLsb'_eq_self
  exact reencodes_ok (hwf _) (by rw [hk, himm])

end

section
variable (f : BitVec 9)
theorem func_522 : f.extractLsb' 4 5 ++ f.extractLsb' 2 2 ++ f.extractLsb' 0 2 = f := by
  simp only [BitVec.extractLsb'_append_extractLsb'_eq_extractLsb']
  exact BitVec.extractLsb'_eq_self

theorem func_3222 : f.extractLsb' 6 3 ++ f.extractLsb' 4 2 ++ f.extractLsb' 2 2 ++ f.extractLsb' 0 2 = f := by
  simp only [BitVec.extractLsb'_append_extractLsb'_eq_extractLsb']
  exact BitVec.extractLsb'_eq_self

theorem func_4122 : f.extractLsb' 5 4 ++ f.extractLsb' 4 1 ++ f.extractLsb' 2 2 ++ f.extractLsb' 0 2 = f := by
  simp only [BitVec.extractLsb'_append_extractLsb'_eq_extractLsb']
  exact BitVec.extractLsb'_eq_self

theorem func_3321 : f.extractLsb' 6 3 ++ f.extractLsb' 3 3 ++ f.extractLsb' 1 2 ++ f.extractLsb' 0 1 = f := by
  simp only [BitVec.extractLsb'_append_extractLsb'_eq_extractLsb']
  exact BitVec.extractLsb'_eq_self

end

theorem Reencodes.of_eq {r : Dec} {v w : BitVec 32} (h : Reencodes r (.word v)) (e : v = w) : Reencodes r (.word w) := e ▸ h

section
variable {w : BitVec 32} {m : BitVec 6} {i : Instr} {r : Dec} (h : w.extractLsb' 30 2 = 3) (hm : fieldOf w 24 6 = m)
include h hm

theorem reencodes_wordI14 (hwf : i.wf = true)
    (he : encodeWords i = .word (wordI14 m (fieldOf w 19 5) (fieldOf w 14 5) (fieldOf w 0 14))) : Reencodes (.ok i) (.word w) :=
  reencodes_ok hwf (he.trans (congrArg Words.word (hm ▸ wordI14_fields h)))

theorem reencodes_shift {k : Reg → Reg → BitVec 6 → Instr} (hwf : ∀ d a j, (k d a j).wf = true)
    (he : ∀ d a j, encodeWords (k d a j) = .word (wordI14 m d a (0#8 ++ j))) :
    Reencodes (decodeShift k (fieldOf w 19 5) (fieldOf w 14 5) (fieldOf w 0 14)) (.word w) :=
  (reencodes_decodeShift _ _ _ (hwf _ _) (he _ _)).of_eq (hm ▸ wordI14_fields h)

theorem reencodes_wordJ (hwf : i.wf = true) (he : encodeWords i = .word ((3 : BitVec 2) ++ m ++ fieldOf w 0 24)) :
    Reencodes (.ok i) (.word w) :=
  reencodes_ok hwf (he.trans (congrArg Words.word (hm ▸ wordJ_fields h)))

theorem reencodes_wordA
    (hr : Reencodes r (.word (wordA m (fieldOf w 19 5) (fieldOf w 14 5) (fieldOf w 9 5) (fieldOf w 0 9)))) : Reencodes r (.word w) :=
  hr.of_eq (hm ▸ wordA_fields h)

theorem reencodes_wordM
    (hr : Reencodes r (.word (wordM m (fieldOf w 19 5) (fieldOf w 14 5) (fieldOf w 11 3) (fieldOf w 9 2) (fieldOf w 0 9)))) :
    Reencodes r (.word w) :=
  hr.of_eq (hm ▸ wordM_fields h)

end

/-- Whatever a 32-bit word decodes to is well-formed and has that word as its encoding. -/
theorem reencodes_decode32 {w : BitVec 32} (h : w.extractLsb' 30 2 = 3) : Reencodes (decode32 w) (.word w) := by
  delta decode32 decode32.match_1
  refine reencodes_arm_of (fun _ => ?_) fun hm => ?int
  refine reencodes_arm_of (fun _ => ?_) fun hm => ?addi
  refine reencodes_arm_of (fun _ => ?_) fun hm => ?addwi
  refine reencodes_arm_of (fun _ => ?_) fun hm => ?andi
  refine reencodes_arm_of (fun _ => ?_) fun hm => ?ori
  refine reencodes_arm_of (fun _ => ?_) fun hm => ?xori
  refine reencodes_arm_of (fun _ => ?_) fun hm => ?shli
  refine reencodes_arm_of (fun _ => ?_) fun hm => ?shri
  refine reencodes_arm_of (fun _ => ?_) fun hm => ?srai
  refine reencodes_arm_of (fun _ => ?_) fun hm => ?slti
  refine reencodes_arm_of (fun _ => ?_) fun hm => ?sltni
  refine reencodes_arm_of (fun _ => ?_) fun hm => ?li
  refine reencodes_arm_of (fun _ => ?_) fun hm => ?lix
  refine reencodes_arm_of (fun _ => ?_) fun hm => ?xop
  refine reencodes_arm_of (fun _ => ?_) fun hm => ?ld
  refine reencodes_arm_of (fun _ => ?_) fun hm => ?st
  refine reencodes_arm_of (fun _ => ?_) fun hm => ?memx
  refine reencodes_arm_of (fun _ => ?_) fun hm => ?atom
  refine reencodes_arm_of (fun _ => ?_) fun hm => ?fence
  refine reencodes_arm_of (fun _ => ?_) fun hm => ?j
  refine reencodes_arm_of (fun _ => ?_) fun hm => ?jl
  refine reencodes_arm_of (fun _ => ?_) fun hm => ?jreg
  refine reencodes_arm_of (fun _ => ?_) fun hm => ?beq
  refine reencodes_arm_of (fun _ => ?_) fun hm => ?bne
  refine reencodes_arm_of (fun _ => ?_) fun hm => ?blt
  refine reencodes_arm_of (fun _ => ?_) fun hm => ?bge
  refine reencodes_arm_of (fun _ => ?_) fun hm => ?bltn
  refine reencodes_arm_of (fun _ => ?_) fun hm => ?bgen
  refine reencodes_arm_of (fun _ => ?_) fun hm => ?fp
  refine reencodes_arm_of (fun _ => ?_) fun hm => ?fcvt
  refine reencodes_arm_of (fun _ => ?_) fun hm => ?pk
  refine reencodes_arm_of (fun _ => ?_) fun hm => ?rng
  refine reencodes_arm_of (fun _ => ?_) fun hm => ?sync
  refine reencodes_arm_of (fun _ => ?_) fun hm => ?task
  refine reencodes_arm_of (fun _ => ?_) fun hm => ?serve
  refine reencodes_arm_of (fun _ => ?_) fun hm => ?eng
  refine reencodes_arm_of (fun _ => ?_) fun hm => ?tile
  refine reencodes_arm_of (fun _ => ?_) fun hm => ?count
  refine reencodes_arm_of (fun _ => ?_) fun hm => ?sys
  all_goals beta_reduce
  · exact reencodes_error
  case addi | addwi | andi | ori | xori | slti | sltni | beq | bne | blt | bge | bltn | bgen => exact reencodes_wordI14 h hm rfl rfl
  case shli | shri | srai => exact (reencodes_shift h hm (fun _ _ _ => rfl) fun _ _ _ => rfl)
  case li => exact reencodes_ok rfl (congrArg Words.word (wordLi_fields h hm))
  case lix => exact reencodes_ok rfl (congrArg Words.word (wordLix_fields h hm))
  case j | jl => exact reencodes_wordJ h hm rfl rfl
  case ld => exact reencodes_wordM h hm (reencodes_decodeLd ..)
  case st => exact reencodes_wordM h hm (reencodes_decodeSt ..)
  case serve => exact (reencodes_decodeServe ..).of_eq (wordServe_fields h hm)
  case int => exact reencodes_wordA h hm (reencodes_decodeInt ..)
  case xop => exact reencodes_wordA h hm (reencodes_decodeXop ..)
  case memx => exact reencodes_wordA h hm (func_3321 (fieldOf w 0 9) ▸ reencodes_decodeMemx ..)
  case atom => exact reencodes_wordA h hm (func_4122 (fieldOf w 0 9) ▸ reencodes_decodeAtom ..)
  case fence => exact reencodes_wordA h hm (func_522 (fieldOf w 0 9) ▸ reencodes_decodeFence ..)
  case jreg => exact reencodes_wordA h hm (reencodes_decodeJreg ..)
  case fp => exact reencodes_wordA h hm (func_522 (fieldOf w 0 9) ▸ reencodes_decodeFp ..)
  case fcvt => exact reencodes_wordA h hm (func_3222 (fieldOf w 0 9) ▸ reencodes_decodeFcvt ..)
  case pk => exact reencodes_wordA h hm (func_522 (fieldOf w 0 9) ▸ reencodes_decodePk ..)
  case rng => exact reencodes_wordA h hm (reencodes_decodeRng ..)
  case sync => exact reencodes_wordA h hm (reencodes_decodeSync ..)
  case task => exact reencodes_wordA h hm (reencodes_decodeTask ..)
  case eng => exact reencodes_wordA h hm (reencodes_decodeEng ..)
  case tile => exact reencodes_wordA h hm (reencodes_decodeTile ..)
  case count => exact reencodes_wordA h hm (reencodes_decodeCount ..)
  case sys => exact reencodes_wordA h hm (reencodes_decodeSys ..)

/-! ### The 16-bit groups -/

theorem succ_le_toNat {n k : Nat} {x : BitVec n} (h : k ≤ x.toNat) (hne : ¬ x = BitVec.ofNat n k) : k + 1 ≤ x.toNat :=
  Nat.lt_of_le_of_ne h fun e => hne (by rw [e, BitVec.ofNat_toNat, BitVec.setWidth_eq])

theorem reencodes_decodeGroup0 {h : BitVec 16} (op d s : BitVec 4) (e : BitVec 2) (hh : half0 op d s e = h) :
    Reencodes (decodeGroup0 op d s e h) (.half h) := by
  subst hh
  delta decodeGroup0 decodeGroup0.match_3
  refine reencodes_arm_of (fun _ => ?_) fun hop => ?udf
  iterate 13 refine reencodes_arm (ws := fun op => .half (half0 op d s e)) (fun _ => ?_) ?_
  refine reencodes_arm (ws := fun op => .half (half0 op d s e)) (fun _ => ?_) ?jump
  all_goals beta_reduce
  case udf =>
    subst hop
    have hz : (half0 0#4 d s e).extractLsb' 10 6 = 0 := by
      simp (disch := decide) only [half0, BitVec.extractLsb'_append_eq_of_le]
      rfl
    refine reencodes_ok rfl (congrArg Words.half ?_)
    rw [show (0 : BitVec 6) = (half0 0#4 d s e).extractLsb' 10 6 from hz.symm]
    simp only [BitVec.extractLsb'_append_extractLsb'_eq_extractLsb']
    exact BitVec.extractLsb'_eq_self
  case jump =>
    split
    case h_3 => exact reencodes_error
    all_goals exact reencodes_zero (ws := fun d => .half (half0 14 d s _)) (reencodes_of_wf rfl)
  · have hop : op = 15 := by
      have h15 : 15 ≤ op.toNat := by
        iterate 15 refine succ_le_toNat ?_ (by assumption)
        exact Nat.zero_le _
      exact BitVec.eq_of_toNat_eq (Nat.le_antisymm (Nat.le_of_lt_succ op.isLt) h15)
    subst hop
    split
    all_goals
      refine reencodes_and_zero (ws := fun s => .half (half0 15 d s _)) ?_
      exact reencodes_zero (ws := fun d => .half (half0 15 d 0 _)) (reencodes_of_wf rfl)
  all_goals exact reencodes_zero (ws := fun e => .half (half0 _ d s e)) (reencodes_of_wf rfl)

theorem reencodes_decodeGroup1 (op : BitVec 3) (d : BitVec 4) (i : BitVec 7) : Reencodes (decodeGroup1 op d i) (.half (half1 op d i)) := by
  unfold decodeGroup1
  split
  case h_3 => exact reencodes_zeroIf fun h => reencodes_ok rfl (congrArg (fun r => Words.half (half1 2 d r)) (zero_append_low6 (beq_iff_eq.1 h)))
  case h_4 => exact reencodes_zeroIf fun h => reencodes_ok rfl (congrArg (fun r => Words.half (half1 3 d r)) (zero_append_low6 (beq_iff_eq.1 h)))
  all_goals exact reencodes_of_wf rfl

theorem reencodes_decodeGroup2 (op : BitVec 2) (i : BitVec 12) : Reencodes (decodeGroup2 op i) (.half (half2 op i)) := by
  unfold decodeGroup2
  split
  case h_4 => exact reencodes_error
  all_goals exact reencodes_of_wf rfl

/-! ### Bytes -/

theorem encode_of_half {i : Instr} {h : BitVec 16} (e : encodeWords i = .half h) : encode i = halfBytes h := by rw [encode, e]

theorem encode_of_word {i : Instr} {w : BitVec 32} (e : encodeWords i = .word w) :
    encode i = halfBytes (w.extractLsb' 16 16) ++ halfBytes (w.extractLsb' 0 16) := by rw [encode, e]

theorem halfBytes_halfOf (b0 b1 : Byte) : halfBytes (halfOf b0 b1) = [b0, b1] := by
  rw [halfBytes, halfOf, extract_append_low, extract_append_high]

theorem halfOf_extract (h : BitVec 16) : halfOf (h.extractLsb' 0 8) (h.extractLsb' 8 8) = h := by
  simp only [halfOf, BitVec.extractLsb'_append_extractLsb'_eq_extractLsb']
  exact BitVec.extractLsb'_eq_self

/-- What the first halfword decides alone is well-formed with that halfword as its encoding. -/
theorem reencodes_decodeFirst {h : BitVec 16} {r : Dec} {w : BitVec 32} (hd : decodeFirst h = .done r w) : Reencodes r (.half h) := by
  unfold decodeFirst at hd
  split at hd
  case h_1 e =>
    obtain ⟨rfl, rfl⟩ := First.done.inj hd
    exact reencodes_decodeGroup0 _ _ _ _ (half0_fields e)
  case h_2 e =>
    obtain ⟨rfl, rfl⟩ := First.done.inj hd
    have h := reencodes_decodeGroup1 (h.extractLsb' 11 3) (h.extractLsb' 7 4) (h.extractLsb' 0 7)
    rwa [half1_fields e] at h
  case h_3 e =>
    obtain ⟨rfl, rfl⟩ := First.done.inj hd
    have h := reencodes_decodeGroup2 (h.extractLsb' 12 2) (h.extractLsb' 0 12)
    rwa [half2_fields e] at h
  case h_4 =>
    split at hd
    · cases hd
    · obtain ⟨rfl, rfl⟩ := First.done.inj hd
      exact reencodes_error

theorem top_of_more {h : BitVec 16} (hd : decodeFirst h = .more) : h.extractLsb' 14 2 = 3 := by
  unfold decodeFirst at hd
  split at hd
  case h_4 e => exact e
  all_goals cases hd

theorem orIllegal_cases {r : Dec} {w : BitVec 32} {ws : Words} (h : Reencodes r ws) :
    ((orIllegal r w).wf = true ∧ encodeWords (orIllegal r w) = ws) ∨ ∃ c v, orIllegal r w = .illegalEncoding c v := by
  cases r with
  | ok i => exact .inl (h.out i rfl)
  | error c => exact .inr ⟨c, w, rfl⟩

/-- Settles O58: the first halfword decides alone or asks for a second one, and each group and major re-encodes what it decodes. -/
theorem decodingGivesWellFormed : Obligations.DecodingGivesWellFormed := by
  intro bs rest i h
  unfold decodeBytes at h
  split at h
  case h_2 => cases h
  case h_1 b0 b1 tail =>
    split at h
    case h_1 r w hd =>
      obtain ⟨rfl, rfl⟩ := Prod.mk.inj (Option.some.inj h)
      refine (orIllegal_cases (reencodes_decodeFirst hd)).imp_left fun ⟨hwf, he⟩ => ⟨hwf, ?_⟩
      rw [encode_of_half he, halfBytes_halfOf]; rfl
    case h_2 hd =>
      split at h
      case h_2 => cases h
      case h_1 b2 b3 tail' =>
        obtain ⟨rfl, rfl⟩ := Prod.mk.inj (Option.some.inj h)
        have htop : (halfOf b0 b1 ++ halfOf b2 b3 : BitVec 32).extractLsb' 30 2 = 3 := by
          rw [BitVec.extractLsb'_append_eq_of_le (by decide)]
          exact top_of_more hd
        refine (orIllegal_cases (reencodes_decode32 htop)).imp_left fun ⟨hwf, he⟩ => ⟨hwf, ?_⟩
        rw [encode_of_word he, extract_append_high, extract_append_low, halfBytes_halfOf, halfBytes_halfOf]; rfl

/-! ### The fields of an encoded word -/

section
variable (m : BitVec 6) (d a b : BitVec 5) (f : BitVec 9)

theorem fields_wordA : fieldOf (wordA m d a b f) 24 6 = m ∧ fieldOf (wordA m d a b f) 19 5 = d ∧
    fieldOf (wordA m d a b f) 14 5 = a ∧ fieldOf (wordA m d a b f) 9 5 = b ∧ fieldOf (wordA m d a b f) 0 9 = f := by
  unfold wordA
  simp (disch := decide) only [BitVec.extractLsb'_append_eq_of_le, BitVec.extractLsb'_append_eq_of_add_le]
  exact ⟨BitVec.extractLsb'_eq_self, BitVec.extractLsb'_eq_self, BitVec.extractLsb'_eq_self, BitVec.extractLsb'_eq_self,
    BitVec.extractLsb'_eq_self⟩

theorem fields_wordI14 (i : BitVec 14) : fieldOf (wordI14 m d a i) 24 6 = m ∧ fieldOf (wordI14 m d a i) 19 5 = d ∧
    fieldOf (wordI14 m d a i) 14 5 = a ∧ fieldOf (wordI14 m d a i) 0 14 = i := by
  unfold wordI14
  simp (disch := decide) only [BitVec.extractLsb'_append_eq_of_le, BitVec.extractLsb'_append_eq_of_add_le]
  exact ⟨BitVec.extractLsb'_eq_self, BitVec.extractLsb'_eq_self, BitVec.extractLsb'_eq_self, BitVec.extractLsb'_eq_self⟩

theorem fields_wordM (k : BitVec 3) (o : BitVec 2) : fieldOf (wordM m d a k o f) 24 6 = m ∧ fieldOf (wordM m d a k o f) 19 5 = d ∧
    fieldOf (wordM m d a k o f) 14 5 = a ∧ fieldOf (wordM m d a k o f) 11 3 = k ∧ fieldOf (wordM m d a k o f) 9 2 = o ∧
    fieldOf (wordM m d a k o f) 0 9 = f := by
  unfold wordM
  simp (disch := decide) only [BitVec.extractLsb'_append_eq_of_le, BitVec.extractLsb'_append_eq_of_add_le]
  exact ⟨BitVec.extractLsb'_eq_self, BitVec.extractLsb'_eq_self, BitVec.extractLsb'_eq_self, BitVec.extractLsb'_eq_self,
    BitVec.extractLsb'_eq_self, BitVec.extractLsb'_eq_self⟩

end

/-- The words of an encoding decode to this instruction. -/
def DecodesTo (ws : Words) (i : Instr) : Prop :=
  match ws with
  | .half h => ∃ w, decodeFirst h = .done (.ok i) w
  | .word w => w.extractLsb' 30 2 = 3 ∧ majorAssigned (fieldOf w 24 6) = true ∧ decode32 w = .ok i
  | .none => False

theorem decodeBytes_encode {i : Instr} (h : DecodesTo (encodeWords i) i) (rest : List Byte) : decodeBytes (encode i ++ rest) = some (i, rest) := by
  cases e : encodeWords i with
  | none => rw [e] at h; exact h.elim
  | half w =>
    rw [e] at h
    obtain ⟨v, hd⟩ := h
    rw [encode_of_half e]
    simp only [halfBytes, List.cons_append, List.nil_append, decodeBytes, halfOf_extract, hd, orIllegal]
  | word w =>
    rw [e] at h
    obtain ⟨htop, hm, hd⟩ := h
    have hfirst : decodeFirst (w.extractLsb' 16 16) = .more := by
      have h2 : (w.extractLsb' 16 16).extractLsb' 14 2 = 3 := by rw [extract_extract (by decide)]; exact htop
      have h8 : (w.extractLsb' 16 16).extractLsb' 8 6 = fieldOf w 24 6 := extract_extract (by decide)
      unfold decodeFirst
      rw [h2, h8]
      exact if_pos hm
    have hw : (w.extractLsb' 16 16 ++ w.extractLsb' 0 16 : BitVec 32) = w := by
      simp only [BitVec.extractLsb'_append_extractLsb'_eq_extractLsb']
      exact BitVec.extractLsb'_eq_self
    rw [encode_of_word e]
    simp only [halfBytes, List.cons_append, List.nil_append, decodeBytes, halfOf_extract, hfirst, hw, hd, orIllegal]

theorem decodesTo_wordA {m : BitVec 6} {dec : BitVec 5 → BitVec 5 → BitVec 5 → BitVec 9 → Dec} {d a b : BitVec 5} {f : BitVec 9}
    {i : Instr} (hm : majorAssigned m = true) 
    (hdec : ∀ w, fieldOf w 24 6 = m → decode32 w = dec (fieldOf w 19 5) (fieldOf w 14 5) (fieldOf w 9 5) (fieldOf w 0 9))
    (h : dec d a b f = .ok i) : DecodesTo (.word (wordA m d a b f)) i := by
  obtain ⟨e1, e2, e3, e4, e5⟩ := fields_wordA m d a b f
  refine ⟨Laws.Length.top_wordA .., e1.symm ▸ hm, ?_⟩
  rw [hdec _ e1, e2, e3, e4, e5, h]

/-! What a table makes of a word whose fields are known: the row functions are the tables with those fields as arguments. -/

/-- What `decode32` makes of a word, by its major. -/
noncomputable def majorRow (w : BitVec 32) : { row : BitVec 6 → Dec // ∀ m, fieldOf w 24 6 = m → decode32 w = row m } := by
  refine ⟨?row, fun m h => ?read⟩
  case read =>
    delta decode32
    rw [h]

/-- What the `FP` table makes of a function, a format and a mode. -/
noncomputable def fpRow (d a b : BitVec 5) : { row : BitVec 5 → FpFmt → RoundMode → Dec //
    ∀ t f m, decodeFp d a b (t ++ fpFmtBits f ++ roundModeBits m) = row t f m } := by
  refine ⟨?row, fun t f m => ?read⟩
  case read =>
    delta decodeFp
    rw [fields_522.1, fields_522.2.1, fields_522.2.2, fpFmtOf_bits, roundModeOf_bits]

/-- What the `FCVT` table makes of a function, two formats and a mode. -/
noncomputable def fcvtRow (d a b : BitVec 5) : { row : BitVec 3 → FpFmt → FpFmt → RoundMode → Dec //
    ∀ t x y m, decodeFcvt d a b (t ++ fpFmtBits x ++ fpFmtBits y ++ roundModeBits m) = row t x y m } := by
  refine ⟨?row, fun t x y m => ?read⟩
  case read =>
    delta decodeFcvt
    rw [fields_3222.1, fields_3222.2.1, fields_3222.2.2.1, fields_3222.2.2.2, fpFmtOf_bits, fpFmtOf_bits, roundModeOf_bits]

/-- What the `PK` table makes of a function and a shape. -/
noncomputable def pkRow (d a b : BitVec 5) : { row : BitVec 5 → PkShape → Dec //
    ∀ t h, decodePk d a b (t ++ pkShapeBits h ++ 0#2) = row t h } := by
  refine ⟨?row, fun t h => ?read⟩
  case read =>
    delta decodePk
    rw [fields_522.1, fields_522.2.1, fields_522.2.2, pkShapeOf_bits]

/-- What the `ATOM` table makes of a function, a size, an order and a scope. -/
noncomputable def atomRow (d a b : BitVec 5) : { row : BitVec 4 → AtomSize → AtomOrder → Scope → Dec //
    ∀ t s o c, decodeAtom d a b (t ++ atomSizeBits s ++ atomOrderBits o ++ scopeBits c) = row t s o c } := by
  refine ⟨?row, fun t s o c => ?read⟩
  case read =>
    delta decodeAtom
    rw [fields_4122.1, fields_4122.2.1, fields_4122.2.2.1, fields_4122.2.2.2, atomSizeOf_bits, atomOrderOf_bits, scopeOf_bits]

theorem decodeFirst_half0 (op d s : BitVec 4) (e : BitVec 2) :
    decodeFirst (half0 op d s e) = .done (decodeGroup0 op d s e (half0 op d s e)) ((half0 op d s e).setWidth 32) := by
  unfold decodeFirst half0
  simp (disch := decide) only [BitVec.extractLsb'_append_eq_of_le, BitVec.extractLsb'_append_eq_of_add_le, Nat.reduceSub,
    BitVec.extractLsb'_eq_self]
  rfl

theorem decodeFirst_half1 (op : BitVec 3) (d : BitVec 4) (i : BitVec 7) :
    decodeFirst (half1 op d i) = .done (decodeGroup1 op d i) ((half1 op d i).setWidth 32) := by
  unfold decodeFirst half1
  simp (disch := decide) only [BitVec.extractLsb'_append_eq_of_le, BitVec.extractLsb'_append_eq_of_add_le, Nat.reduceSub,
    BitVec.extractLsb'_eq_self]
  rfl

theorem decodeFirst_half2 (op : BitVec 2) (i : BitVec 12) :
    decodeFirst (half2 op i) = .done (decodeGroup2 op i) ((half2 op i).setWidth 32) := by
  unfold decodeFirst half2
  simp (disch := decide) only [BitVec.extractLsb'_append_eq_of_le, BitVec.extractLsb'_append_eq_of_add_le, Nat.reduceSub,
    BitVec.extractLsb'_eq_self]
  rfl

theorem decodesTo_half0 {op d s : BitVec 4} {e : BitVec 2} {i : Instr} (h : decodeGroup0 op d s e (half0 op d s e) = .ok i) :
    DecodesTo (.half (half0 op d s e)) i :=
  ⟨_, h ▸ decodeFirst_half0 op d s e⟩

theorem decodesTo_half1 {op : BitVec 3} {d : BitVec 4} {i : BitVec 7} {j : Instr} (h : decodeGroup1 op d i = .ok j) :
    DecodesTo (.half (half1 op d i)) j :=
  ⟨_, h ▸ decodeFirst_half1 op d i⟩

theorem decodesTo_half2 {op : BitVec 2} {i : BitVec 12} {j : Instr} (h : decodeGroup2 op i = .ok j) :
    DecodesTo (.half (half2 op i)) j :=
  ⟨_, h ▸ decodeFirst_half2 op i⟩

theorem decodesTo_wordI14 {m : BitVec 6} {k : BitVec 5 → BitVec 5 → BitVec 14 → Instr} {d a : BitVec 5} {imm : BitVec 14}
    (hm : majorAssigned m = true)
    (hdec : ∀ w, fieldOf w 24 6 = m → decode32 w = .ok (k (fieldOf w 19 5) (fieldOf w 14 5) (fieldOf w 0 14))) :
    DecodesTo (.word (wordI14 m d a imm)) (k d a imm) := by
  obtain ⟨e1, e2, e3, e4⟩ := fields_wordI14 m d a imm
  refine ⟨Laws.Length.top_wordI14 .., e1.symm ▸ hm, ?_⟩
  rw [hdec _ e1, e2, e3, e4]

/-- The shifts, whose upper immediate bits are 0 (03 R85). -/
theorem decodesTo_shift {m : BitVec 6} {k : BitVec 5 → BitVec 5 → BitVec 6 → Instr} {d a : BitVec 5} {imm : BitVec 6}
    (hm : majorAssigned m = true)
    (hdec : ∀ w, fieldOf w 24 6 = m → decode32 w = decodeShift k (fieldOf w 19 5) (fieldOf w 14 5) (fieldOf w 0 14)) :
    DecodesTo (.word (wordI14 m d a (0#8 ++ imm))) (k d a imm) := by
  obtain ⟨e1, e2, e3, e4⟩ := fields_wordI14 m d a (0#8 ++ imm)
  refine ⟨Laws.Length.top_wordI14 .., e1.symm ▸ hm, ?_⟩
  rw [hdec _ e1, e2, e3, e4, decodeShift, extract_append_high, extract_append_low]
  rfl

/-- The loads and stores of the M format (03 R84, 04 R109). -/
theorem decodesTo_wordM {m : BitVec 6} {dec : BitVec 5 → BitVec 5 → BitVec 3 → BitVec 2 → BitVec 9 → Dec} {v b : BitVec 5}
    {k : BitVec 3} {o : BitVec 2} {f : BitVec 9} {i : Instr} (hm : majorAssigned m = true)
    (hdec : ∀ w, fieldOf w 24 6 = m →
      decode32 w = dec (fieldOf w 19 5) (fieldOf w 14 5) (fieldOf w 11 3) (fieldOf w 9 2) (fieldOf w 0 9))
    (h : dec v b k o f = .ok i) : DecodesTo (.word (wordM m v b k o f)) i := by
  obtain ⟨e1, e2, e3, e4, e5, e6⟩ := fields_wordM m v b f k o
  refine ⟨Laws.Length.top_wordM .., e1.symm ▸ hm, ?_⟩
  rw [hdec _ e1, e2, e3, e4, e5, e6, h]

theorem decodesTo_wordJ {m : BitVec 6} {k : BitVec 24 → Instr} {o : BitVec 24} (hm : majorAssigned m = true)
    (hdec : ∀ w, fieldOf w 24 6 = m → decode32 w = .ok (k (fieldOf w 0 24))) :
    DecodesTo (.word ((3 : BitVec 2) ++ m ++ o)) (k o) := by
  have e : fieldOf ((3 : BitVec 2) ++ m ++ o) 24 6 = m ∧ fieldOf ((3 : BitVec 2) ++ m ++ o) 0 24 = o := by
    simp (disch := decide) only [BitVec.extractLsb'_append_eq_of_le, BitVec.extractLsb'_append_eq_of_add_le]
    exact ⟨BitVec.extractLsb'_eq_self, BitVec.extractLsb'_eq_self⟩
  refine ⟨Laws.Length.top_j .., e.1.symm ▸ hm, ?_⟩
  rw [hdec _ e.1, e.2]

theorem fields_wordLi (m : BitVec 6) (d : BitVec 5) (i : BitVec 19) : fieldOf ((3 : BitVec 2) ++ m ++ d ++ i) 24 6 = m ∧
    fieldOf ((3 : BitVec 2) ++ m ++ d ++ i) 19 5 = d ∧ fieldOf ((3 : BitVec 2) ++ m ++ d ++ i) 0 19 = i := by
  simp (disch := decide) only [BitVec.extractLsb'_append_eq_of_le, BitVec.extractLsb'_append_eq_of_add_le]
  exact ⟨BitVec.extractLsb'_eq_self, BitVec.extractLsb'_eq_self, BitVec.extractLsb'_eq_self⟩

theorem fields_wordLix (m : BitVec 6) (k : BitVec 3) (i : BitVec 21) : fieldOf ((3 : BitVec 2) ++ m ++ k ++ i) 24 6 = m ∧
    fieldOf ((3 : BitVec 2) ++ m ++ k ++ i) 21 3 = k ∧ fieldOf ((3 : BitVec 2) ++ m ++ k ++ i) 0 21 = i := by
  simp (disch := decide) only [BitVec.extractLsb'_append_eq_of_le, BitVec.extractLsb'_append_eq_of_add_le]
  exact ⟨BitVec.extractLsb'_eq_self, BitVec.extractLsb'_eq_self, BitVec.extractLsb'_eq_self⟩

theorem fields_wordServe (m : BitVec 6) (d a : BitVec 5) (n r : BitVec 3) (s : BitVec 8) :
    let w := (3 : BitVec 2) ++ m ++ d ++ a ++ n ++ r ++ s
    fieldOf w 24 6 = m ∧ fieldOf w 19 5 = d ∧ fieldOf w 14 5 = a ∧ fieldOf w 11 3 = n ∧ fieldOf w 8 3 = r ∧ fieldOf w 0 8 = s := by
  simp (disch := decide) only [BitVec.extractLsb'_append_eq_of_le, BitVec.extractLsb'_append_eq_of_add_le]
  exact ⟨BitVec.extractLsb'_eq_self, BitVec.extractLsb'_eq_self, BitVec.extractLsb'_eq_self, BitVec.extractLsb'_eq_self,
    BitVec.extractLsb'_eq_self, BitVec.extractLsb'_eq_self⟩

theorem decodesTo_li (d : BitVec 5) (i : BitVec 19) : DecodesTo (encodeWords (.li d i)) (.li d i) := by
  obtain ⟨hm, hd, hi⟩ := fields_wordLi 0x0B d i
  refine ⟨Laws.Length.top_li .., hm.symm ▸ rfl, ?_⟩
  unfold decode32
  rw [hm, hd, hi]
  rfl

theorem decodesTo_lix (k : BitVec 3) (i : BitVec 21) : DecodesTo (encodeWords (.lix k i)) (.lix k i) := by
  obtain ⟨hm, hk, hi⟩ := fields_wordLix 0x0C k i
  refine ⟨Laws.Length.top_lix .., hm.symm ▸ rfl, ?_⟩
  unfold decode32
  rw [hm, hk, hi]
  rfl

theorem decodesTo_serve (d a : BitVec 5) (n r : BitVec 3) (s : BitVec 8) (h : serveRanges d a n r = true) :
    DecodesTo (encodeWords (.serve d a n r s)) (.serve d a n r s) := by
  obtain ⟨hm, hd, ha, hn, hr, hs⟩ := fields_wordServe 0x30 d a n r s
  refine ⟨Laws.Length.top_serve .., hm.symm ▸ rfl, ?_⟩
  unfold decode32
  rw [hm, hd, ha, hn, hr, hs]
  exact if_pos h

theorem decodesTo_udf (x : BitVec 10) : DecodesTo (encodeWords (.udf x)) (.udf x) := by
  refine ⟨(0#6 ++ x).setWidth 32, ?_⟩
  have e : (0#6 ++ x : BitVec 16).extractLsb' 14 2 = 0 ∧ (0#6 ++ x : BitVec 16).extractLsb' 10 4 = 0 ∧
      (0#6 ++ x : BitVec 16).extractLsb' 0 10 = x := by
    simp (disch := decide) only [BitVec.extractLsb'_append_eq_of_le, BitVec.extractLsb'_append_eq_of_add_le]
    exact ⟨rfl, rfl, BitVec.extractLsb'_eq_self⟩
  obtain ⟨htop, hop, hx⟩ := e
  unfold decodeFirst decodeGroup0
  rw [BitVec.ofNat_eq_ofNat, htop, hop, hx]
  rfl

/-- A narrow field stands in the low bits of a wider one whose upper bits are 0. -/
theorem zeroIf_narrow {n m : Nat} {x : BitVec m} {c : BitVec n → Bool} {k : BitVec m → Instr} (h : c 0 = true) :
    zeroIf (c ((0#n ++ x).extractLsb' m n)) (k ((0#n ++ x).extractLsb' 0 m)) = .ok (k x) := by
  rw [extract_append_high, extract_append_low, show c 0#n = true from h]
  rfl

theorem zeroIf_eq_ok {c : Bool} {i j : Instr} : zeroIf c i = .ok j ↔ c = true ∧ i = j := by
  cases c <;> simp [zeroIf]

/-! The A-format majors (03 R83, 04 R105). -/

section
variable {d a b : BitVec 5} {f : BitVec 9} {i : Instr}

theorem decodesTo_int (h : decodeInt d a b f = .ok i) : DecodesTo (.word (wordA 0x00 d a b f)) i :=
  decodesTo_wordA rfl (fun w => (majorRow w).2 _) h

theorem decodesTo_xop (h : decodeXop d a b f = .ok i) : DecodesTo (.word (wordA 0x0D d a b f)) i :=
  decodesTo_wordA rfl (fun w => (majorRow w).2 _) h

theorem decodesTo_memx (h : decodeMemx d a b f = .ok i) : DecodesTo (.word (wordA 0x12 d a b f)) i :=
  decodesTo_wordA rfl (fun w => (majorRow w).2 _) h

theorem decodesTo_atom (h : decodeAtom d a b f = .ok i) : DecodesTo (.word (wordA 0x13 d a b f)) i :=
  decodesTo_wordA rfl (fun w => (majorRow w).2 _) h

theorem decodesTo_fence (h : decodeFence d a b f = .ok i) : DecodesTo (.word (wordA 0x14 d a b f)) i :=
  decodesTo_wordA rfl (fun w => (majorRow w).2 _) h

theorem decodesTo_jreg (h : decodeJreg d a b f = .ok i) : DecodesTo (.word (wordA 0x1A d a b f)) i :=
  decodesTo_wordA rfl (fun w => (majorRow w).2 _) h

theorem decodesTo_fp (h : decodeFp d a b f = .ok i) : DecodesTo (.word (wordA 0x24 d a b f)) i :=
  decodesTo_wordA rfl (fun w => (majorRow w).2 _) h

theorem decodesTo_fcvt (h : decodeFcvt d a b f = .ok i) : DecodesTo (.word (wordA 0x25 d a b f)) i :=
  decodesTo_wordA rfl (fun w => (majorRow w).2 _) h

theorem decodesTo_pk (h : decodePk d a b f = .ok i) : DecodesTo (.word (wordA 0x28 d a b f)) i :=
  decodesTo_wordA rfl (fun w => (majorRow w).2 _) h

theorem decodesTo_rng (h : decodeRng d a b f = .ok i) : DecodesTo (.word (wordA 0x29 d a b f)) i :=
  decodesTo_wordA rfl (fun w => (majorRow w).2 _) h

theorem decodesTo_sync (h : decodeSync d a b f = .ok i) : DecodesTo (.word (wordA 0x2C d a b f)) i :=
  decodesTo_wordA rfl (fun w => (majorRow w).2 _) h

theorem decodesTo_task (h : decodeTask d a b f = .ok i) : DecodesTo (.word (wordA 0x2D d a b f)) i :=
  decodesTo_wordA rfl (fun w => (majorRow w).2 _) h

theorem decodesTo_eng (h : decodeEng d a b f = .ok i) : DecodesTo (.word (wordA 0x31 d a b f)) i :=
  decodesTo_wordA rfl (fun w => (majorRow w).2 _) h

theorem decodesTo_tile (h : decodeTile d a b f = .ok i) : DecodesTo (.word (wordA 0x34 d a b f)) i :=
  decodesTo_wordA rfl (fun w => (majorRow w).2 _) h

theorem decodesTo_count (h : decodeCount d a b f = .ok i) : DecodesTo (.word (wordA 0x35 d a b f)) i :=
  decodesTo_wordA rfl (fun w => (majorRow w).2 _) h

theorem decodesTo_sys (h : decodeSys d a b f = .ok i) : DecodesTo (.word (wordA 0x38 d a b f)) i :=
  decodesTo_wordA rfl (fun w => (majorRow w).2 _) h

end

/-- The words of a well-formed instruction that has an encoding decode to it. -/
def RoundTrips (i : Instr) : Prop := i.wf = true → i.len ≠ 0 → DecodesTo (encodeWords i) i

section
variable {i : Instr}

theorem roundTrips_of (h : DecodesTo (encodeWords i) i) : RoundTrips i := fun _ _ => h

theorem roundTrips_of_wf (h : i.wf = true → DecodesTo (encodeWords i) i) : RoundTrips i := fun hwf _ => h hwf

theorem roundTrips_of_len (h : i.len = 0) : RoundTrips i := fun _ hne => (hne h).elim

end

theorem roundTrips (i : Instr) : RoundTrips i := by
  cases i
  case add | sub | mul | mulh | mulhn | div | divn | rem | remn | and | or | xor | andn | orn | shl | shr | sra | rol | ror |
      min | max | minn | maxn | slt | sltn | seq | sne | clz | ctz | popc | brev | bswap | sext | zext | bfx | bfi | cmovz |
      cmovnz | addw | subw | mulw | shlw | shrw | sraw =>
    exact roundTrips_of (decodesTo_int rfl)
  case jr | jlr =>
    exact roundTrips_of (decodesTo_jreg rfl)
  case rngp | rngf64 | rngf32 =>
    exact roundTrips_of (decodesTo_rng rfl)
  case rpinit | rparr | rpexp | rpwait | rptest | dcdec | fres | fpois | fwait | flink | ftest =>
    exact roundTrips_of (decodesTo_sync rfl)
  case strm | strmr | copy | copyp | gather | umbra | publish | rcopy =>
    exact roundTrips_of (decodesTo_eng rfl)
  case talloc | tfree | tshape | tshget | tld | tst | tzero | tmma | tadd | tmul | tmax | trsum | trmax | texp2 | tscan | tcvt |
      tgete | tsete | tchain | tsync =>
    exact roundTrips_of (decodesTo_tile rfl)
  case mov16 | add16 | sub16 | and16 | or16 | xor16 | shl16 | shr16 | sra16 | ldd16 | std16 | ldw16 | stw16 | jr16 | jlr16 |
      nop16 | ret16 | exit16 | yield16 =>
    exact roundTrips_of (decodesTo_half0 rfl)
  case addi16 | li16 | ldsp | stsp | beqz | bnez =>
    exact roundTrips_of (decodesTo_half1 rfl)
  case j16 | jl16 | trap16 =>
    exact roundTrips_of (decodesTo_half2 rfl)
  case addi | addwi | andi | ori | xori | slti | sltni | beq | bne | blt | bge | bltn | bgen =>
    exact roundTrips_of (decodesTo_wordI14 (by decide) fun w => (majorRow w).2 _)
  case shli | shri | srai =>
    exact roundTrips_of (decodesTo_shift (by decide) fun w => (majorRow w).2 _)
  case illegalEncoding | instructionFetchFault | taskForwardArrive | taskDispatch | rangeInstancePlace | rangeSteal | taskAging
      | checkpointTake | summitHolderDispatch | summitReport | commit | irrevocableCommit | tileRequestGrant | tileQueueExecute |
      tchainMessageArrive | directoryUpdate | memoryAccessRetire | rdcInvalidate | walkComplete | engineLineDeliver |
      engineComplete | publishFlip | imageFetchDone | imageLoadDone | packetEntry | elementFire | ageAccessComplete | delayEmit |
      streamEngineEmit | serveResultsReturn | streamComplete | streamFatalStop | fabricRelease | rateWindow | belayGrant |
      belayStretchLimit | tailDoorbell | svcheadWrite | eventHandoff | pad | nopPacket | launch | signalResolve | signalRopeBytes
      | signalBadKind | waitf | waitfResolved | reply | queueSwitchOut | queueSwitchIn | watchdogExpire | watchdogRecovery |
      hostCxlMemAccess | atsPageResponse | rcopyRemoteArrival | pdescWrite | pshareWrite | umbpoolWrite | sdctlShootdown |
      shootdownReceive | s2Install | s2Free | s2Protect | s2cmdUnassigned | frameScrubDone | protectWritebackDone | s2wakeWrite |
      ctxcmdSliceEnd | terminatorTokenArrive | ctxcmdStop | ctxcmdFabricDrain | ctxcmdDirtyReport | ctxcmdIgnored |
      fabricHangReport | functionLevelReset | pcapWrite | watchSample | patrolScrub | datapathErrorLate | deviceResetBoot |
      registerWrite | queueRearm | cxlLinkTraining | flitCrcReplay | spdmRequest | recoveryImageWrite | vfResetComplete =>
    exact roundTrips_of_len rfl
  case calloc | cfree => exact roundTrips_of (decodesTo_count rfl)
  case xmov k a => exact roundTrips_of (decodesTo_xop (zeroIf_narrow (c := fun x => x == 0 && 0 == 0) (k := fun x => .xmov x a) rfl))
  case movgx d k => exact roundTrips_of (decodesTo_xop (zeroIf_narrow (c := fun x => x == 0 && 0 == 0) (k := fun x => .movgx d x) rfl))
  case xclr k => exact roundTrips_of (decodesTo_xop (zeroIf_narrow (c := fun x => x == 0 && 0 == 0 && 0 == 0) (k := fun x => .xclr x) rfl))
  case waitwp d w b => exact roundTrips_of (decodesTo_task (zeroIf_narrow (c := fun x => x == 0) (k := fun x => .waitwp d x b) rfl))
  case cfmt n a => exact roundTrips_of (decodesTo_count (zeroIf_narrow (c := fun x => x == 0 && 0 == 0) (k := fun x => .cfmt x a) rfl))
  case cstep n a b => exact roundTrips_of (decodesTo_count (zeroIf_narrow (c := fun x => x == 0) (k := fun x => .cstep x a b) rfl))
  case cmerge n =>
    exact roundTrips_of (decodesTo_count (zeroIf_narrow (c := fun x => x == 0 && 0 == 0 && 0 == 0) (k := fun x => .cmerge x) rfl))
  case cdrain d n b => exact roundTrips_of (decodesTo_count (zeroIf_narrow (c := fun x => x == 0) (k := fun x => .cdrain d x b) rfl))
  case cclr n =>
    exact roundTrips_of (decodesTo_count (zeroIf_narrow (c := fun x => x == 0 && 0 == 0 && 0 == 0) (k := fun x => .cclr x) rfl))
  case cdepth d n => exact roundTrips_of (decodesTo_count (zeroIf_narrow (c := fun x => x == 0 && 0 == 0) (k := fun x => .cdepth d x) rfl))
  case shli16 d i => exact roundTrips_of (decodesTo_half1 (zeroIf_narrow (c := fun x => x == 0) (k := fun x => .shli16 d x) rfl))
  case shri16 d i => exact roundTrips_of (decodesTo_half1 (zeroIf_narrow (c := fun x => x == 0) (k := fun x => .shri16 d x) rfl))
  case udf x => exact roundTrips_of (decodesTo_udf x)
  case ldb v b o i | ldbz v b o i | ldh v b o i | ldhz v b o i | ldw v b o i | ldwz v b o i | ldd v b o i =>
    refine roundTrips_of (decodesTo_wordM (dec := fun v b k o f => decodeLd v b k o f) (by decide) (fun w => (majorRow w).2 _) ?_)
    delta decodeLd
    rw [memOrderOf_bits]
    rfl
  case stb | sth | stw | std =>
    refine roundTrips_of (decodesTo_wordM (dec := decodeSt) (by decide) (fun w => (majorRow w).2 _) ?_)
    delta decodeSt
    rw [memOrderOf_bits]
    rfl
  case fadd d a b f m | fsub d a b f m | fmul d a b f m | fdiv d a b f m | fmad d a b f m | fnmad d a b f m =>
    exact roundTrips_of (decodesTo_fp ((fpRow d a b).2 _ f m))
  case fsqrt d a f m | frnd d a f m => exact roundTrips_of (decodesTo_fp ((fpRow d a 0).2 _ f m))
  case fmin d a b f | fmax d a b f | fcpys d a b f | feq d a b f | flt d a b f | fle d a b f =>
    exact roundTrips_of (decodesTo_fp ((fpRow d a b).2 _ f .rne))
  case fneg d a f | fabs d a f | fclass d a f => exact roundTrips_of (decodesTo_fp ((fpRow d a 0).2 _ f .rne))
  case ftoi d a f m | fton d a f m => exact roundTrips_of (decodesTo_fcvt ((fcvtRow d a 0).2 _ .f64 f m))
  case itof d a f m | ntof d a f m => exact roundTrips_of (decodesTo_fcvt ((fcvtRow d a 0).2 _ f .f64 m))
  case b8tof d a f => exact roundTrips_of (decodesTo_fcvt ((fcvtRow d a 0).2 _ f .f64 .rne))
  case ftob8 d a f => exact roundTrips_of (decodesTo_fcvt ((fcvtRow d a 0).2 _ .f64 f .rne))
  case fcvt d a t s m =>
    refine roundTrips_of_wf fun hwf => decodesTo_fcvt (((fcvtRow d a 0).2 _ t s m).trans ?_)
    replace hwf : (t != s && (!exactWidening t s || m == .rne)) = true := hwf
    rw [Bool.and_eq_true, bne_iff_ne] at hwf
    obtain ⟨hne, hm⟩ := hwf
    have hmode : (roundModeBits m == 0) = (m == .rne) := by cases m <;> rfl
    refine (if_neg hne).trans (zeroIf_eq_ok.2 ⟨?_, rfl⟩)
    rw [hmode, hm]
    rfl
  case padd d a b h | psub d a b h | pmul d a b h | padds d a b h | psubs d a b h | pmin d a b h | pmax d a b h | pminn d a b h |
      pmaxn d a b h | pceq d a b h | pcgt d a b h | pshuf d a b h | pdot d a b h =>
    exact roundTrips_of (decodesTo_pk ((pkRow d a b).2 _ h))
  case aadd d a b s o c | aand d a b s o c | aor d a b s o c | axor d a b s o c | amin d a b s o c | amax d a b s o c |
      aminn d a b s o c | amaxn d a b s o c | aswap d a b s o c | cas d a b s o c =>
    exact roundTrips_of (decodesTo_atom ((atomRow d a b).2 _ s o c))
  case ldx =>
    refine roundTrips_of (decodesTo_memx ?_)
    delta decodeMemx
    rw [fields_3321.1, fields_3321.2.1, fields_3321.2.2.1, fields_3321.2.2.2, memOrderOf_bits, ldKindOf_bits]
    rfl
  case stx =>
    refine roundTrips_of (decodesTo_memx ?_)
    delta decodeMemx
    rw [fields_3321.1, fields_3321.2.1, fields_3321.2.2.1, fields_3321.2.2.2, memOrderOf_bits, stKindOf_bits]
    rfl
  case fence o c =>
    refine roundTrips_of_wf fun hwf => decodesTo_fence ?_
    have ho : (atomOrderBits o == 0) = false := by
      cases o
      case rlx => cases hwf
      all_goals rfl
    simp only [decodeFence, fields_522, ho, atomOrderOf_bits, scopeOf_bits]
    rfl
  case fencei => exact roundTrips_of (decodesTo_fence rfl)
  case sysc | eret | cyc | perf | cinv | tlbinv | brk | nop | wake | halt =>
    exact roundTrips_of (decodesTo_sys rfl)
  case spawn | spawnr | exit | yield | tkey | rsset | rsclr | rsqry | msnd | mrcv | clid =>
    exact roundTrips_of (decodesTo_task rfl)
  case trap c =>
    refine roundTrips_of (decodesTo_sys ?_)
    have hc : (c.extractLsb' 10 2 ++ c.extractLsb' 5 5 ++ c.extractLsb' 0 5 : BitVec 12) = c := by
      simp only [BitVec.extractLsb'_append_extractLsb'_eq_extractLsb']
      exact BitVec.extractLsb'_eq_self
    refine (zeroIf_narrow (c := fun x => x == 0) (k := fun x => .trap (x ++ c.extractLsb' 5 5 ++ c.extractLsb' 0 5)) rfl).trans ?_
    rw [hc]
  case mfs d n | mts d n =>
    refine roundTrips_of_wf fun hwf => decodesTo_sys ?_
    have hn : (n.extractLsb' 5 5 ++ n.extractLsb' 0 5 : BitVec 10) = n := by
      simp only [BitVec.extractLsb'_append_extractLsb'_eq_extractLsb']
      exact BitVec.extractLsb'_eq_self
    refine (if_pos (hn.symm ▸ hwf)).trans ?_
    rw [hn]
  case j o | jl o => exact roundTrips_of (decodesTo_wordJ (by decide) fun w => (majorRow w).2 _)
  case li d i => exact roundTrips_of (decodesTo_li d i)
  case lix k i => exact roundTrips_of (decodesTo_lix k i)
  case serve d a n r s => exact roundTrips_of_wf fun hwf => decodesTo_serve d a n r s hwf

/-- Settles O57: each constructor's word has the fields it was put together from, and its major reads them back. -/
theorem decodingInvertsEncoding : Obligations.DecodingInvertsEncoding :=
  fun i rest hwf hlen => decodeBytes_encode (roundTrips i hwf hlen) rest

/-- Settles O56: each word evaluates to its instruction. -/
theorem decodedWords : Obligations.DecodedWords :=
  ⟨rfl, rfl, rfl, rfl, rfl, rfl, rfl, rfl, rfl, rfl, rfl, rfl, rfl, rfl, rfl, rfl, rfl, rfl⟩

end Sys2Proof.Proofs

/-! The values after reset, and one step of the device. -/

namespace Sys2Proof.Proofs

open Sys2Proof.Machine Sys2Proof.Claims

-- The whole text is compiled as one file in bounded memory; one thread at a time needs the least of it.
set_option Elab.async false

/-- Settles O59: every table of the reset state is empty, so each part of it reads as its own reset value. -/
theorem resetLeavesTheStatedValues : Obligations.ResetLeavesTheStatedValues :=
  ⟨State.memWf_reset, rfl, rfl, rfl, nofun,
    fun _ => ⟨rfl, rfl, rfl, rfl, rfl, rfl, rfl, rfl, rfl, rfl, rfl, rfl, fun _ => rfl, rfl, rfl⟩⟩

/-! ### What the bytes of the memories depend on -/

/-- No byte depends on more than the memories, the stage-2 maps, the windows and the place of the partitions. -/
theorem sameBytes_of_memories {s t : State} (hmem : t.mem = s.mem) (hhost : t.hostMem = s.hostMem) (hs2 : t.s2map = s.s2map)
    (hparts : ∀ p, (t.part p).pdesc = (s.part p).pdesc ∧ (t.part p).conf = (s.part p).conf)
    (hscratch : ∀ c, (t.cluster c).scratch = (s.cluster c).scratch) : SameBytes s t := by
  have hfirst (p : Nat) : (t.part p).first = (s.part p).first := by rw [Part.first, (hparts p).1, Part.first]
  have hlast (p : Nat) : (t.part p).last = (s.part p).last := by rw [Part.last, (hparts p).1, Part.last]
  have hgpa (p g : Nat) : t.gpaByte p g = s.gpaByte p g := by
    simp only [State.gpaByte, State.physOf, State.s2, hfirst, hlast, hs2, hmem]
  intro l
  cases l with
  | dram p g => simp only [State.byteAt, Part.windowAt, (hparts p).2, hgpa]
  | scratch c o => exact congrArg (Memory.read · o) (hscratch c)
  | phys a => exact congrArg (Memory.read · a) hmem
  | host a => exact congrArg (Memory.read · a) hhost

theorem sameBytes_mapDie (s : State) (d : Nat) (f : Die → Die) : SameBytes s (s.mapDie d f) :=
  sameBytes_of_memories rfl rfl rfl (fun _ => ⟨rfl, rfl⟩) fun _ => rfl

/-! ### The instruction at the PC (03 R77, R78) -/

theorem fetch_short {s t : State} {b0 b1 : Byte} {i : Instr} (hlegal : s.fetchFaultKind s.pc = none)
    (hhalf : s.fetchHalf s.pc = .ok (halfOf b0 b1) t) (hdec : decodeBytes [b0, b1] = some (i, [])) : s.fetch = .ok i t := by
  simp only [decodeBytes] at hdec
  rw [State.fetch, hlegal, hhalf]
  cases hfirst : decodeFirst (halfOf b0 b1) with
  | done r w =>
    rw [hfirst] at hdec
    simp only [Option.some.injEq, Prod.mk.injEq, and_true] at hdec
    simp only [Option.isSome_none, Bool.false_eq_true, if_false, Acc.bind_ok, hfirst, hdec]
  | more =>
    rw [hfirst] at hdec
    cases hdec

theorem fetch_long {s t u : State} {b0 b1 b2 b3 : Byte} {i : Instr} (hlegal : s.fetchFaultKind s.pc = none)
    (hhalf : s.fetchHalf s.pc = .ok (halfOf b0 b1) u) (hmore : decodeBytes [b0, b1] = none)
    (hlegal2 : u.fetchFaultKind (u.pc + 2) = none) (hhalf2 : u.fetchHalf (u.pc + 2) = .ok (halfOf b2 b3) t)
    (hdec : decodeBytes [b0, b1, b2, b3] = some (i, [])) : s.fetch = .ok i t := by
  simp only [decodeBytes] at hmore hdec
  rw [State.fetch, hlegal, hhalf]
  cases hfirst : decodeFirst (halfOf b0 b1) with
  | done r w =>
    rw [hfirst] at hmore
    cases hmore
  | more =>
    rw [hfirst] at hdec
    simp only [Option.some.injEq, Prod.mk.injEq, and_true] at hdec
    simp only [Option.isSome_none, Bool.false_eq_true, if_false, Acc.bind_ok, hfirst, hlegal2, hhalf2, hdec]

theorem step_of_fetchesAs {s t : State} {i : Instr} (h : FetchesAs s t i) : step s = finishStep true (exec i t) := by
  obtain ⟨hidle, ⟨hready, hckpt⟩, hlegal, hbytes⟩ := h
  have hfetch : s.fetch = .ok i t := by
    rcases hbytes with ⟨b0, b1, hhalf, hdec⟩ | ⟨b0, b1, b2, b3, u, hhalf, hmore, hlegal2, hhalf2, hdec⟩
    · exact fetch_short hlegal hhalf hdec
    · exact fetch_long hlegal hhalf hmore hlegal2 hhalf2 hdec
  have hdue : s.checkpointDue = s := by simp [State.checkpointDue, hckpt]
  rw [step, hidle]
  simp only [State.threadStep, hdue, State.ready, hready, decide_true, if_true, hfetch, Acc.andThen]

/-! ### The end of a step (01 R16) -/

theorem turn_of_noneReady {u : State} (h : ∀ th ∈ u.others, th.wait ≠ .ready) : u.turn = u := by
  have hempty : u.others.filter (fun th => decide (th.wait = .ready)) = [] := by simpa using h
  rw [State.turn, hempty]
  rfl

theorem focus_cases (u : State) (t : Tid) :
    u.focus t = u ∨ ∃ th others, u.others.find? (fun x => decide (x.id = t)) = some th ∧
      u.focus t = { u with cur := th, others := others } := by
  unfold State.focus
  split
  · exact .inl rfl
  · split
    · exact .inl rfl
    next th hth => exact .inr ⟨th, _, hth, rfl⟩

/-- A turn moves thread contexts and takes a free value, and does nothing else. -/
theorem turn_eq (u : State) : ∃ cur others fresh rotation, u.turn = { u with cur := cur, others := others, fresh := fresh, rotation := rotation } := by
  unfold State.turn
  dsimp only
  split
  · exact ⟨u.cur, u.others, u.fresh, u.rotation, rfl⟩
  · split
    · exact ⟨_, _, _, _, rfl⟩
    next th _ =>
      rcases focus_cases { u.freeW.2 with rotation := if u.rotation = 0 then u.freeW.1.toNat % 2 ^ 16 else u.rotation - 1 } th.id with
        h | ⟨x, others, -, h⟩
      · exact ⟨_, _, _, _, h⟩
      · exact ⟨x, others, _, _, h⟩

theorem tick_turn (u : State) : u.turn.tick = u.tick := by
  obtain ⟨cur, others, fresh, rotation, h⟩ := turn_eq u
  rw [h]

theorem tick_lt_endStep (u : State) : u.tick < u.endStep.tick := by
  show u.tick < u.turn.tick + 1 + _
  rw [tick_turn]
  lia

theorem sameBytes_endStep (u : State) : SameBytes u u.endStep := by
  obtain ⟨cur, others, fresh, rotation, h⟩ := turn_eq u
  rw [State.endStep, h]
  exact sameBytes_of_memories rfl rfl rfl (fun _ => ⟨rfl, rfl⟩) fun _ => rfl

/-- When the rotation is at its end, the first ready thread, which has waited longest, has its turn. -/
theorem turn_longestWaiting {u : State} {th : Thread} (hfirst : u.others.find? (fun x => decide (x.wait = .ready)) = some th)
    (hrot : u.rotation = 0) : u.turn.cur.id = th.id := by
  have hhead : (u.others.filter fun x => decide (x.wait = .ready))[0]? = some th := by
    rw [← List.head?_eq_getElem?, List.head?_filter, hfirst]
  have hne : (u.others.filter fun x => decide (x.wait = .ready)).isEmpty = false := by
    cases hl : u.others.filter fun x => decide (x.wait = .ready) with
    | nil => rw [hl] at hhead; cases hhead
    | cons => rfl
  simp only [State.turn, hne, Bool.false_eq_true, if_false, hrot, if_true, hhead, State.focus]
  split
  next h => exact h
  · split
    next hnone =>
      have := List.find?_eq_none.1 hnone th (List.mem_of_find?_eq_some hfirst)
      simp at this
    next x hx =>
      have hid := List.find?_some hx
      exact of_decide_eq_true hid

/-! ### The choice of a move (log 1) -/

theorem step_oldestMove {s : State} {m : Move} {rest : List Move} (hagenda : s.agenda = m :: rest) (hpat : s.patience = 0)
    (hret : s.retiring m = none) :
    ∃ t : State, step s = finishStep m.turns (t.runMove m) ∧ t = { s with agenda := rest, fresh := t.fresh, patience := t.patience } := by
  have horder : s.arrivalOrder 0 = 0 := by simp [State.arrivalOrder, hagenda, hret]
  have hchoose : s.choose =
      (some m, { s with agenda := rest, fresh := s.fresh + 1, patience := 1 + s.freeW.1.toNat % 2 ^ 16 }) := by
    simp only [State.choose, hpat, if_true, horder, hagenda, List.getElem?_cons_zero, List.eraseIdx_zero, List.tail_cons]
    rfl
  exact ⟨{ s with agenda := rest, fresh := s.fresh + 1, patience := 1 + s.freeW.1.toNat % 2 ^ 16 },
    by rw [step, hagenda]; simp only [hchoose], rfl⟩

/-! ### A halfword from its home (05 R124) -/

/-- What a read at a home leaves noted changes an invalidation queue at most. -/
theorem noteSeen_cases (s : State) (cl who : Nat) (l : Loc) :
    s.noteSeen cl who l = s ∨ ∃ q : Die → List RdcInv, s.noteSeen cl who l = s.mapDie (dieOfCluster cl) fun k => { k with rdcInv := q k } := by
  unfold State.noteSeen
  split
  · dsimp only
    split
    · exact .inr ⟨_, rfl⟩
    · exact .inl rfl
  · exact .inl rfl

theorem cur_noteSeen (s : State) (cl who : Nat) (l : Loc) : (s.noteSeen cl who l).cur = s.cur := by
  rcases noteSeen_cases s cl who l with h | ⟨q, h⟩ <;> rw [h] <;> rfl

theorem sameBytes_noteSeen (s : State) (cl who : Nat) (l : Loc) : SameBytes s (s.noteSeen cl who l) := by
  rcases noteSeen_cases s cl who l with h | ⟨q, h⟩ <;> rw [h]
  · exact fun _ => rfl
  · exact sameBytes_mapDie _ _ _

theorem cluster_noteSeen (s : State) (cl who : Nat) (l : Loc) (c : Nat) : (s.noteSeen cl who l).cluster c = s.cluster c := by
  rcases noteSeen_cases s cl who l with h | ⟨q, h⟩ <;> rw [h] <;> rfl

theorem homeCluster_noteSeen (s : State) (cl who : Nat) (l : Loc) (th : Thread) :
    (s.noteSeen cl who l).homeCluster th = s.homeCluster th := by
  rcases noteSeen_cases s cl who l with h | ⟨q, h⟩ <;> rw [h] <;> rfl

theorem cachedLine_noteSeen (s : State) (cl who : Nat) (l l' : Loc) (c : Nat) : (s.noteSeen cl who l).cachedLine c l' = s.cachedLine c l' := by
  rcases noteSeen_cases s cl who l with h | ⟨q, h⟩ <;> rw [h]
  cases l' with
  | dram p g =>
    have hrdc : ((s.mapDie (dieOfCluster cl) fun k => { k with rdcInv := q k }).die (dieOfCluster c)).rdc = (s.die (dieOfCluster c)).rdc := by
      rw [State.die_mapDie]
      split
      next e => rw [e]
      next => rfl
    simp only [State.cachedLine, hrdc]
    rfl
  | _ => rfl

theorem drop_upFrom : ∀ (k lo n : Nat), (upFrom lo n).drop k = upFrom (lo + k) (n - k)
  | 0, lo, n => rfl
  | k + 1, lo, 0 => by simp [upFrom]
  | k + 1, lo, n + 1 => by
    rw [upFrom, List.drop_succ_cons, drop_upFrom k, Nat.add_sub_add_right, Nat.add_right_comm, Nat.add_assoc]

theorem take_upFrom : ∀ (k lo n : Nat), k ≤ n → (upFrom lo n).take k = upFrom lo k
  | 0, lo, n, _ => rfl
  | k + 1, lo, n + 1, h => by rw [upFrom, List.take_succ_cons, take_upFrom k _ _ (Nat.le_of_succ_le_succ h), upFrom]

theorem map_upFrom {α : Type} (f : Nat → α) : ∀ (n lo : Nat), (upFrom lo n).map f = (upFrom 0 n).map fun k => f (lo + k)
  | 0, _ => rfl
  | n + 1, lo => by
    rw [upFrom, List.map_cons, map_upFrom f n, upFrom, List.map_cons, map_upFrom _ n (0 + 1)]
    simp only [Nat.add_zero, Nat.add_assoc, Nat.zero_add]

/-- A copy of the home's line holds the bytes of the home. -/
theorem homeLine_data (s : State) (p g : Nat) {n : Nat} (h : g % 64 + n ≤ 64) :
    ((s.homeLine p g).get (g % 64) n).1 = s.bytesAt (.dram p g) n := by
  have hbase (k : Nat) : (Loc.dram p (g - g % 64)).shift (0 + g % 64 + k) = (Loc.dram p g).shift k := by
    have hle := Nat.mod_le g 64
    simp only [Loc.shift, Loc.dram.injEq, true_and]
    lia
  simp only [Line.get, State.homeLine, State.bytesAt]
  rw [← List.map_drop, ← List.map_take, drop_upFrom, take_upFrom _ _ _ (by lia), map_upFrom]
  exact List.map_congr_left fun k _ => congrArg s.byteAt (hbase k)

/-- A fill of an RDC changes the two dies at most. -/
theorem rdcFill_eq (s : State) (cl p g : Nat) (c : Line) : ∃ dies, s.rdcFill cl p g c = { s with dies := dies } := by
  unfold State.rdcFill
  dsimp only
  split
  · exact ⟨s.dies, rfl⟩
  · exact ⟨_, rfl⟩

/-- A load through the caches changes copies only. -/
theorem loadCached_frame (s : State) (cl : Nat) (stream : Bool) (p g n : Nat) :
    (s.loadCached cl stream (.dram p g) n).2.cur = s.cur ∧ SameBytes s (s.loadCached cl stream (.dram p g) n).2 := by
  have halloc (t : State) (c : Line) : SameBytes t (t.mapCluster cl fun k => { k with l1 := l1Insert k.l1 c }) :=
    sameBytes_mapCluster t cl rfl
  have hfill (c : Line) : (s.rdcFill cl p g c).cur = s.cur ∧ SameBytes s (s.rdcFill cl p g c) := by
    obtain ⟨dies, h⟩ := rdcFill_eq s cl p g c
    rw [h]
    exact ⟨rfl, sameBytes_units s s.uidNext s.agenda dies⟩
  simp only [State.loadCached]
  split
  · exact ⟨rfl, fun _ => rfl⟩
  · split
    · cases stream
      · exact ⟨rfl, halloc _ _⟩
      · exact ⟨rfl, fun _ => rfl⟩
    · cases stream
      · exact ⟨(hfill _).1, sameBytes_trans (hfill _).2 (halloc _ _)⟩
      · exact hfill _

/-- A plain load of device memory that no cache holds gives the bytes of its home. -/
theorem loadCached_miss {s : State} {cl p g n : Nat} (stream : Bool) (hmiss : s.cachedLine cl (.dram p g) = none) (h : g % 64 + n ≤ 64) :
    (s.loadCached cl stream (.dram p g) n).1.1 = s.bytesAt (.dram p g) n ∧
    (s.loadCached cl stream (.dram p g) n).2 = (let t := s.rdcFill cl p g (s.homeLine p g)
      if stream then t else t.mapCluster cl fun k => { k with l1 := l1Insert k.l1 (s.homeLine p g) }) := by
  have hl1 : s.l1Copy cl p g = none := by
    cases h : s.l1Copy cl p g with
    | none => rfl
    | some c => simp [State.cachedLine, h] at hmiss
  simp only [State.loadCached, hl1, hmiss]
  exact ⟨homeLine_data s p g h, trivial⟩

theorem fetchHalf_home {s : State} {va : Word} {p g : Nat} (hloc : ∀ r, s.locate va 2 r = .ok (.dram p g) s)
    (hmiss : s.cachedLine s.curCluster (.dram p g) = none) (hhome : s.askHome (.dram p g) false = .granted s)
    (hold : (s.cluster s.curCluster).oldCode = []) (hspec : s.speculative = false) (heven : g % 2 = 0) :
    ∃ t : State, s.fetchHalf va = .ok (halfOf (s.byteAt (.dram p g)) (s.byteAt (.dram p (g + 1)))) t ∧ t.cur = s.cur ∧ SameBytes s t := by
  have hseen : s.structHome (.dram p g) false (fetchTrap 0 va) = .ok () (s.noteSeen s.curCluster s.curUid (.dram p g)) := by
    rw [State.structHome, hhome]
  have hcur := cur_noteSeen s s.curCluster s.curUid (.dram p g)
  have hbytes := sameBytes_noteSeen s s.curCluster s.curUid (.dram p g)
  have hcluster := cluster_noteSeen s s.curCluster s.curUid (.dram p g)
  have hcl : (s.noteSeen s.curCluster s.curUid (.dram p g)).curCluster = s.curCluster := by
    rw [State.curCluster, homeCluster_noteSeen, hcur, State.curCluster]
  have hmiss' := (cachedLine_noteSeen s s.curCluster s.curUid (.dram p g) (.dram p g) s.curCluster).trans hmiss
  generalize s.noteSeen s.curCluster s.curUid (.dram p g) = u at *
  have hspec' : u.speculative = false := by rw [State.speculative, hcur]; exact hspec
  have hnone : u.oldHalves (.dram p g) = [] := by rw [State.oldHalves, hcl, hcluster, hold]; rfl
  have hdata := (loadCached_miss (n := 2) false hmiss' (by lia)).1
  obtain ⟨hcur', hbytes'⟩ := loadCached_frame u s.curCluster false p g 2
  refine ⟨(u.loadCached s.curCluster false (.dram p g) 2).2, ?_, hcur'.trans hcur, sameBytes_trans hbytes hbytes'⟩
  have h0 : u.byteAt (.dram p g) = s.byteAt (.dram p g) := hbytes _
  have h1 : u.byteAt (.dram p (g + 1)) = s.byteAt (.dram p (g + 1)) := hbytes _
  simp only [State.fetchHalf, hloc, Acc.bind_ok, hmiss, Option.isSome_none, Bool.false_eq_true, if_false, hseen, hnone,
    List.isEmpty_nil, if_true, hcl, hdata, hspec', State.bytesAt, upFrom, List.map_cons, List.map_nil, Loc.shift, Nat.add_zero,
    Nat.zero_add, List.headD_cons, List.drop_succ_cons, List.drop_zero, h0, h1]

/-- Settles O55: the fetch decodes what the bytes at the PC say; a turn only moves thread contexts; with no patience left the oldest
move is chosen. -/
theorem stepRunsTheDecodedInstruction : Obligations.StepRunsTheDecodedInstruction := by
  refine ⟨fun s t i => step_of_fetchesAs, fun u => ⟨rfl, tick_lt_endStep u, sameBytes_endStep u, fun h => ?_, fun th hfirst hrot => ?_⟩,
    fun s m rest => step_oldestMove, fun s va p g => fetchHalf_home⟩
  · rw [State.endStep, turn_of_noneReady h]
    exact ⟨rfl, rfl⟩
  · exact turn_longestWaiting hfirst hrot

end Sys2Proof.Proofs

/-! The 16-bit forms (03 R89, 05 R136). -/

namespace Sys2Proof.Proofs

open Sys2Proof.Machine Sys2Proof.Claims

-- The whole text is compiled as one file in bounded memory; one thread at a time needs the least of it.
set_option Elab.async false

/-! ### The register forms -/

/-- The two lengths of a register instruction differ in the PC alone. -/
theorem result_lengths (s : State) (d : Reg) (v : Word) :
    ∃ t, s.result d v 4 = .next t ∧ t.pc = s.pc + 4 ∧ s.result d v 2 = .next (t.setPc (s.pc + 2)) := by
  refine ⟨(s.setG d v).advance 4, rfl, by simp [word], ?_⟩
  have hpc : (s.setG d v).pc = s.pc := by simp
  rw [State.result, State.advance, hpc]
  rfl

/-- An immediate sign-extended in two steps. -/
theorem signExtend_signExtend {w : Nat} (i : BitVec w) {v u : Nat} (hv : w ≤ v) (hu : v ≤ u) :
    (i.signExtend v).signExtend u = i.signExtend u := by
  apply BitVec.eq_of_toInt_eq
  rw [BitVec.toInt_signExtend_of_le hu, BitVec.toInt_signExtend_of_le hv, BitVec.toInt_signExtend_of_le (hv.trans hu)]

/-- A property of the instructions that a table names. -/
def OfNamed {α : Type} (table : Instr → Option α) (P : Instr → α → Prop) (i : Instr) : Prop := ∀ r, table i = some r → P i r

section
variable {α : Type} {table : Instr → Option α} {P : Instr → α → Prop} {i : Instr}

theorem ofNamed_none (h : table i = none) : OfNamed table P i := fun r hr => (Option.some_ne_none r (hr.symm.trans h)).elim

theorem ofNamed_some {r : α} (h : table i = some r) (hP : P i r) : OfNamed table P i := fun _ hr => Option.some.inj (h.symm.trans hr) ▸ hP

end

/-- The two lengths of an instruction do the same, with a PC that has advanced by their lengths. -/
def ActAlike (s : State) (i j : Instr) : Prop :=
  ∃ t, exec j s = .next t ∧ t.pc = s.pc + 4 ∧ exec i s = .next (t.setPc (s.pc + 2))

theorem actAlike_of_result {i j : Instr} {s : State} {d : Reg} {v w : Word} (hj : exec j s = s.result d v 4) (hi : exec i s = s.result d w 2)
    (hv : w = v) : ActAlike s i j := by
  rw [ActAlike, hj, hi, hv]
  exact result_lengths s d v

theorem shortForm_partner (s : State) (i : Instr) : OfNamed partner (ActAlike s) i := by
  cases i
  case mov16 => exact ofNamed_some rfl (actAlike_of_result rfl rfl (BitVec.or_zero).symm)
  case add16 | sub16 | and16 | or16 | xor16 | shl16 | shr16 | sra16 | shli16 | shri16 =>
    exact ofNamed_some rfl (actAlike_of_result rfl rfl rfl)
  case addi16 d imm =>
    refine ofNamed_some rfl (actAlike_of_result rfl rfl ?_)
    rw [simm7, ← signExtend_signExtend imm (by norm_num : 7 ≤ 14) (by norm_num : 14 ≤ 64)]
    rfl
  case li16 d imm => exact ofNamed_some rfl (actAlike_of_result rfl rfl (signExtend_signExtend imm (by norm_num) (by norm_num)).symm)
  case nop16 => exact ofNamed_some rfl ⟨s.advance 4, rfl, rfl, rfl⟩
  all_goals exact ofNamed_none rfl

/-- Settles O11: both lengths of a register form end with `State.result`; the short branches, jumps and links are those of the
32-bit forms with offsets and links of their own. -/
theorem shortFormsActAsTheirPartners : Obligations.ShortFormsActAsTheirPartners := by
  refine ⟨fun i j s => shortForm_partner s i j, ?_, ?_⟩
  · intro d imm s D goes
    exact ⟨branch_goes (by norm_num) rfl, branch_goes (by norm_num) rfl⟩
  · intro src imm s pc hpc S linked
    obtain rfl := eq_target (by norm_num) hpc
    refine ⟨onlyPc_jump s _, link_jump rfl, fun heven => ?_, fun heven => ?_⟩
    · obtain ⟨hjr, hjlr⟩ := jumpReg_even s heven
      have jr : exec (.jr16 src) s = .next (s.jump S) := hjr
      exact ⟨jr ▸ onlyPc_jump s S, link_jump (hjlr (s.pc + 2))⟩
    · have ret : exec .ret16 s = .next (s.jump (s.g 31)) := (jumpReg_even s heven).1
      exact ret ▸ onlyPc_jump s (s.g 31)

/-! ### Taking an exception and returning from it -/

/-- Settles O12: the trap entry of R255 and R256. -/
theorem trapEntryFollowsR255 : Obligations.TrapEntryFollowsR255 := fun _ r h => trapEntry_takeTrap r h

/-- `STATUS` after a return from an exception (10 R262). -/
noncomputable def statusAtReturn (st : Word) : Word := setBits (setBits st 11 2 (bits st 13 2)) 15 1 0

theorem getLsbD_statusAtReturn (st : Word) {i : Nat} (hi : i < 64) : (statusAtReturn st).getLsbD i =
    if i = 15 then false else if i = 11 then st.getLsbD 13 else if i = 12 then st.getLsbD 14 else st.getLsbD i := by
  rw [statusAtReturn, getLsbD_setBits _ _ _ _ hi, getLsbD_setBits _ _ _ _ hi, testBit_bits]
  by_cases h15 : i = 15
  · simp [h15]
  by_cases h11 : i = 11
  · simp [h11]
  by_cases h12 : i = 12
  · simp [h12]
  · rw [if_neg (by lia), if_neg (by lia), if_neg h15, if_neg h11, if_neg h12]

/-- A privileged instruction at or above its mode. -/
theorem privileged_of_le {s : State} {mode : Nat} (h : mode ≤ s.mode) (func : Nat) (o : Out) : s.privileged mode func o = o :=
  if_neg (Nat.not_lt.2 h)

/-- Settles O13: the return writes `STATUS` and then either jumps to `TPC` or takes the misaligned trap in the new mode. -/
theorem returnFromTrap : Obligations.ReturnFromTrap := by
  intro s hmode
  have hexec : exec .eret s = .next s.returnFromTrap := privileged_of_le hmode 2 _
  refine ⟨fun heven => ?_, fun hodd hkind => ?_⟩
  · rw [hexec, State.returnFromTrap_even ((bit_eq_getLsbD _ 0).trans heven)]
    refine ⟨_, rfl, fun _ => rfl, fun _ => rfl, regFrame_jump rfl ?_ rfl, fun i hi => getLsbD_statusAtReturn _ hi⟩
    exact ⟨rfl, rfl, rfl, rfl, rfl, rfl, rfl, rfl⟩
  · rw [hexec, State.returnFromTrap_odd ((bit_eq_getLsbD _ 0).trans hodd)]
    have hta := getLsbD_statusAtReturn s.cur.regs.status (i := 15) (by norm_num)
    refine ⟨s.mapRegs fun r => { r with status := statusAtReturn r.status }, _, rfl, rfl, rfl, ?_, hta,
      trapEntry_takeTrap _ ⟨hkind, hta⟩⟩
    show bits (statusAtReturn s.cur.regs.status) 11 2 = _
    rw [statusAtReturn, bits_setBits_of_apart _ _ (by norm_num) (by norm_num), bits_setBits_same _ _ (by norm_num)]
    exact Nat.mod_eq_of_lt (Nat.mod_lt _ (by norm_num))

end Sys2Proof.Proofs

/-! The instructions that trap, and the traps of privilege (04 R111, R112; 10 R252, R254, R257, R260, R262). -/

namespace Sys2Proof.Proofs

open Sys2Proof.Machine Sys2Proof.Claims

-- The whole text is compiled as one file in bounded memory; one thread at a time needs the least of it.
set_option Elab.async false

/-- A cause and a detail that fit their fields (07 R153). -/
theorem causeInfo_eq_causeWord {cause detail : Nat} (hc : cause < 256) (hd : detail < 2 ^ 32) :
    causeInfo cause detail = causeWord cause detail := by
  rw [causeInfo, Nat.mod_eq_of_lt hc, Nat.mod_eq_of_lt hd]
  rfl

theorem causeInfo_setWidth {cause w : Nat} (hc : cause < 256) (x : BitVec w) (hw : w ≤ 32) :
    causeInfo cause (x.setWidth 64).toNat = causeWord cause x.toNat := by
  have hx := x.isLt.trans_le (Nat.pow_le_pow_right (by norm_num) hw)
  rw [BitVec.toNat_setWidth_of_le (by lia), causeInfo_eq_causeWord hc hx]

/-! ### Fetches that fail (10 R257) -/

theorem inScratchWindow_iff (va : Nat) : inScratchWindow va = true ↔ InScratchWindows va := by
  rw [inScratchWindow, Bool.or_eq_true, Bool.and_eq_true, Bool.and_eq_true]
  simp only [decide_eq_true_eq]
  exact Iff.rfl

theorem fetchFaultKind_of_fails {s : State} {va : Word} {kind : Nat} (h : s.cur.id.kind = .barrel) (hf : FetchFails s va kind) :
    s.fetchFaultKind va = some kind := by
  rw [State.fetchFaultKind, h]
  rcases hf with ⟨rfl, ⟨l, hl⟩ | ⟨hu, hw⟩⟩ | ⟨rfl, hu, hw⟩
  · simp only [hl]
  · simp only [hu, (inScratchWindow_iff _).2 hw, if_true]
  · simp only [hu, if_neg (mt (inScratchWindow_iff _).1 hw)]

theorem fetchFaultKind_of_paged {s : State} {va : Word} (h : s.cur.id.kind = .barrel) (hp : s.place s.curPart s.curCluster va = .paged) :
    s.fetchFaultKind va = none := by
  rw [State.fetchFaultKind, h]
  simp only [hp]

theorem fetchFaultKind_values {s : State} {va : Word} {kind : Nat} (h : s.fetchFaultKind va = some kind) : kind = 0x03 ∨ kind = 0x04 := by
  unfold State.fetchFaultKind at h
  split at h
  · cases h
  · split at h
    · exact .inl (Option.some.inj h).symm
    · obtain rfl := Option.some.inj h
      split
      · exact .inl rfl
      · exact .inr rfl
    · cases h

theorem exec_fetchFault {s : State} {kind : Nat} (h : s.fetchFaultKind s.pc = some kind) :
    exec .instructionFetchFault s = .next (s.takeTrap (fetchTrap kind s.pc)) := by
  show execInstructionFetchFault s = _
  rw [execInstructionFetchFault, h]

theorem exec_fetchFault_second {s : State} (h : s.fetchFaultKind s.pc = none) :
    exec .instructionFetchFault s = .next (s.takeTrap (fetchTrap ((s.fetchFaultKind (s.pc + 2)).getD 0x04) (s.pc + 2))) := by
  show execInstructionFetchFault s = _
  rw [execInstructionFetchFault, h]

theorem fetchFault_takesTrap (s : State) : ∃ kind at_, (kind = 0x03 ∨ kind = 0x04) ∧ (at_ = s.pc ∨ at_ = s.pc + 2) ∧
    exec .instructionFetchFault s = .next (s.takeTrap { kind := kind, taddr := at_, tinfo := 0x12 }) := by
  cases h : s.fetchFaultKind s.pc with
  | some kind => exact ⟨kind, s.pc, fetchFaultKind_values h, .inl rfl, exec_fetchFault h⟩
  | none =>
    refine ⟨_, s.pc + 2, ?_, .inr rfl, exec_fetchFault_second h⟩
    cases h2 : s.fetchFaultKind (s.pc + 2) with
    | some kind => exact fetchFaultKind_values h2
    | none => exact .inr rfl

/-! ### Instructions whose effect is a trap -/

theorem exec_udf (x : BitVec 10) (s : State) :
    exec (.udf x) s = .next (s.takeTrap { kind := 0x01, taddr := s.pc, tinfo := causeWord 4 x.toNat }) := by
  rw [← causeInfo_setWidth (by norm_num) x (by norm_num)]
  rfl

theorem exec_illegalEncoding (c : BitVec 8) (w : BitVec 32) (s : State) :
    exec (.illegalEncoding c w) s = .next (s.takeTrap { kind := 0x01, taddr := s.pc, tinfo := causeWord c.toNat w.toNat }) := by
  rw [← causeInfo_setWidth c.isLt w (by norm_num)]
  rfl

theorem trapFormsTakeTheirTrap : TrapFormsTakeTheirTrap := by
  intro s takes
  exact ⟨fun c => rfl, fun c => rfl, rfl, fun x => exec_udf x s, fun c w => exec_illegalEncoding c w s, fetchFault_takesTrap s⟩

/-- A jump through a register to an odd address traps misaligned (05 R134). -/
theorem jumpReg_odd (s : State) {pc : Word} (h : pc.getLsbD 0 = true) (link : Option Word) :
    s.jumpReg pc link = .next (s.takeTrap { kind := 0x02, taddr := pc, tinfo := 0 }) := by
  unfold State.jumpReg
  rw [bit_eq_getLsbD, h]
  rfl

theorem instructionsThatTrap : InstructionsThatTrap := by
  intro s hs
  have traps {o : Out} {r : TrapRec} (ho : o = .next (s.takeTrap r)) := traps_of_takeTrap ho hs
  have jumps {i : Instr} {pc : Word} (hodd : pc.getLsbD 0 = true) (link : Option Word) (hi : exec i s = s.jumpReg pc link) :
      Traps (exec i s) s 0x02 pc 0 := traps (hi.trans (jumpReg_odd s hodd link))
  refine ⟨fun c => traps rfl, fun c => traps rfl, traps rfl, fun x => traps (exec_udf x s), fun c w => traps (exec_illegalEncoding c w s),
    fun hkind => traps (if_pos hkind), fun a hodd => ⟨jumps hodd none rfl, jumps hodd (some (s.pc + 4)) rfl⟩,
    fun r hodd => ⟨jumps hodd none rfl, jumps hodd (some (s.pc + 2)) rfl⟩, fun hodd => jumps hodd none rfl,
    fun kind hkind hf => traps (exec_fetchFault (fetchFaultKind_of_fails hkind hf)), fun kind hkind hpaged hf => ?_⟩
  have hfirst : s.fetchFaultKind s.pc = none := fetchFaultKind_of_paged hkind hpaged
  have hexec := exec_fetchFault_second hfirst
  rw [fetchFaultKind_of_fails hkind hf] at hexec
  exact traps hexec

/-! ### Privilege (10 R252, R254, R260) -/

theorem privileged_of_lt {s : State} {mode : Nat} (h : s.mode < mode) (func : Nat) (o : Out) :
    s.privileged mode func o = .next (s.takeTrap (privilegeTrap 1 func)) := if_pos h

theorem exec_mfs_below {d : Reg} {n : BitVec 10} {s : State} (h : s.mode < sysRegMode n.toNat) :
    exec (.mfs d n) s = .next (s.takeTrap (privilegeTrap 2 n.toNat)) := if_pos h

theorem exec_mts_below {d : Reg} {n : BitVec 10} {s : State} (h : s.mode < sysRegMode n.toNat) :
    exec (.mts d n) s = .next (s.takeTrap (privilegeTrap 2 n.toNat)) := if_pos h

theorem exec_mts_readOnly {d : Reg} {n : BitVec 10} {s : State} (h : sysRegMode n.toNat ≤ s.mode) (hn : 0x10 ≤ n.toNat) :
    exec (.mts d n) s = .next (s.takeTrap (privilegeTrap 3 n.toNat)) :=
  (if_neg (Nat.not_lt.2 h)).trans (if_pos (decide_eq_true hn))

theorem sysRegMode_supervisor : ∀ n ∈ supervisorRegs, sysRegMode n.toNat = 1 := by
  simp only [supervisorRegs, List.forall_mem_cons, List.not_mem_nil, false_imp_iff, implies_true, and_true]
  decide

theorem readOnlyRegs : ∀ n ∈ [(0x10 : BitVec 10), 0x11, 0x12, 0x20, 0x30], sysRegMode n.toNat = 1 ∧ 0x10 ≤ n.toNat := by
  simp only [List.forall_mem_cons, List.not_mem_nil, false_imp_iff, implies_true, and_true]
  decide

theorem privilegeTraps : PrivilegeTraps := by
  intro s hs
  have traps {o : Out} {cause detail : Nat} (ho : o = .next (s.takeTrap (privilegeTrap cause detail))) (hc : cause < 256)
      (hd : detail < 2 ^ 32) : Traps o s 0x0E 0 (causeWord cause detail) :=
    causeInfo_eq_causeWord hc hd ▸ traps_of_takeTrap ho hs
  have reaches (n : BitVec 10) (h : n ∈ supervisorRegs ∨ n = 0x40) : 0 < sysRegMode n.toNat := by
    rcases h with h | rfl
    · exact sysRegMode_supervisor n h ▸ Nat.one_pos
    · decide
  have small (n : BitVec 10) : n.toNat < 2 ^ 32 := n.isLt.trans (by norm_num)
  refine ⟨fun h => traps (privileged_of_lt (by lia) _ _) (by norm_num) (by norm_num),
    fun a b h => traps (privileged_of_lt (by lia) _ _) (by norm_num) (by norm_num),
    fun d a b h => traps (privileged_of_lt (by lia) _ _) (by norm_num) (by norm_num),
    fun hkind h => traps ((if_neg (not_not.2 hkind)).trans (privileged_of_lt h _ _)) (by norm_num) (by norm_num),
    fun d n h hn => ⟨traps (exec_mfs_below (h ▸ reaches n hn)) (by norm_num) (small n),
      traps (exec_mts_below (h ▸ reaches n hn)) (by norm_num) (small n)⟩,
    fun d h => traps (exec_mfs_below (n := 0x40) h) (by norm_num) (small 0x40),
    fun d n h hn => traps (exec_mts_readOnly ?_ ?_) (by norm_num) (small n),
    fun d h => traps (exec_mts_readOnly (n := 0x40) h.ge (by decide)) (by norm_num) (small 0x40)⟩
  · rw [h, (readOnlyRegs n hn).1]
  · exact (readOnlyRegs n hn).2

/-- Settles O14: every record is that of `State.takeTrap`, which enters the handler. -/
theorem trappingInstructions : Obligations.TrappingInstructions := ⟨trapFormsTakeTheirTrap, instructionsThatTrap, privilegeTraps⟩

end Sys2Proof.Proofs

/-! `MFS` and `MTS` (10 R253, R254). -/

namespace Sys2Proof.Proofs

open Sys2Proof.Machine Sys2Proof.Claims

-- The whole text is compiled as one file in bounded memory; one thread at a time needs the least of it.
set_option Elab.async false

/-! ### Reading -/

theorem writes_mfs {d : Reg} {n : BitVec 10} {s u : State} {v : Word} (hmode : sysRegMode n.toNat ≤ s.mode)
    (hreg : s.sysReg n.toNat = (v, u)) : Writes (exec (.mfs d n) s) u d v 4 := by
  have hexec : exec (.mfs d n) s = u.result d v 4 := by
    refine (if_neg (Nat.not_lt.2 hmode)).trans ?_
    rw [hreg]
  exact hexec ▸ writes_result u d v 4

section
variable {s : State} {k : Machine.Task}

theorem sysReg_key_of_task (hk : s.cur.task = some k) : (s.sysReg 0x020).1 = if k.cls = .ordered then k.key else 0 := by
  show (match s.cur.task with | some k => if k.cls = TaskClass.ordered then k.key else 0 | none => 0) = _
  rw [hk]

theorem sysReg_elapsed_of_task (hk : s.cur.task = some k) : (s.sysReg 0x030).1 = word (k.elapsed s.tick) := by
  show (match s.cur.task with | some k => word (k.elapsed s.tick) | none => 0) = _
  rw [hk]

theorem sysReg_of_no_task (hk : s.cur.task = none) : (s.sysReg 0x020).1 = 0 ∧ (s.sysReg 0x030).1 = 0 := by
  constructor
  · show (match s.cur.task with | some k => if k.cls = TaskClass.ordered then k.key else 0 | none => 0) = _
    rw [hk]
  · show (match s.cur.task with | some k => word (k.elapsed s.tick) | none => 0) = _
    rw [hk]

end

theorem systemRegistersRead : SystemRegistersRead := by
  intro d s r
  refine ⟨writes_mfs (Nat.zero_le _) rfl, fun h => ⟨writes_mfs h rfl, writes_mfs h rfl, writes_mfs h rfl, writes_mfs h rfl,
    writes_mfs h rfl, writes_mfs h rfl, writes_mfs h rfl, fun hbarrel => ?barrel, fun hbarrel n hn => ?other, fun k hk => ?task, fun hk => ?none⟩,
    fun h => writes_mfs h rfl⟩
  case barrel =>
    have hb : decide (s.cur.id.kind = .barrel) = true := decide_eq_true hbarrel
    exact ⟨writes_mfs h (if_pos hb), writes_mfs h (if_pos hb), writes_mfs h (if_pos hb)⟩
  case other =>
    have hb : ¬ decide (s.cur.id.kind = .barrel) = true := mt of_decide_eq_true hbarrel
    have hfree : sysRegMode n.toNat = 1 ∧ s.sysReg n.toNat = s.freeW := by
      simp only [List.mem_cons, List.not_mem_nil, or_false] at hn
      rcases hn with rfl | rfl | rfl <;> exact ⟨rfl, if_neg hb⟩
    exact ⟨_, writes_mfs (hfree.1 ▸ h) hfree.2⟩
  case task =>
    exact ⟨writes_mfs h (Prod.ext (sysReg_key_of_task hk) rfl), writes_mfs h (Prod.ext (sysReg_elapsed_of_task hk) rfl)⟩
  case none =>
    exact ⟨writes_mfs h (Prod.ext (sysReg_of_no_task hk).1 rfl), writes_mfs h (Prod.ext (sysReg_of_no_task hk).2 rfl)⟩

/-! ### Writing -/

theorem setsRegs_pass {o : Out} {s : State} {f : Regs → Regs} (ho : o = (s.mapRegs f).pass) (hpc : (f s.cur.regs).pc = s.pc) :
    SetsRegs o s f := by
  refine ⟨_, ho, ?_, rfl, rfl, sameBytes_of_onlyThread rfl⟩
  show { f s.cur.regs with pc := (f s.cur.regs).pc + word 4 } = _
  rw [hpc]
  rfl

theorem exec_mts {a : Reg} {n : BitVec 10} {s : State} (hmode : sysRegMode n.toNat ≤ s.mode) (hn : n.toNat < 0x10) :
    exec (.mts a n) s = (s.mapRegs fun r => r.writeSys n.toNat (s.g a)).pass :=
  (if_neg (Nat.not_lt.2 hmode)).trans (if_neg (by rw [sysRegReadOnly, decide_eq_true_eq]; lia))

/-- A field of a word copied from another. -/
theorem getLsbD_copyBits (w v : Word) (lo len : Nat) {i : Nat} (hi : i < 64) :
    (setBits w lo len (bits v lo len)).getLsbD i = if lo ≤ i ∧ i < lo + len then v.getLsbD i else w.getLsbD i := by
  rw [getLsbD_setBits _ _ _ _ hi, testBit_bits]
  split
  next h => rw [decide_eq_true (by lia), Bool.true_and, Nat.add_sub_cancel' h.1]
  next => rfl

/-- A two-bit field by its bits. -/
theorem bits_two (v : Word) (lo : Nat) : bits v lo 2 = (v.getLsbD lo).toNat + 2 * (v.getLsbD (lo + 1)).toNat := by
  have h0 := testBit_bits v lo 2 0
  have h1 := testBit_bits v lo 2 1
  have hlt : bits v lo 2 < 4 := Nat.mod_lt _ (by norm_num)
  simp only [Nat.add_zero, show decide (0 < 2) = true from rfl, show decide (1 < 2) = true from rfl, Bool.true_and] at h0 h1
  rw [← h0, ← h1]
  generalize bits v lo 2 = n at *
  interval_cases n <;> rfl

theorem bits_lt_two (v : Word) (lo : Nat) : bits v lo 2 < 2 ↔ v.getLsbD (lo + 1) = false := by
  rw [bits_two]
  cases v.getLsbD lo <;> cases v.getLsbD (lo + 1) <;> decide

theorem bits_lt_three (v : Word) (lo : Nat) : bits v lo 2 < 3 ↔ ¬ (v.getLsbD lo = true ∧ v.getLsbD (lo + 1) = true) := by
  rw [bits_two]
  cases v.getLsbD lo <;> cases v.getLsbD (lo + 1) <;> decide

/-- A word that has the bits of a set from `v` and the others from `old`. -/
def CopiesBits (old v : Word) (S : Nat → Prop) (w : Word) : Prop :=
  ∀ i, i < 64 → (S i → w.getLsbD i = v.getLsbD i) ∧ (¬ S i → w.getLsbD i = old.getLsbD i)

section
variable {old v w : Word} {S : Nat → Prop}

theorem copiesBits_old : CopiesBits old v (fun _ => False) old := fun _ _ => ⟨False.elim, fun _ => rfl⟩

theorem CopiesBits.field (h : CopiesBits old v S w) (lo len : Nat) {F : Nat → Prop} (hF : ∀ i, lo ≤ i ∧ i < lo + len ↔ F i) :
    CopiesBits old v (fun i => F i ∨ S i) (setBits w lo len (bits v lo len)) := by
  intro i hi
  obtain ⟨hv, hold⟩ := h i hi
  rw [getLsbD_copyBits _ _ _ _ hi]
  by_cases hf : F i
  · exact ⟨fun _ => if_pos ((hF i).2 hf), fun hn => absurd (.inl hf) hn⟩
  · rw [if_neg (mt (hF i).1 hf)]
    exact ⟨fun hs => hv (hs.resolve_left hf), fun hn => hold fun hs => hn (.inr hs)⟩

theorem CopiesBits.bit (h : CopiesBits old v S w) (lo : Nat) :
    CopiesBits old v (fun i => i = lo ∨ S i) (setBits w lo 1 (bits v lo 1)) :=
  h.field lo 1 fun _ => by lia

/-- A two-bit field that is copied when its value is legal. -/
theorem CopiesBits.legal (h : CopiesBits old v S w) (lo : Nat) (c : Prop) [Decidable c] :
    CopiesBits old v (fun i => c ∧ (i = lo ∨ i = lo + 1) ∨ S i) (if c then setBits w lo 2 (bits v lo 2) else w) := by
  intro i hi
  split
  next hc =>
    obtain ⟨hv, hold⟩ := h.field lo 2 (fun _ => by lia : ∀ i, lo ≤ i ∧ i < lo + 2 ↔ i = lo ∨ i = lo + 1) i hi
    exact ⟨fun hs => hv (hs.imp_left And.right), fun hn => hold fun hs => hn (hs.imp_left (And.intro hc))⟩
  next hc =>
    obtain ⟨hv, hold⟩ := h i hi
    exact ⟨fun hs => hv (hs.resolve_left fun hf => hc hf.1), fun hn => hold fun hs => hn (.inr hs)⟩

theorem CopiesBits.of_iff {T : Nat → Prop} (h : CopiesBits old v S w) (e : ∀ i, S i ↔ T i) : CopiesBits old v T w :=
  fun i hi => ⟨fun ht => (h i hi).1 ((e i).2 ht), fun ht => (h i hi).2 (mt (e i).1 ht)⟩

end

/-- The sticky flags are copied in every mode. -/
theorem copiesBits_sticky (old v : Word) : CopiesBits old v (fun i => i < 5 ∨ i = 9 ∨ False)
    (setBits (setBits old 9 1 (bits v 9 1)) 0 5 (bits v 0 5)) :=
  (copiesBits_old.bit 9).field 0 5 fun _ => by lia

/-- The bits of `STATUS` after an `MTS` in a mode (10 R253). -/
theorem copiesBits_statusWrite {mode : Nat} (hmode : mode ≤ 2) (old v : Word) :
    CopiesBits old v (statusWritten mode v) (statusWrite mode old v) := by
  obtain rfl | rfl | rfl : mode = 0 ∨ mode = 1 ∨ mode = 2 := by lia
  · refine (copiesBits_sticky old v).of_iff fun i => ?_
    constructor
    · rintro (h | h | h)
      exacts [.inl h, .inr (.inl h), h.elim]
    · rintro (h | h | ⟨⟨⟩, -⟩ | ⟨⟨⟩, -⟩ | ⟨⟨⟩, -⟩ | ⟨⟨⟩, -⟩)
      exacts [.inl h, .inr (.inl h)]
  · refine (((copiesBits_sticky old v).bit 15).legal 13 (bits v 13 2 < 2)).of_iff fun i => ?_
    rw [bits_lt_two]
    constructor
    · rintro (⟨hc, h⟩ | h | h | h | h)
      exacts [.inr (.inr (.inr (.inl ⟨rfl, h, hc⟩))), .inr (.inr (.inl ⟨le_rfl, h⟩)), .inl h, .inr (.inl h), h.elim]
    · rintro (h | h | ⟨-, h⟩ | ⟨-, h, hc⟩ | ⟨⟨⟩, -⟩ | ⟨⟨⟩, -⟩)
      exacts [.inr (.inr (.inl h)), .inr (.inr (.inr (.inl h))), .inr (.inl h), .inl ⟨hc, h⟩]
  · refine ((((copiesBits_sticky old v).bit 15).legal 13 (bits v 13 2 < 3)).legal 11 (bits v 11 2 < 3)).of_iff fun i => ?_
    rw [bits_lt_three, bits_lt_three]
    constructor
    · rintro (⟨hc, h⟩ | ⟨hc, h⟩ | h | h | h | h)
      exacts [.inr (.inr (.inr (.inr (.inr ⟨rfl, h, hc⟩)))), .inr (.inr (.inr (.inr (.inl ⟨rfl, h, hc⟩)))),
        .inr (.inr (.inl ⟨one_le_two, h⟩)), .inl h, .inr (.inl h), h.elim]
    · rintro (h | h | ⟨-, h⟩ | ⟨⟨⟩, -⟩ | ⟨-, h, hc⟩ | ⟨-, h, hc⟩)
      exacts [.inr (.inr (.inr (.inl h))), .inr (.inr (.inr (.inr (.inl h)))), .inr (.inr (.inl h)), .inr (.inl ⟨hc, h⟩), .inl ⟨hc, h⟩]

/-- `MTS` of a register that the mode reaches sets the register set by `Regs.writeSys`. -/
theorem setsRegs_mts {a : Reg} {n : BitVec 10} {s : State} (hmode : sysRegMode n.toNat ≤ s.mode) (hn : n.toNat < 0x10)
    (hpc : (s.cur.regs.writeSys n.toNat (s.g a)).pc = s.pc) :
    SetsRegs (exec (.mts a n) s) s fun r => r.writeSys n.toNat (s.g a) :=
  setsRegs_pass (exec_mts hmode hn) hpc

theorem getLsbD_clearBit0 (v : Word) {i : Nat} (hi : i < 64) : (setBits v 0 1 0).getLsbD i = (decide (i ≠ 0) && v.getLsbD i) := by
  rw [getLsbD_setBits _ _ _ _ hi]
  rcases Nat.eq_zero_or_pos i with rfl | hpos
  · simp
  · rw [if_neg (by lia), decide_eq_true (by lia : i ≠ 0), Bool.true_and]

theorem systemRegistersWritten : SystemRegistersWritten := by
  intro a s hmode v
  refine ⟨⟨statusWrite s.mode s.cur.regs.status v, copiesBits_statusWrite hmode _ _, setsRegs_mts (n := 0) (Nat.zero_le _) (by decide) rfl⟩,
    fun h => ⟨⟨setBits v 0 1 0, fun i hi => getLsbD_clearBit0 v hi, setsRegs_mts (n := 1) h (by decide) rfl⟩, setsRegs_mts (n := 2) h (by decide) rfl, ?_,
      setsRegs_mts (n := 4) h (by decide) rfl, setsRegs_mts (n := 5) h (by decide) rfl, setsRegs_mts (n := 6) h (by decide) rfl,
      setsRegs_mts (n := 7) h (by decide) rfl⟩⟩
  have hkind := setsRegs_mts (a := a) (n := 3) (s := s) h (by decide) rfl
  exact bits_zero v 8 ▸ hkind

/-- Settles O15: `MFS` answers by `State.sysReg`, `MTS` by `Regs.writeSys`. -/
theorem systemRegisters : Obligations.SystemRegisters := ⟨systemRegistersRead, systemRegistersWritten⟩

end Sys2Proof.Proofs

/-! Invalidations, releases and acquires, and the instructions made of them (07 R156, R159, R160; 10 R264 to R266). -/

namespace Sys2Proof.Proofs

open Sys2Proof.Machine Sys2Proof.Claims

-- The whole text is compiled as one file in bounded memory; one thread at a time needs the least of it.
set_option Elab.async false

/-! ### Changes that stay in the dies -/

/-- Nothing but the dies, which hold no memory, has changed. -/
def OnlyDies (s t : State) : Prop := t = { s with dies := t.dies }

theorem OnlyDies.refl (s : State) : OnlyDies s s := rfl

theorem OnlyDies.trans {s t u : State} (h : OnlyDies s t) (h' : OnlyDies t u) : OnlyDies s u := by rw [OnlyDies, h', h]

theorem OnlyDies.mapDie {s t : State} (h : OnlyDies s t) (d : Nat) (f : Die → Die) : OnlyDies s (t.mapDie d f) := h.trans rfl

theorem OnlyDies.foldl {α : Type} {f : State → α → State} (hf : ∀ s a, OnlyDies s (f s a)) : ∀ (l : List α) (s : State), OnlyDies s (l.foldl f s)
  | [], s => .refl s
  | a :: l, s => (hf s a).trans (OnlyDies.foldl hf l (f s a))

theorem OnlyDies.sameBytes {s t : State} (h : OnlyDies s t) : SameBytes s t := by
  rw [OnlyDies] at h
  rw [h]
  exact sameBytes_of_memories rfl rfl rfl (fun _ => ⟨rfl, rfl⟩) fun _ => rfl

/-- The line of an invalidation of a list that passes a test. -/
noncomputable def lineDue (l : List RdcInv) (test : RdcInv → Bool) (v line : Nat) : Bool := (l.filter test).any fun i => i.vmid == v && i.line == line

theorem lineDue_iff {l : List RdcInv} {test : RdcInv → Bool} {v line : Nat} :
    lineDue l test v line = true ↔ ∃ i ∈ l, test i = true ∧ i.vmid = v ∧ i.line = line := by
  simp [lineDue, and_assoc]

/-- Clearing directory bits leaves every die's copies and pending invalidations. -/
theorem die_clearBits (e : Nat) (due : List RdcInv) (s : State) (d : Nat) :
    let t := due.foldl (fun (s : State) i => s.mapDie i.home fun k =>
      { k with dirBits := k.dirBits.filter fun b => !(b.1 == i.vmid && b.2.1 == i.line && b.2.2 == e) }) s
    (t.die d).rdc = (s.die d).rdc ∧ (t.die d).rdcInv = (s.die d).rdcInv := by
  induction due generalizing s with
  | nil => exact ⟨rfl, rfl⟩
  | cons i due ih =>
    obtain ⟨hrdc, hinv⟩ := ih (s.mapDie i.home fun k =>
      { k with dirBits := k.dirBits.filter fun b => !(b.1 == i.vmid && b.2.1 == i.line && b.2.2 == e) })
    rw [State.die_mapDie] at hrdc hinv
    refine ⟨hrdc.trans ?_, hinv.trans ?_⟩ <;> split <;> simp [*]

theorem onlyDies_performInvalidations (s : State) (e : Nat) (test : RdcInv → Bool) : OnlyDies s (s.performInvalidations e test) := by
  unfold State.performInvalidations
  dsimp only
  split
  · exact .refl s
  · exact (OnlyDies.foldl (fun t (i : RdcInv) => (OnlyDies.refl t).mapDie i.home _) _ s).mapDie _ _

/-- Of the pending invalidations of a die those that pass the test are performed, and no other die's copies change (13 R319). -/
theorem die_performInvalidations (s : State) (e : Nat) (test : RdcInv → Bool) (d : Nat) :
    ((s.performInvalidations e test).die d).rdc =
      (if e = d then (s.die e).rdc.filter fun c => !lineDue (s.die e).rdcInv test c.vmid c.line else (s.die d).rdc) ∧
    ((s.performInvalidations e test).die d).rdcInv =
      if e = d then (s.die e).rdcInv.filter fun i => !lineDue (s.die e).rdcInv test i.vmid i.line else (s.die d).rdcInv := by
  unfold State.performInvalidations
  dsimp only
  split
  next hnone =>
    have hdue (v line : Nat) : lineDue (s.die e).rdcInv test v line = false := by rw [lineDue, List.isEmpty_iff.1 hnone]; rfl
    constructor <;> split <;> simp_all
  next =>
    have hbits := die_clearBits e ((s.die e).rdcInv.filter test) s
    rw [State.die_mapDie]
    constructor <;> split
    · exact congrArg (List.filter _) (hbits e).1
    · exact (hbits d).1
    · exact congrArg (List.filter _) (hbits e).2
    · exact (hbits d).2

/-! ### Releases (07 R156) -/

theorem onlyDies_performHostInv (s : State) (d : Nat) (test : Nat → Bool) : OnlyDies s (s.performHostInv d test) := rfl

theorem die_performHostInv (s : State) (e : Nat) (test : Nat → Bool) (d : Nat) :
    ((s.performHostInv e test).die d).rdc = (s.die d).rdc ∧ ((s.performHostInv e test).die d).rdcInv = (s.die d).rdcInv := by
  rw [State.performHostInv, State.die_mapDie]
  split
  next h => subst h; exact ⟨rfl, rfl⟩
  next => exact ⟨rfl, rfl⟩

theorem onlyDies_releasePrt (s : State) (w : Nat) : OnlyDies s (s.releasePrt w) :=
  OnlyDies.foldl (fun s d => onlyDies_performInvalidations s d _) _ s

/-- A release at `.prt` performs the writer's invalidations at every die. -/
theorem die_releasePrt (s : State) (w : Nat) {d : Nat} (hd : d < 4) :
    ((s.releasePrt w).die d).rdc = ((s.die d).rdc.filter fun c => !lineDue (s.die d).rdcInv (fun i => i.who == w) c.vmid c.line) ∧
    ((s.releasePrt w).die d).rdcInv = (s.die d).rdcInv.filter fun i => !lineDue (s.die d).rdcInv (fun i => i.who == w) i.vmid i.line := by
  simp only [State.releasePrt, upFrom, List.foldl_cons, List.foldl_nil]
  interval_cases d <;> constructor <;> simp [die_performInvalidations]

theorem OnlyDies.ite {s t u : State} {c : Prop} [Decidable c] (h : OnlyDies s t) (h' : OnlyDies s u) : OnlyDies s (if c then t else u) := by
  split <;> assumption

/-- Neither the copies of device lines nor the pending invalidations of them have changed at any die. -/
def SameCopies (s t : State) : Prop := ∀ d, (t.die d).rdc = (s.die d).rdc ∧ (t.die d).rdcInv = (s.die d).rdcInv

theorem SameCopies.foldl {α : Type} {f : State → α → State} (hf : ∀ s a, SameCopies s (f s a)) : ∀ (l : List α) (s : State), SameCopies s (l.foldl f s)
  | [], _ => fun _ => ⟨rfl, rfl⟩
  | a :: l, s => fun d =>
    have ih := SameCopies.foldl hf l (f s a) d
    ⟨ih.1.trans (hf s a d).1, ih.2.trans (hf s a d).2⟩

theorem SameCopies.ite {s t : State} {c : Prop} [Decidable c] (h : SameCopies s t) : SameCopies s (if c then s else t) := by
  split
  · exact fun _ => ⟨rfl, rfl⟩
  · exact h

theorem onlyDies_releaseSys (s : State) (w : Nat) : OnlyDies s (s.releaseSys w) :=
  (onlyDies_releasePrt s w).trans (OnlyDies.foldl (fun s d => .ite (.refl s) (onlyDies_performHostInv s d _)) _ _)

theorem sameCopies_releaseSys (s : State) (w : Nat) : SameCopies (s.releasePrt w) (s.releaseSys w) :=
  SameCopies.foldl (fun s d => .ite (die_performHostInv s d _)) _ _

theorem onlyDies_release (s : State) (c : Scope) : OnlyDies s (s.release c) := by
  cases c
  · exact .refl s
  · exact .refl s
  · exact onlyDies_releasePrt s _
  · exact onlyDies_releaseSys s _

/-- A release from `.prt` on performs the invalidations of the thread's stores at every die (07 R156). -/
theorem die_release (s : State) {c : Scope} (hc : c = .prt ∨ c = .sys) {d : Nat} (hd : d < 4) :
    ((s.release c).die d).rdc = ((s.die d).rdc.filter fun x => !lineDue (s.die d).rdcInv (fun i => i.who == s.curUid) x.vmid x.line) ∧
    ((s.release c).die d).rdcInv = (s.die d).rdcInv.filter fun i => !lineDue (s.die d).rdcInv (fun i => i.who == s.curUid) i.vmid i.line := by
  have hprt := die_releasePrt s s.curUid hd
  rcases hc with rfl | rfl
  · exact hprt
  · exact ⟨(sameCopies_releaseSys s s.curUid d).1.trans hprt.1, (sameCopies_releaseSys s s.curUid d).2.trans hprt.2⟩

/-! ### Acquires (07 R156; 13 R306, R308) -/

/-- What an acquire of a task may do to the dies: copies leave, and an invalidation that is pending for the task afterwards was pending
already, or was pending for another agent. -/
structure Acquired (who : Nat) (s t : State) : Prop where
  dies    : OnlyDies s t
  copies  : ∀ d, ∀ x ∈ (t.die d).rdc, x ∈ (s.die d).rdc
  pending : ∀ d, ∀ j ∈ (t.die d).rdcInv, j ∈ (s.die d).rdcInv ∨ ∃ i ∈ (s.die d).rdcInv, i.who ≠ who ∧ i.vmid = j.vmid ∧ i.line = j.line

theorem Acquired.refl (who : Nat) (s : State) : Acquired who s s := ⟨.refl s, fun _ _ h => h, fun _ _ h => .inl h⟩

theorem Acquired.trans {who : Nat} {s t u : State} (h : Acquired who s t) (h' : Acquired who t u) : Acquired who s u where
  dies := h.dies.trans h'.dies
  copies d x hx := h.copies d x (h'.copies d x hx)
  pending d j hj := by
    rcases h'.pending d j hj with hj | ⟨i, hi, hwho, hv, hl⟩
    · exact h.pending d j hj
    · rcases h.pending d i hi with hi | ⟨k, hk, hwho', hv', hl'⟩
      · exact .inr ⟨i, hi, hwho, hv, hl⟩
      · exact .inr ⟨k, hk, hwho', hv'.trans hv, hl'.trans hl⟩

theorem Acquired.foldl {who : Nat} {α : Type} {f : State → α → State} (hf : ∀ s a, Acquired who s (f s a)) :
    ∀ (l : List α) (s : State), Acquired who s (l.foldl f s)
  | [], s => .refl who s
  | a :: l, s => (hf s a).trans (Acquired.foldl hf l (f s a))

theorem acquired_performInvalidations (who : Nat) (s : State) (e : Nat) (test : RdcInv → Bool) :
    Acquired who s (s.performInvalidations e test) where
  dies := onlyDies_performInvalidations s e test
  copies d x hx := by
    rw [(die_performInvalidations s e test d).1] at hx
    split at hx
    next h => exact h ▸ (List.mem_filter.1 hx).1
    next => exact hx
  pending d j hj := by
    rw [(die_performInvalidations s e test d).2] at hj
    split at hj
    next h => exact .inl (h ▸ (List.mem_filter.1 hj).1)
    next => exact .inl hj

theorem mem_addInv {l : List RdcInv} {i j : RdcInv} (h : j ∈ addInv l i) : j ∈ l ∨ j = i := by
  unfold addInv at h
  split at h
  · exact .inl h
  · simpa using h

theorem mem_foldl_addInv {j : RdcInv} : ∀ (new l : List RdcInv), j ∈ new.foldl addInv l → j ∈ l ∨ j ∈ new
  | [], _, h => .inl h
  | i :: new, l, h => by
    rcases mem_foldl_addInv new (addInv l i) h with h | h
    · rcases mem_addInv h with h | rfl
      · exact .inl h
      · exact .inr List.mem_cons_self
    · exact .inr (List.mem_cons_of_mem i h)

/-- The pending invalidations of others at a die become the task's own too. -/
theorem acquired_join (who : Nat) (s : State) (e : Nat) (far : Nat → Bool) :
    let new := ((s.die e).rdcInv.filter fun i => i.who != who && !far i.who).map fun i => { i with who := who, seen := false }
    Acquired who s (if new.isEmpty then s else s.mapDie e fun k => { k with rdcInv := new.foldl addInv k.rdcInv }) := by
  intro new
  split
  · exact .refl who s
  refine ⟨.mapDie (.refl s) _ _, fun d x hx => ?_, fun d j hj => ?_⟩
  · rw [State.die_mapDie] at hx
    split at hx
    next h => exact h ▸ hx
    next => exact hx
  · rw [State.die_mapDie] at hj
    split at hj
    next h =>
      subst h
      refine (mem_foldl_addInv _ _ hj).imp_right fun hj => ?_
      obtain ⟨i, hi, rfl⟩ := List.mem_map.1 hj
      obtain ⟨hi, htest⟩ := List.mem_filter.1 hi
      simp only [Bool.and_eq_true, bne_iff_ne] at htest
      exact ⟨i, hi, htest.1, rfl, rfl⟩
    next => exact .inl hj

theorem acquired_acquireInv (s : State) (cl who : Nat) : Acquired who s (s.acquireInv cl who) := by
  unfold State.acquireInv
  extract_lets own t far
  exact (acquired_performInvalidations who s own _).trans (Acquired.foldl (fun s d => acquired_join who s d far) (upFrom 0 4) t)

theorem emptyL1_eq (s : State) (cl : Nat) : s.emptyL1 cl = { s with clusters := (s.emptyL1 cl).clusters } := by
  unfold State.emptyL1; split <;> rfl

theorem cluster_emptyL1 (s : State) (cl k : Nat) :
    (s.emptyL1 cl).cluster k = if cl = k then { s.cluster cl with l1 := [] } else s.cluster k := by
  unfold State.emptyL1
  split
  next h =>
    split
    next hk => rw [hk, ← List.isEmpty_iff.1 h, hk]
    next => rfl
  next => exact State.cluster_mapCluster ..

theorem acquired_dropHostLines (who : Nat) (s : State) (cl : Nat) : Acquired who s (s.dropHostLines cl) := by
  unfold State.dropHostLines
  split
  · exact .refl who s
  · refine ⟨.mapDie (.refl s) _ _, fun d x hx => ?_, fun d j hj => ?_⟩
    · rw [State.die_mapDie] at hx; split at hx
      next h => exact h ▸ hx
      next => exact hx
    · rw [State.die_mapDie] at hj; split at hj
      next h => exact .inl (h ▸ hj)
      next => exact .inl hj

/-- What an acquire at a scope leaves (07 R156): outside the dies only the caller's L1 and the note of the acquire differ. -/
structure AcquireEffect (s t : State) (c : Scope) : Prop where
  frame   : t = { s with cur := s.synchronise.cur, dies := t.dies, clusters := t.clusters }
  others  : ∀ k, k ≠ s.curCluster → t.cluster k = s.cluster k
  own     : t.cluster s.curCluster = { s.cluster s.curCluster with l1 := (t.cluster s.curCluster).l1 }
  emptied : c ≠ .cl → (t.cluster s.curCluster).l1 = []
  kept    : c = .cl → t.clusters = s.clusters
  copies  : ∀ d, ∀ x ∈ (t.die d).rdc, x ∈ (s.die d).rdc
  pending : ∀ d, ∀ j ∈ (t.die d).rdcInv,
    j ∈ (s.die d).rdcInv ∨ ∃ i ∈ (s.die d).rdcInv, i.who ≠ s.curUid ∧ i.vmid = j.vmid ∧ i.line = j.line

theorem acquire_of_acquired {s t : State} (h : Acquired s.curUid s.synchronise t) : AcquireEffect s t .cl := by
  have ht : t = { s.synchronise with dies := t.dies } := h.dies
  have hclusters : t.clusters = s.clusters := by rw [ht]; rfl
  have hcluster (k : Nat) : t.cluster k = s.cluster k := by rw [State.cluster, hclusters, State.cluster]
  refine ⟨?_, fun k _ => hcluster k, by rw [hcluster], absurd rfl, fun _ => hclusters, h.copies, h.pending⟩
  rw [hclusters]
  exact ht

theorem acquire_emptyL1 {s t : State} {c : Scope} (hc : c ≠ .cl) (h : AcquireEffect s t .cl) :
    AcquireEffect s (t.emptyL1 s.curCluster) c := by
  have hempty := emptyL1_eq t s.curCluster
  have hdies : (t.emptyL1 s.curCluster).dies = t.dies := by rw [hempty]
  have hdie (d : Nat) : (t.emptyL1 s.curCluster).die d = t.die d := by rw [State.die, hdies, State.die]
  have hcluster (k : Nat) : t.cluster k = s.cluster k := by rw [State.cluster, h.kept rfl, State.cluster]
  refine ⟨?_, fun k hk => ?_, ?_, fun _ => ?_, fun hcl => absurd hcl hc, fun d => hdie d ▸ h.copies d, fun d => hdie d ▸ h.pending d⟩
  · rw [hdies]
    exact hempty.trans (congrArg (fun u : State => { u with clusters := (t.emptyL1 s.curCluster).clusters }) h.frame)
  · rw [cluster_emptyL1, if_neg hk.symm, hcluster]
  · rw [cluster_emptyL1, if_pos rfl, hcluster]
  · rw [cluster_emptyL1, if_pos rfl]

theorem acquire_acquired {s t u : State} {c : Scope} (h : AcquireEffect s t c) (h' : Acquired s.curUid t u) : AcquireEffect s u c := by
  have hu : u = { t with dies := u.dies } := h'.dies
  have hclusters : u.clusters = t.clusters := by rw [hu]
  have hcluster (k : Nat) : u.cluster k = t.cluster k := by rw [State.cluster, hclusters, State.cluster]
  have hcopies := h'.copies
  refine ⟨?_, fun k hk => (hcluster k).trans (h.others k hk), hcluster s.curCluster ▸ h.own, hcluster s.curCluster ▸ h.emptied,
    fun hc => hclusters.trans (h.kept hc), fun d x hx => h.copies d x (hcopies d x hx), fun d j hj => ?_⟩
  · rw [hclusters]
    exact hu.trans (congrArg (fun v : State => { v with dies := u.dies }) h.frame)
  · rcases h'.pending d j hj with hj | ⟨i, hi, hwho, hv, hl⟩
    · exact h.pending d j hj
    · rcases h.pending d i hi with hi | ⟨k, hk, hwho', hv', hl'⟩
      · exact .inr ⟨i, hi, hwho, hv, hl⟩
      · exact .inr ⟨k, hk, hwho', hv'.trans hv, hl'.trans hl⟩

theorem acquireEffect_acquire (s : State) (c : Scope) : AcquireEffect s (s.acquire c) c := by
  have hacq := acquired_acquireInv s.synchronise s.curCluster s.curUid
  have hcl := acquire_of_acquired hacq
  have hcluster : (s.synchronise.acquireInv s.curCluster s.curUid).curCluster = s.curCluster := by rw [hacq.dies]; rfl
  unfold State.acquire
  cases c
  · exact hcl
  all_goals
    dsimp only
    rw [hcluster]
  · exact acquire_emptyL1 nofun hcl
  · exact acquire_emptyL1 nofun hcl
  · have hsys := acquire_emptyL1 (c := .sys) nofun hcl
    exact acquire_acquired hsys (acquired_dropHostLines s.curUid _ _)

/-! ### `FENCE`, `FENCEI`, `CINV` and `TLBINV` (07 R159, R160; 10 R265, R266) -/

theorem sameRegs_advance {s t : State} (h : t.cur.regs = s.cur.regs) : SameRegs s (t.advance 4) (s.pc + 4) := by
  have hpc : t.pc = s.pc := congrArg Regs.pc h
  refine ⟨fun r => ?_, fun k => ?_, ?_, ?_, ?_⟩
  · rw [State.advance_g, State.g, h, State.g]
  · rw [State.advance_x, State.x, h, State.x]
  · rw [State.advance_cur, h]
  · rw [State.advance_pc, hpc]; rfl
  · rw [State.advance_cur, h]; exact ⟨rfl, rfl, rfl, rfl, rfl, rfl, rfl, rfl⟩

theorem goesOnAcq_advance {s t : State} {acq : Bool} (h : t.cur = { s.cur with acquired := if acq then s.tick else s.cur.acquired }) :
    GoesOnAcq s (t.advance 4) acq := by
  rw [GoesOnAcq, State.advance_cur, h]

/-- Registers, bytes and other L1s after a release and an acquire. -/
theorem sameBytes_of_acquireEffect {s t : State} {c : Scope} (h : AcquireEffect s t c) : SameBytes s t := by
  refine sameBytes_of_memories (by rw [h.frame]) (by rw [h.frame]) (by rw [h.frame]) (fun p => ?_) fun k => ?_
  · rw [h.frame]
    exact ⟨rfl, rfl⟩
  · by_cases hk : k = s.curCluster
    · rw [hk, h.own]
    · rw [h.others k hk]

/-- A `FENCE` that is no acquire. -/
theorem fence_release (s : State) (c : Scope) (o : AtomOrder) (ho : o = .rel ∨ o = .rlx) :
    ∃ t, OnlyDies s t ∧ exec (.fence o c) s = .next (t.advance 4) ∧ t = if o = .rel then s.release c else s := by
  rcases ho with rfl | rfl
  · exact ⟨_, onlyDies_release s c, rfl, rfl⟩
  · exact ⟨_, .refl s, rfl, rfl⟩

theorem curUid_onlyDies {s t : State} (h : OnlyDies s t) : t.curUid = s.curUid := by rw [h]; rfl

theorem curCluster_onlyDies {s t : State} (h : OnlyDies s t) : t.curCluster = s.curCluster := by rw [h]; rfl

/-- After a release from `.prt` on no copy stands of a line whose invalidation was pending for the thread, and none is pending. -/
theorem released {s : State} {c : Scope} (hc : c = .prt ∨ c = .sys) {d : Nat} (hd : d < 4) :
    (∀ i ∈ (s.die d).rdcInv, i.who = s.curUid → ∀ x ∈ ((s.release c).die d).rdc, ¬ (x.vmid = i.vmid ∧ x.line = i.line)) ∧
    ∀ j ∈ ((s.release c).die d).rdcInv, j.who ≠ s.curUid := by
  obtain ⟨hrdc, hinv⟩ := die_release s hc hd
  have hdue {i : RdcInv} {v line : Nat} (hi : i ∈ (s.die d).rdcInv) (hwho : i.who = s.curUid) (hv : i.vmid = v) (hl : i.line = line) :
      lineDue (s.die d).rdcInv (fun i => i.who == s.curUid) v line = true := lineDue_iff.2 ⟨i, hi, beq_iff_eq.2 hwho, hv, hl⟩
  refine ⟨fun i hi hwho x hx ⟨hv, hl⟩ => ?_, fun j hj hwho => ?_⟩
  · rw [hrdc, List.mem_filter, hdue hi hwho hv.symm hl.symm] at hx
    exact absurd hx.2 (by decide)
  · rw [hinv, List.mem_filter] at hj
    rw [hdue hj.1 hwho rfl rfl] at hj
    exact absurd hj.2 (by decide)

theorem frame_advance {s t : State} (h : t = { s with cur := t.cur, dies := t.dies }) :
    t.advance 4 = { s with cur := (t.advance 4).cur, dies := (t.advance 4).dies } :=
  congrArg (fun u : State => { u with cur := (t.advance 4).cur }) h

/-- The clauses of R159 for a `FENCE`. -/
theorem fence_effect (o : AtomOrder) (c : Scope) (s : State) :
    ∃ t, exec (.fence o c) s = .next t ∧ SameRegs s t (s.pc + 4) ∧ GoesOnAcq s t (decide (o = .acq ∨ o = .ar)) ∧ SameBytes s t ∧
      (o = .acq ∨ o = .ar → c ≠ .cl → (t.cluster s.curCluster).l1 = []) ∧
      (∀ k, k ≠ s.curCluster → (t.cluster k).l1 = (s.cluster k).l1) ∧
      (o = .rel ∨ o = .ar → c = .prt ∨ c = .sys → ∀ d < 4,
        (∀ i ∈ (s.die d).rdcInv, i.who = s.curUid → ∀ x ∈ (t.die d).rdc, ¬ (x.vmid = i.vmid ∧ x.line = i.line)) ∧
        (∀ j ∈ (t.die d).rdcInv, j.who = s.curUid → o = .ar ∧
          ∃ i ∈ (s.die d).rdcInv, i.who ≠ s.curUid ∧ i.vmid = j.vmid ∧ i.line = j.line)) ∧
      (c = .cl → t = { s with cur := t.cur, dies := t.dies } ∧ (o = .rel → OnlyThread s t)) := by
  by_cases hacq : o = .acq ∨ o = .ar
  case neg =>
    have ho : o = .rel ∨ o = .rlx := by cases o <;> simp_all
    obtain ⟨t, hdies, hexec, ht⟩ := fence_release s c o ho
    have hcur : t.cur = s.cur := by rw [hdies]
    have hcluster (k : Nat) : t.cluster k = s.cluster k := by rw [hdies]; rfl
    refine ⟨_, hexec, sameRegs_advance (by rw [hcur]), goesOnAcq_advance (by rw [hcur, decide_eq_false hacq]; rfl),
      sameBytes_trans hdies.sameBytes (sameBytes_of_onlyThread (onlyThread_advance t 4)), fun h => absurd h hacq, fun k _ => congrArg Cluster.l1 (hcluster k),
      fun hrel hc d hd => ?_, fun hc => ⟨?_, fun hrel => ?_⟩⟩
    · have hrel : o = .rel := hrel.resolve_right fun h => hacq (.inr h)
      rw [if_pos hrel] at ht
      subst ht
      have hr := released (s := s) hc hd
      exact ⟨hr.1, fun j hj hwho => absurd hwho (hr.2 j hj)⟩
    · exact frame_advance (by rw [hdies])
    · rw [ht, if_pos hrel, hc]
      exact onlyThread_advance s 4
  case pos =>
    -- the state after the release that an `.ar` makes first
    obtain ⟨r, hdies, hexec, hr⟩ : ∃ r, OnlyDies s r ∧ exec (.fence o c) s = .next ((r.acquire c).advance 4) ∧
        r = if o = .ar then s.release c else s := by
      rcases hacq with rfl | rfl
      · exact ⟨s, .refl s, rfl, rfl⟩
      · exact ⟨_, onlyDies_release s c, rfl, rfl⟩
    have heff := acquireEffect_acquire r c
    have hcl := curCluster_onlyDies hdies
    have huid := curUid_onlyDies hdies
    have hcur : (r.acquire c).cur = { s.cur with acquired := s.tick } := by rw [heff.frame, hdies]; rfl
    have hcluster (k : Nat) : r.cluster k = s.cluster k := by rw [hdies]; rfl
    have hothers (k : Nat) (hk : k ≠ s.curCluster) : (r.acquire c).cluster k = s.cluster k :=
      (heff.others k (hcl.symm ▸ hk)).trans (hcluster k)
    refine ⟨_, hexec, sameRegs_advance (by rw [hcur]), goesOnAcq_advance (by rw [hcur, decide_eq_true hacq]; rfl),
      sameBytes_trans hdies.sameBytes (sameBytes_trans (sameBytes_of_acquireEffect heff) (sameBytes_of_onlyThread (onlyThread_advance _ 4))),
      fun _ hc => hcl ▸ heff.emptied hc, fun k hk => congrArg Cluster.l1 (hothers k hk), fun hrel hc d hd => ?_,
      fun hc => ⟨?_, fun hrel => ?_⟩⟩
    · have har : o = .ar := by cases o <;> simp_all
      rw [if_pos har] at hr
      subst hr
      have hrel := released (s := s) hc hd
      refine ⟨fun i hi hwho x hx => hrel.1 i hi hwho x (heff.copies d x hx), fun j hj hwho => ⟨har, ?_⟩⟩
      rcases heff.pending d j hj with hj | ⟨i, hi, hne, hv, hl⟩
      · exact absurd hwho (hrel.2 j hj)
      · rw [(die_release s hc hd).2] at hi
        exact ⟨i, (List.mem_filter.1 hi).1, huid ▸ hne, hv, hl⟩
    · have hframe : r.acquire c = { s with cur := (r.acquire c).cur, dies := (r.acquire c).dies } := by
        have := heff.frame
        rw [heff.kept hc] at this
        rw [this, hdies]
      exact frame_advance hframe
    · subst hrel
      simp at hacq

theorem onlyL1_emptyL1 (s : State) : OnlyL1 s (s.emptyL1 s.curCluster) fun _ => False := by
  have hcur : (s.emptyL1 s.curCluster).cur = s.cur := by rw [emptyL1_eq]
  refine ⟨hcur ▸ emptyL1_eq s _, fun c hc => ?_, ?_, fun l => ?_⟩
  · rw [cluster_emptyL1, if_neg hc.symm]
  · rw [cluster_emptyL1, if_pos rfl]
  · rw [cluster_emptyL1, if_pos rfl]
    simp

theorem onlyL1_cur {s t : State} {keeps : Line → Prop} (h : OnlyL1 s t keeps) (cur : Thread) : OnlyL1 s { t with cur := cur } keeps := by
  obtain ⟨hframe, hrest⟩ := h
  exact ⟨congrArg (fun u : State => { u with cur := cur }) hframe, hrest⟩

theorem onlyL1_mapCur {s t : State} {keeps : Line → Prop} (h : OnlyL1 s t keeps) (f : Thread → Thread) : OnlyL1 s (t.mapCur f) keeps :=
  onlyL1_cur h _

theorem onlyL1_advance {s t : State} {keeps : Line → Prop} (h : OnlyL1 s t keeps) : OnlyL1 s (t.advance 4) keeps :=
  onlyL1_cur h (t.advance 4).cur

theorem sameBytes_of_onlyL1 {s t : State} {keeps : Line → Prop} (h : OnlyL1 s t keeps) : SameBytes s t := by
  obtain ⟨hframe, hothers, hown, -⟩ := h
  refine sameBytes_of_memories (by rw [hframe]) (by rw [hframe]) (by rw [hframe]) (fun p => by rw [hframe]; exact ⟨rfl, rfl⟩) fun k => ?_
  by_cases hk : k = s.curCluster
  · rw [hk, hown]
  · rw [hothers k hk]

theorem onlyL1_filter (s : State) (keeps : Line → Bool) :
    OnlyL1 s (s.mapCluster s.curCluster fun c => { c with l1 := c.l1.filter keeps }) fun l => keeps l = true := by
  refine ⟨rfl, fun c hc => ?_, ?_, fun l => ?_⟩
  · rw [State.cluster_mapCluster, if_neg hc.symm]
  · rw [State.cluster_mapCluster, if_pos rfl]
  · rw [State.cluster_mapCluster, if_pos rfl, List.mem_filter]

theorem goesOn_advance {s t : State} (h : t.cur = s.cur) : GoesOn s (t.advance 4) := by rw [GoesOn, State.advance_cur, h]

theorem cur_emptyL1 (s : State) (cl : Nat) : (s.emptyL1 cl).cur = s.cur := by rw [emptyL1_eq]

theorem fencei_effect (s : State) :
    ∃ t, exec .fencei s = .next t ∧ SameRegs s t (s.pc + 4) ∧ OnlyL1 s t (fun _ => False) ∧ SameBytes s t := by
  have hregs (f : Thread → Thread) (hf : (f (s.emptyL1 s.curCluster).cur).regs = (s.emptyL1 s.curCluster).cur.regs) :
      ((s.emptyL1 s.curCluster).mapCur f).cur.regs = s.cur.regs := hf.trans (congrArg Thread.regs (cur_emptyL1 ..))
  have hl1 (f : Thread → Thread) := onlyL1_advance (onlyL1_mapCur (onlyL1_emptyL1 s) f)
  exact ⟨_, rfl, sameRegs_advance (hregs _ rfl), hl1 _, sameBytes_of_onlyL1 (hl1 _)⟩

theorem cinv_effect (a b : Reg) {s : State} (hkind : s.cur.id.kind = .barrel) :
    ∃ t, exec (.cinv a b) s = .next t ∧ SameRegs s t (s.pc + 4) ∧ GoesOn s t ∧ SameBytes s t ∧
      OnlyL1 s t (fun l => s.g b ≠ 0 ∧ s.rangeHoldsLine (s.g a).toNat (s.g b).toNat l = false) := by
  have hcommand : s.cur.id.kind ≠ .command := by rw [hkind]; decide
  by_cases hb : s.g b = 0
  case pos =>
    have hcur := cur_emptyL1 s s.curCluster
    have hexec : exec (.cinv a b) s = .next ((s.emptyL1 s.curCluster).advance 4) :=
      (if_neg hcommand).trans (if_pos (by rw [hb]; rfl))
    have hl1 := onlyL1_advance (onlyL1_emptyL1 s)
    have hnone : (fun l => s.g b ≠ 0 ∧ s.rangeHoldsLine (s.g a).toNat (s.g b).toNat l = false) = fun _ => False := by
      simp [hb]
    exact ⟨_, hexec, sameRegs_advance (congrArg Thread.regs hcur), goesOn_advance hcur, sameBytes_of_onlyL1 hl1, hnone ▸ hl1⟩
  case neg =>
    have hexec : exec (.cinv a b) s = .next ((s.mapCluster s.curCluster fun c =>
        { c with l1 := c.l1.filter fun x => !s.rangeHoldsLine (s.g a).toNat (s.g b).toNat x }).advance 4) :=
      (if_neg hcommand).trans (if_neg fun h => hb (BitVec.eq_of_toNat_eq h))
    have hl1 := onlyL1_advance (onlyL1_filter s fun x => !s.rangeHoldsLine (s.g a).toNat (s.g b).toNat x)
    have hkept : (fun l => s.g b ≠ 0 ∧ s.rangeHoldsLine (s.g a).toNat (s.g b).toNat l = false) =
        fun l => (!s.rangeHoldsLine (s.g a).toNat (s.g b).toNat l) = true := by
      funext l
      rw [Bool.not_eq_true']
      exact propext (and_iff_right hb)
    exact ⟨_, hexec, sameRegs_advance rfl, goesOn_advance rfl, sameBytes_of_onlyL1 hl1, hkept ▸ hl1⟩

theorem tlbSelected_iff (vmid : Nat) (va sel : Word) (e : TlbEntry) :
    tlbSelected vmid va sel e = true ↔ e.vmid = vmid ∧ (sel.getLsbD 17 = true ∨ (e.host = false ∧ va.toNat / 2 ^ e.bits = e.va / 2 ^ e.bits ∧
      (sel.getLsbD 16 = true ∨ e.glob = true ∨ e.asid = sel.toNat % 2 ^ 16))) := by
  simp [tlbSelected, bit_eq_getLsbD, bits_zero, or_assoc, and_assoc]

theorem tlbinv_effect (a b : Reg) {s : State} (hkind : s.cur.id.kind = .barrel) (hmode : 1 ≤ s.mode) (hcl : s.curCluster < 512) :
    ∃ t, exec (.tlbinv a b) s = .next t ∧ SameRegs s t (s.pc + 4) ∧ GoesOn s t ∧ SameBytes s t ∧
      (∀ k, k ≠ s.curCluster → t.cluster k = s.cluster k) ∧
      (∀ e, e ∈ (t.cluster s.curCluster).tlb ↔ e ∈ (s.cluster s.curCluster).tlb ∧
        ¬ (e.vmid = (s.part s.curPart).vmid ∧ ((s.g b).getLsbD 17 = true ∨
          (e.host = false ∧ (s.g a).toNat / 2 ^ e.bits = e.va / 2 ^ e.bits ∧
            ((s.g b).getLsbD 16 = true ∨ e.glob = true ∨ e.asid = (s.g b).toNat % 2 ^ 16))))) := by
  have hown : s.tlbOf s.cur = s.curCluster := by
    rw [State.tlbOf, State.curCluster, State.homeCluster, hkind]
  obtain ⟨f, hf, hexec⟩ : ∃ f : Cluster → Cluster, (∀ c, (f c).scratch = c.scratch ∧
      (f c).tlb = c.tlb.filter fun e => !tlbSelected (s.part s.curPart).vmid (s.g a) (s.g b) e) ∧
      exec (.tlbinv a b) s = .next ((s.mapCluster s.curCluster f).advance 4) := by
    refine ⟨fun c =>
      { c with
        tlb := c.tlb.filter fun e => !tlbSelected (s.part s.curPart).vmid (s.g a) (s.g b) e
        utlb := c.utlb.map fun u => (u.1, u.2.filter fun e => !tlbSelected (s.part s.curPart).vmid (s.g a) (s.g b) e)
        walkCache := c.walkCache.filter fun e => !walkSelected (s.part s.curPart).vmid (s.g a) (s.g b) e }, fun c => ⟨rfl, rfl⟩, (privileged_of_le hmode _ _).trans ((if_neg (by rw [hkind]; decide)).trans ?_)⟩
    rw [hown, State.tlbRemove, if_pos hcl]
    rfl
  have hcluster (k : Nat) : ((s.mapCluster s.curCluster f).advance 4).cluster k = if s.curCluster = k then f (s.cluster s.curCluster) else s.cluster k :=
    State.cluster_mapCluster ..
  refine ⟨_, hexec, sameRegs_advance rfl, goesOn_advance rfl,
    sameBytes_trans (sameBytes_mapCluster s _ (hf _).1) (sameBytes_of_onlyThread (onlyThread_advance _ 4)), fun k hk => ?_, fun e => ?_⟩
  · rw [hcluster, if_neg hk.symm]
  · rw [hcluster, if_pos rfl, (hf _).2, ← tlbSelected_iff, List.mem_filter, Bool.not_eq_true, Bool.not_eq_true']

theorem fencesAndInvalidations : FencesAndInvalidations := by
  intro a b o c s hkind
  exact ⟨fence_effect o c s, fencei_effect s, cinv_effect a b hkind, tlbinv_effect a b hkind⟩

/-! ### Time and counters (10 R264) -/

theorem writes_perf {d a : Reg} {s u : State} {v : Word} (h : s.counter ((s.g a).toNat % 2 ^ 16) = (v, u)) :
    Writes (exec (.perf d a) s) u d v 4 := by
  have hexec : exec (.perf d a) s = u.result d v 4 := by
    show (s.counter (bits (s.g a) 0 16)).2.result d (s.counter (bits (s.g a) 0 16)).1 = _
    rw [bits_zero, h]
  exact hexec ▸ writes_result u d v 4

theorem counter_above {s : State} {id : Nat} (h : 2 < id) : s.counter id = if 0x100 ≤ id ∧ id ≤ 0x10D then s.freeW else (0, s) := by
  obtain ⟨id, rfl⟩ := Nat.exists_eq_add_of_le' h
  rfl

theorem timeAndCounters : TimeAndCounters := by
  intro d a s
  refine ⟨onlyPc_advance s 4, writes_result s d _ 4, fun h => writes_perf (by rw [h]; rfl), fun h => writes_perf (by rw [h]; rfl),
    fun h k hk => writes_perf (by rw [h]; simp [State.counter, hk]), fun h hno => writes_perf ((counter_above h).trans (if_neg hno)),
    fun hlo hhi => ⟨_, writes_perf ((counter_above (by lia)).trans (if_pos ⟨hlo, hhi⟩))⟩⟩

end Sys2Proof.Proofs

/-! `WAKE` and `HALT` (10 R267, R268). -/

namespace Sys2Proof.Proofs

open Sys2Proof.Machine Sys2Proof.Claims

-- The whole text is compiled as one file in bounded memory; one thread at a time needs the least of it.
set_option Elab.async false

/-! ### An operation performed for another thread -/

theorem find_putThread (th : Thread) : ∀ l : List Thread, (putThread th l).find? (fun u => decide (u.id = th.id)) = some th
  | [] => by simp [putThread]
  | u :: us => by
    rw [putThread]
    split
    next h => simp
    next h => rw [List.find?_cons_of_neg (by simpa using h), find_putThread th us]

theorem focus_of_find {s : State} {w : Tid} {th : Thread} (hw : s.cur.id ≠ w) (h : s.others.find? (fun x => decide (x.id = w)) = some th) :
    s.focus w = { s with cur := th, others := putThread s.cur (s.others.filter fun u => decide (u.id ≠ w)) } := by
  rw [State.focus, if_neg hw, h]

/-- Performing for a ready or waiting thread an operation that changes only its context. -/
theorem asThread_cur {s : State} {w : Tid} {th th' : Thread} {f : State → State} (hw : w ≠ s.cur.id) (hth : s.thread? w = some th)
    (hf : ∀ t : State, t.cur = th → f t = { t with cur := th' }) (hid : th'.id = w) :
    (∃ others, s.asThread w f = { s with others := others }) ∧ (s.asThread w f).thread? w = some th' := by
  have hfind : s.others.find? (fun x => decide (x.id = w)) = some th := by rwa [State.thread?, if_neg hw.symm] at hth
  have hback : (putThread s.cur (s.others.filter fun u => decide (u.id ≠ w))).find? (fun x => decide (x.id = s.cur.id)) = some s.cur :=
    find_putThread ..
  have hrun : s.asThread w f = { s with
      others := putThread th' ((putThread s.cur (s.others.filter fun u => decide (u.id ≠ w))).filter fun u => decide (u.id ≠ s.cur.id)) } := by
    rw [State.asThread, hth, focus_of_find hw.symm hfind]
    dsimp only
    rw [hf _ rfl, focus_of_find (by rw [hid]; exact hw) hback]
  refine ⟨⟨_, hrun⟩, ?_⟩
  rw [hrun, State.thread?, if_neg hw.symm, ← hid]
  exact find_putThread ..

theorem id_of_thread? {s : State} {w : Tid} {th : Thread} (h : s.thread? w = some th) : th.id = w := by
  unfold State.thread? at h
  split at h
  next hcur => exact Option.some.inj h ▸ hcur
  next => simpa using List.find?_some h

theorem wakeThread_retry {s : State} {w : Tid} {th : Thread} (hw : w ≠ s.cur.id) (hth : s.thread? w = some th) (trap : TrapRec) :
    (∃ others, s.wakeThread w 0 trap = { s with others := others }) ∧
    (s.wakeThread w 0 trap).thread? w = some { th with wait := .ready, mid := true } := by
  have hid := id_of_thread? hth
  exact asThread_cur hw hth (fun t ht => ht ▸ rfl) hid

/-- A thread that a fatal wake has sent into its handler. -/
noncomputable def trapped (th : Thread) (r : TrapRec) : Thread := { th with regs := th.regs.enterTrap r, wait := .ready, mid := false }

theorem wakeThread_fatal {s : State} {w : Tid} {th : Thread} {trap : TrapRec} {kind : Nat} (hw : w ≠ s.cur.id) (hth : s.thread? w = some th)
    (hkind : kind ≠ 0) (hbarrel : w.kind = .barrel) (hta : th.regs.status.getLsbD 15 = false) (h5 : trap.kind ≠ 0x05) (h6 : trap.kind ≠ 0x06) :
    (∃ others, s.wakeThread w kind trap = { s with others := others }) ∧
    (s.wakeThread w kind trap).thread? w = some (trapped th { trap with kind := fatalKind kind }) := by
  have hid := id_of_thread? hth
  refine asThread_cur hw hth (fun t ht => ?_) hid
  dsimp only
  rw [if_neg hkind, if_neg h5, if_neg h6, State.takeTrap_enters]
  · rw [← ht]; rfl
  · rw [show (t.mapCur Thread.again).cur.id = w from (congrArg (fun x : Thread => x.again.id) ht).trans hid, hbarrel]
    exact nofun
  · rw [show (t.mapCur Thread.again).cur.regs = th.regs from congrArg (fun x : Thread => x.again.regs) ht, Regs.ta, bit_eq_getLsbD]
    exact hta

/-! ### The token that `WAKE` names -/

theorem find_faults {s : State} {f : FaultTok} (hf : f ∈ s.faults) (hw : f.waiters ≠ []) (honly : ∀ x ∈ s.faults, x.token = f.token → x = f) :
    s.faults.find? (fun x => x.token == f.token && !x.waiters.isEmpty) = some f := by
  cases h : s.faults.find? (fun x => x.token == f.token && !x.waiters.isEmpty) with
  | none =>
    have := List.find?_eq_none.1 h f hf
    simp [hw] at this
  | some x =>
    have htest := List.find?_some h
    simp only [Bool.and_eq_true, beq_iff_eq] at htest
    rw [honly x (List.mem_of_find?_eq_some h) htest.1]

/-- The state in which a token is served: it is no more among the outstanding ones. -/
noncomputable def served (s : State) (f : FaultTok) : State := { s with faults := s.faults.filter fun x => decide (x ≠ f) }

theorem not_mem_served (s : State) (f : FaultTok) : f ∉ (served s f).faults := by simp [served]

theorem wakeToken_thread {s : State} {f : FaultTok} {w : Tid} {th : Thread} {trap : TrapRec} (hf : f ∈ s.faults)
    (honly : ∀ x ∈ s.faults, x.token = f.token → x = f) (hw : f.waiters = [.thread w]) (hth : s.thread? w = some th)
    (hwait : th.wait = .fault f.token trap) (kind : Nat) :
    s.wakeToken f.token kind = some ((served s f).wakeThread w kind trap) := by
  have hth' : (served s f).thread? w = some th := hth
  rw [State.wakeToken, find_faults hf (by rw [hw]; nofun) honly]
  dsimp only
  rw [hw]
  simp only [State.each, List.foldl_cons, List.foldl_nil]
  rw [show State.thread? { s with faults := s.faults.filter fun x => decide (x ≠ f) } w = some th from hth]
  simp only [hwait, if_true]
  rfl

theorem wakeToken_engine {s : State} {f : FaultTok} {r : Nat} (hf : f ∈ s.faults)
    (honly : ∀ x ∈ s.faults, x.token = f.token → x = f) (hw : f.waiters = [.engine r]) (kind : Nat) :
    s.wakeToken f.token kind = some ((served s f).wakeEngine f.token r kind) := by
  rw [State.wakeToken, find_faults hf (by rw [hw]; nofun) honly]
  dsimp only
  rw [hw]
  rfl

theorem exec_wake {d a b : Reg} {s u : State} {f : FaultTok} (hmode : 1 ≤ s.mode) (hf : f ∈ s.faults) (htok : f.token = s.g a)
    (hs2 : f.stage2 = false) (hpart : f.part = s.curPart) (hkind : (s.g b).toNat % 4 ≠ 3)
    (hu : s.wakeToken (s.g a) ((s.g b).toNat % 4) = some u) : exec (.wake d a b) s = u.result d 1 4 := by
  have hbits : bits (s.g b) 0 2 = (s.g b).toNat % 4 := bits_zero ..
  have hmay : s.mayWake (s.g a) = true := by
    refine List.any_eq_true.2 ⟨f, hf, ?_⟩
    simp [htok, hs2, hpart]
  refine (privileged_of_le hmode _ _).trans ?_
  rw [hbits]
  refine (if_neg hkind).trans ?_
  rw [hmay, if_pos rfl, hu]

theorem result_effect (u : State) (d : Reg) (v : Word) :
    ∃ t, u.result d v 4 = .next t ∧ GivesG u t d v ∧ t.pc = u.pc + 4 ∧ OnlyThread u t ∧ t.cur.id = u.cur.id := by
  obtain ⟨t, ht, hg, -, -, hframe⟩ := writes_result u d v 4
  have hgo : t.cur = _ := hframe.thread
  exact ⟨t, ht, hg, hframe.pcIs, hframe.device, by rw [hgo]⟩

theorem thread?_of_ne {u : State} {w : Tid} {c : Thread} (hu : u.cur.id ≠ w) (hc : c.id ≠ w) : State.thread? { u with cur := c } w = u.thread? w := by
  rw [State.thread?, if_neg hc, State.thread?, if_neg hu]

theorem req?_mapReq {s : State} {r : Nat} {q : Req} (f : Req → Req) (h : s.req? r = some q) (hf : ∀ q, (f q).id = q.id) :
    (s.mapReq r f).req? r = some (f q) := by
  unfold State.req? State.mapReq at *
  rw [List.find?_map]
  have htest : ((fun q : Req => q.id == r) ∘ fun q : Req => if q.id = r then f q else q) = fun q => q.id == r := by
    funext q
    show ((if q.id = r then f q else q).id == r) = _
    split
    · rw [hf]
    · rfl
  rw [htest, h]
  have hid : q.id = r := by simpa using List.find?_some h
  exact congrArg some (if_pos hid)

/-- A request that a retry resumes (08 R202). -/
theorem wakeEngine_retry {s : State} {r : Nat} {q : Req} (tok : Word) (hq : s.req? r = some q) (hstrm : q.kind ≠ .strm) :
    s.wakeEngine tok r 0 = (s.mapReq r fun x => { x with token := none }).raise (if q.stage = 0 then .lineDeliver else .engineDone) r 0 0 := by
  rw [State.wakeEngine, hq]
  exact (if_neg fun h => hstrm h.2).trans (if_pos rfl)

/-- A request in its first stage that a fatal wake ends (08 R202). -/
theorem wakeEngine_fatal {s : State} {r kind : Nat} {q : Req} (tok : Word) (hq : s.req? r = some q) (hstrm : q.kind ≠ .strm) (hkind : kind ≠ 0)
    (hstage : q.stage = 0) : ∃ f : Req → Req, (∀ q, (f q).id = q.id) ∧
      f { q with token := none } = { q with token := none, endKind := some (fatalKind kind), stage := 1 } ∧
      s.wakeEngine tok r kind = ((s.mapReq r fun x => { x with token := none }).mapReq r f).raise .engineDone r 0 0 := by
  rw [State.wakeEngine, hq]
  refine ⟨_, fun q => ?_, ?_, (if_neg fun h => hstrm h.2).trans (if_neg hkind)⟩
  · split <;> rfl
  · dsimp only
    rw [hstage]
    rfl

theorem wakesEndTheWait : WakesEndTheWait := by
  intro d a b s f hmode hf htok hs2 hpart honly kind gives wakes
  -- what `WAKE` does once the waiter of the token has been woken
  have wakes_of {p : State → Prop} {u : State} (hkind : kind ≠ 3) (hu : s.wakeToken f.token kind = some u) (hcur : u.cur = s.cur)
      (hfaults : u.faults = (served s f).faults) (hp : ∀ cur : Thread, cur.id = s.cur.id → p { u with cur := cur }) : wakes p := by
    obtain ⟨t, ht, hg, hpc, hdev, hid⟩ := result_effect u d 1
    refine ⟨t, (exec_wake hmode hf htok hs2 hpart hkind (htok ▸ hu)).trans ht, fun r => ?_, ?_, ?_, ?_⟩
    · rw [hg r, State.g, hcur, State.g]
    · rw [hpc, State.pc, hcur, State.pc]
    · rw [hdev, hfaults]
      exact not_mem_served s f
    · exact hdev ▸ hp t.cur (hid.trans (congrArg Thread.id hcur))
  have hgives (h12 : kind = 1 ∨ kind = 2) : fatalKind kind = gives := by rcases h12 with h | h <;> simp only [fatalKind, gives, h]
  refine ⟨fun w th trap hw hth hne hwait => ?_, fun r q hw hq hstrm => ?_⟩
  · have hu := wakeToken_thread hf honly hw hth hwait kind
    have wakes_thread {th' : Thread} {p : State → Prop} (hkind : kind ≠ 3)
        (h : (∃ others, (served s f).wakeThread w kind trap = { served s f with others := others }) ∧
          ((served s f).wakeThread w kind trap).thread? w = some th') (hp : ∀ t : State, t.thread? w = some th' → p t) : wakes p := by
      obtain ⟨⟨others, hothers⟩, hthread⟩ := h
      refine wakes_of hkind hu (by rw [hothers]; rfl) (by rw [hothers]) fun cur hcur => hp _ ?_
      rw [thread?_of_ne (by rw [hothers]; exact hne.symm) (by rw [hcur]; exact hne.symm), hthread]
    refine ⟨fun h0 => ?_, fun h12 hbarrel hta h5 h6 => ?_⟩
    · exact wakes_thread (by lia) (h0 ▸ wakeThread_retry (s := served s f) hne hth trap) fun t ht => ht
    · refine wakes_thread (by lia) (wakeThread_fatal (s := served s f) hne hth (by lia) hbarrel hta h5 h6) fun t ht => ?_
      exact ⟨_, ht, rfl, rfl, congrArg word (hgives h12), rfl, rfl, rfl⟩
  · have hu := wakeToken_engine hf honly hw kind
    refine ⟨fun h0 => ?_, fun h12 hstage => ?_⟩
    · have hretry : s.wakeToken f.token kind = some (((served s f).mapReq r fun x => { x with token := none }).raise
          (if q.stage = 0 then .lineDeliver else .engineDone) r 0 0) := by
        rw [hu, h0, wakeEngine_retry (s := served s f) f.token hq hstrm]
      exact wakes_of (by lia) hretry rfl rfl fun cur hcur =>
        ⟨req?_mapReq (s := served s f) (fun x => { x with token := none }) hq fun _ => rfl, List.mem_append_right _ (List.mem_singleton_self _)⟩
    · obtain ⟨g, hgid, hg, hrun⟩ := wakeEngine_fatal (s := served s f) f.token hq hstrm (by lia : kind ≠ 0) hstage
      rw [hrun] at hu
      refine wakes_of (by lia) hu rfl rfl fun cur hcur => ⟨?_, List.mem_append_right _ (List.mem_singleton_self _)⟩
      have hreq := req?_mapReq g (req?_mapReq (s := served s f) (fun x => { x with token := none }) hq fun _ => rfl) hgid
      rw [hg, hgives h12] at hreq
      exact hreq

/-! ### `WAKE` of no waiter, and `HALT` -/

theorem wakeToken_isSome {s : State} {f : FaultTok} (hf : f ∈ s.faults) (hw : f.waiters ≠ []) (kind : Nat) :
    ∃ u, s.wakeToken f.token kind = some u := by
  rw [State.wakeToken]
  cases h : s.faults.find? (fun x => x.token == f.token && !x.waiters.isEmpty) with
  | none =>
    have := List.find?_eq_none.1 h f hf
    simp [hw] at this
  | some x => exact ⟨_, rfl⟩

theorem freeCore_frame (s : State) (core : Nat) : (s.freeCore core).cur = s.cur ∧ (s.freeCore core).mem = s.mem := by
  unfold State.freeCore
  split <;> exact ⟨rfl, rfl⟩

theorem cmd_freeCore {s : State} {core : Nat} (hhalted : s.halted core = true) (hdone : (s.cmd core).done = true) (c : Nat) :
    (s.freeCore core).cmd c = if core = c then { s.cmd core with event := none, done := false } else s.cmd c := by
  rw [State.freeCore, if_pos ⟨hhalted, hdone⟩]
  exact Tbl.getD_put ..

theorem freeCore_busy {s : State} {core : Nat} (hdone : (s.cmd core).done = false) : s.freeCore core = s :=
  if_neg fun h => Bool.false_ne_true (hdone.symm.trans h.2)

/-- A command core that halts is idle, and its event is over when its work is (21 R393). -/
theorem halt_effect {s : State} {n : Nat} (hid : s.cur.id = { kind := .command, unit := n, slot := 0 }) (hmode : s.mode = 2) :
    ∃ t, exec .halt s = .next t ∧ SameRegs s t (s.pc + 4) ∧ t.cur.wait = .idle ∧ t.mem = s.mem ∧
      ((s.cmd n).done = true → (t.cmd n).event = none) ∧ ((s.cmd n).done = false → t.cmd n = s.cmd n) ∧ ∀ c, c ≠ n → t.cmd c = s.cmd c := by
  have hexec : exec .halt s = .next (((s.advance 4).setWait .idle).freeCore n) := by
    refine (if_neg (by rw [hid]; exact fun h => h rfl)).trans ((privileged_of_le hmode.ge 12 _).trans ?_)
    rw [hid]
  obtain ⟨u, hu, hcur, hmem, hcmd⟩ : ∃ u, u = (s.advance 4).setWait .idle ∧ u.cur = { (s.advance 4).cur with wait := .idle } ∧ u.mem = s.mem ∧
      ∀ c, u.cmd c = s.cmd c := ⟨_, rfl, rfl, rfl, fun _ => rfl⟩
  rw [← hu] at hexec
  obtain ⟨hfcur, hfmem⟩ := freeCore_frame u n
  have hregs : SameRegs s (u.freeCore n) (s.pc + 4) := by
    have hadv : SameRegs s (s.advance 4) (s.pc + 4) := sameRegs_advance rfl
    have hsame : (u.freeCore n).cur.regs = (s.advance 4).cur.regs := by rw [hfcur, hcur]
    unfold SameRegs State.g State.x State.pc
    rw [hsame]
    exact hadv
  have hhalted : u.halted n = true := by
    rw [State.halted, State.thread?, if_pos (by rw [hcur]; exact hid)]
    exact decide_eq_true (congrArg Thread.wait hcur)
  refine ⟨_, hexec, hregs, by rw [hfcur, hcur], by rw [hfmem, hmem], fun hdone => ?_, fun hdone => ?_, fun c hc => ?_⟩
  · rw [cmd_freeCore hhalted (hcmd n ▸ hdone), if_pos rfl]
  · rw [freeCore_busy (hcmd n ▸ hdone), hcmd]
  · cases hdone : (u.cmd n).done with
    | true => rw [cmd_freeCore hhalted hdone, if_neg hc.symm, hcmd]
    | false => rw [freeCore_busy hdone, hcmd]

theorem wakeAndHalt : WakeAndHalt := by
  intro d a b s
  have hbits : bits (s.g b) 0 2 = (s.g b).toNat % 4 := bits_zero ..
  refine ⟨fun hmode hs hkind => ?_, fun hmode hkind hnone => ?_, fun hmode hkind f hf htok hs2 hw hpart => ?_, fun n hid hmode => halt_effect hid hmode⟩
  · exact traps_of_takeTrap ((privileged_of_le hmode _ _).trans (if_pos (hbits.trans hkind))) hs
  · have hmay : s.mayWake (s.g a) = false := by
      refine List.any_eq_false.2 fun f hf => ?_
      simp [hnone f hf]
    have hexec : exec (.wake d a b) s = s.result d 0 4 := by
      refine (privileged_of_le hmode _ _).trans ?_
      rw [hbits]
      refine (if_neg hkind).trans ?_
      rw [State.dropToken, hmay]
      rfl
    exact hexec ▸ writes_result s d 0 4
  · obtain ⟨u, hu⟩ := wakeToken_isSome hf hw ((s.g b).toNat % 4)
    rw [htok] at hu
    obtain ⟨t, ht, hg, hpc, hdev, -⟩ := result_effect u d 1
    exact ⟨u, t, hu, (exec_wake hmode hf htok hs2 hpart hkind hu).trans ht, hg, hpc, hdev⟩

/-- Settles O16: fences by what releases and acquires do at the dies, `WAKE` by the operation performed for the thread or request it names. -/
theorem timeFencesWakeAndHalt : Obligations.TimeFencesWakeAndHalt :=
  ⟨timeAndCounters, fencesAndInvalidations, wakeAndHalt, wakesEndTheWait⟩

end Sys2Proof.Proofs

/-! The frame of the `FP` and `FCVT` majors (06 R138). -/

namespace Sys2Proof.Proofs

open Sys2Proof.Machine Sys2Proof.Claims

-- The whole text is compiled as one file in bounded memory; one thread at a time needs the least of it.
set_option Elab.async false

/-! ### No result is wider than its format -/

section
variable {f : FloatSpec} (hf : Sound f)
include hf

theorem inf_lt (neg : Bool) : f.inf neg < 2 ^ f.width :=
  fields_lt hf (Nat.sub_lt (by positivity) Nat.one_pos) (by positivity : 0 < 2 ^ (f.prec - 1))

theorem zero_lt (neg : Bool) : f.zero neg < 2 ^ f.width := (Nat.le_add_right ..).trans_lt (inf_lt hf neg)

theorem nan_lt : f.nan < 2 ^ f.width := by
  have hprec := hf.prec
  have hebits : 0 < 2 ^ f.ebits := by positivity
  have h2 : 2 ^ f.width = 2 ^ f.ebits * (2 * 2 ^ (f.prec - 1)) := by rw [← two_pow_prec hf, ← pow_add, FloatSpec.width, add_comm]
  have h3 : 2 ^ (f.prec - 2) < 2 ^ (f.prec - 1) := Nat.pow_lt_pow_right Nat.one_lt_two (by lia)
  rw [FloatSpec.nan, h2]
  calc (2 ^ f.ebits - 1) * 2 ^ (f.prec - 1) + 2 ^ (f.prec - 2) < (2 ^ f.ebits - 1) * 2 ^ (f.prec - 1) + 2 ^ (f.prec - 1) :=
        Nat.add_lt_add_left h3 _
    _ = 2 ^ f.ebits * 2 ^ (f.prec - 1) := by rw [← Nat.succ_mul, Nat.succ_eq_add_one, Nat.sub_add_cancel hebits]
    _ ≤ 2 ^ f.ebits * (2 * 2 ^ (f.prec - 1)) := Nat.mul_le_mul_left _ (Nat.le_mul_of_pos_left _ Nat.two_pos)

omit hf in
theorem shiftRound_le_succ_rz (mode : RoundMode) (neg : Bool) (m : Nat) (sh : Int) :
    (shiftRound mode neg m sh).1 ≤ (shiftRound .rz neg m sh).1 + 1 := by
  match sh with
  | .ofNat 0 => exact Nat.le_succ m
  | .ofNat (k + 1) =>
    change ite _ _ _ ≤ m / 2 ^ (k + 1) + 1
    split
    · exact le_rfl
    · exact Nat.le_succ _
  | .negSucc k => exact Nat.le_succ _

theorem shiftRound_quantum_le (mode : RoundMode) (neg : Bool) (m : Nat) (e : Int) :
    (shiftRound mode neg m (quantum f m e - e)).1 ≤ 2 ^ f.prec := by
  have hrz : (shiftRound .rz neg m (quantum f m e - e)).1 = truncated f m e := by rw [shiftRound_rz, neg_sub, truncated]
  exact (shiftRound_le_succ_rz mode neg m _).trans (hrz ▸ truncated_lt hf)

omit hf in
theorem overflow_le_inf (mode : RoundMode) (neg : Bool) : (f.overflow mode neg).bits ≤ f.inf neg := by
  have h (toInf : Bool) : (if toInf then f.inf neg else f.maxFinite neg) ≤ f.inf neg := by
    cases toInf
    · exact Nat.sub_le ..
    · exact le_rfl
  exact h _

/-- An exponent field and a significand of a result that has not overflowed are below the pattern of infinity. -/
theorem magnitude_le {k : Nat} {z : Int} (hk : k ≤ 2 ^ f.prec) (hz : z + bitLen k - 1 ≤ f.emax) :
    exponentField f k z * 2 ^ (f.prec - 1) + trailing f k ≤ (2 ^ f.ebits - 1) * 2 ^ (f.prec - 1) := by
  have hebits : 2 ^ 2 ≤ 2 ^ f.ebits := Nat.pow_le_pow_right Nat.two_pos hf.ebits
  rw [exponentField, trailing]
  split
  next hs =>
    rw [Nat.zero_mul, Nat.zero_add]
    exact hs.le.trans (Nat.le_mul_of_pos_left _ (by lia))
  next hs =>
    have hlen : f.prec - 1 < bitLen k := lt_bitLen.2 (not_lt.1 hs)
    have hmax := two_mul_emax hf
    have hemin : f.emin = 1 - f.emax := rfl
    have hfield : (z + (f.prec - 1) - f.emin + 1).toNat ≤ 2 ^ f.ebits - 2 := by lia
    have htrail : k - 2 ^ (f.prec - 1) ≤ 2 ^ (f.prec - 1) := by have := two_pow_prec hf; lia
    calc (z + (f.prec - 1) - f.emin + 1).toNat * 2 ^ (f.prec - 1) + (k - 2 ^ (f.prec - 1))
        ≤ (2 ^ f.ebits - 2) * 2 ^ (f.prec - 1) + 2 ^ (f.prec - 1) := Nat.add_le_add (Nat.mul_le_mul_right _ hfield) htrail
      _ = (2 ^ f.ebits - 1) * 2 ^ (f.prec - 1) := by rw [← Nat.succ_mul]; congr 1; lia

theorem round_le_inf (mode : RoundMode) (neg : Bool) (m : Nat) (e : Int) : (f.round mode neg m e).bits ≤ f.inf neg := by
  by_cases hm : m = 0
  · rw [FloatSpec.round, if_pos hm]
    exact Nat.le_add_right ..
  · have hq : (if e + bitLen m - 1 < f.emin then f.emin else e + bitLen m - 1) - ((f.prec : Int) - 1) = quantum f m e := by
      rw [quantum, max_def]
      split <;> split <;> lia
    have hk := shiftRound_quantum_le hf mode neg m e
    simp only [FloatSpec.round, if_neg hm, hq]
    split
    next => exact overflow_le_inf mode neg
    next hover =>
      have hmag := magnitude_le hf hk (not_lt.1 hover)
      refine Nat.add_le_add_left ((le_of_eq ?_).trans hmag) _
      rw [exponentField, trailing]
      split
      · rw [Nat.zero_mul, Nat.zero_add]
      · rfl

theorem round_lt (mode : RoundMode) (neg : Bool) (m : Nat) (e : Int) : (f.round mode neg m e).bits < 2 ^ f.width :=
  (round_le_inf hf mode neg m e).trans_lt (inf_lt hf neg)

theorem roundVal_lt (mode : RoundMode) (v : FVal) : (f.roundVal mode v).bits < 2 ^ f.width := by
  cases v with
  | nan q => exact nan_lt hf
  | inf n => exact inf_lt hf n
  | num n m e => exact round_lt hf mode n m e

theorem add_lt (mode : RoundMode) (x y : FVal) : (f.add mode x y).bits < 2 ^ f.width := by
  rw [FloatSpec.add]
  split
  · exact nan_lt hf
  · split
    · exact roundVal_lt hf mode _
    · exact nan_lt hf

theorem mul_lt (mode : RoundMode) (x y : FVal) : (f.mul mode x y).bits < 2 ^ f.width := by
  rw [FloatSpec.mul]
  split
  · exact nan_lt hf
  · split
    · exact roundVal_lt hf mode _
    · exact nan_lt hf

theorem div_lt (mode : RoundMode) (x y : FVal) : (f.div mode x y).bits < 2 ^ f.width := by
  rw [FloatSpec.div.eq_def]
  split
  · exact nan_lt hf
  · exact nan_lt hf
  · exact nan_lt hf
  · exact inf_lt hf _
  · exact zero_lt hf _
  · split
    · split
      · exact nan_lt hf
      · exact inf_lt hf _
    · exact round_lt hf mode _ _ _

theorem sqrt_lt (mode : RoundMode) (x : FVal) : (f.sqrt mode x).bits < 2 ^ f.width := by
  rw [FloatSpec.sqrt.eq_def]
  split
  · exact nan_lt hf
  · exact inf_lt hf _
  · exact nan_lt hf
  · split
    · exact zero_lt hf _
    · split
      · exact nan_lt hf
      · exact round_lt hf mode _ _ _

theorem fma_lt (mode : RoundMode) (negate : Bool) (x y z : FVal) : (f.fma mode negate x y z).bits < 2 ^ f.width := by
  rw [FloatSpec.fma]
  split
  · exact nan_lt hf
  · split
    · exact nan_lt hf
    · split
      · exact nan_lt hf
      · split
        · exact roundVal_lt hf mode _
        · exact nan_lt hf

theorem minmax_lt (mx : Bool) (x y : FVal) : (f.minmax mx x y).bits < 2 ^ f.width := by
  rw [FloatSpec.minmax]
  have h (v : FVal) := roundVal_lt hf .rne v
  split
  · exact nan_lt hf
  · split
    · exact h y
    · split
      · exact h x
      · dsimp only
        split
        · exact h y
        · exact h x

theorem withSign_lt (w : Nat) (neg : Bool) : (f.withSign w neg).bits < 2 ^ f.width := by
  rw [FloatSpec.withSign]
  split
  · exact nan_lt hf
  · have hw : 1 ≤ f.width := by have := hf.prec; rw [FloatSpec.width]; lia
    have h2 : 2 ^ f.width = 2 * 2 ^ (f.width - 1) := (mul_pow_sub_one (by lia) 2).symm
    have : w % 2 ^ (f.width - 1) < 2 ^ (f.width - 1) := Nat.mod_lt _ (by positivity)
    dsimp only
    rw [FloatSpec.zero]
    split <;> lia

theorem toIntegral_lt (mode : RoundMode) (x : FVal) : (f.toIntegral mode x).bits < 2 ^ f.width := by
  rw [FloatSpec.toIntegral.eq_def]
  split
  · exact nan_lt hf
  · exact inf_lt hf _
  · split
    · exact round_lt hf _ _ _ _
    · exact round_lt hf _ _ _ _

end

theorem fcompare_lt (quiet : Bool) (test : Int → Bool) (x y : FVal) : (fcompare quiet test x y).bits < 2 ^ 1 := by
  rw [fcompare]
  split
  · exact Nat.two_pow_pos 1
  · dsimp only
    split <;> decide

theorem fclass_lt (f : FloatSpec) (x : FVal) : f.fclass x < 2 ^ 10 := by
  rw [FloatSpec.fclass.eq_def]
  split
  · split <;> decide
  · split <;> decide
  · split
    · split <;> decide
    · split <;> split <;> decide

/-! ### The codes of `FTOB8` -/

section
variable (b : B8Spec)

theorem b8_nan_lt : b.nan < 2 ^ 8 := by rw [B8Spec.nan]; split <;> decide

/-- A magnitude code that is no larger than the largest, with the sign of a signed format. -/
theorem b8_signed_lt {neg : Bool} {c : Nat} (hneg : (b.uns && neg) = false) (hc : c ≤ b.top) : B8Spec.signed neg c < 2 ^ 8 := by
  rw [B8Spec.top] at hc
  rw [B8Spec.signed]
  cases hu : b.uns <;> cases neg <;> simp_all <;> lia

theorem b8_maxCode_le : b.maxCode ≤ b.top := by
  rw [B8Spec.maxCode]
  split <;> lia

/-- The unit in the last place of a number converted into binary8, as an exponent. -/
noncomputable def b8Quantum (b : B8Spec) (m : Nat) (e : Int) : Int :=
  (if e + bitLen m - 1 < 1 - b.bias then 1 - b.bias else e + bitLen m - 1) - (b.p - 1 : Nat)

/-- The rounded significand of a number converted into binary8, and whether that was inexact. -/
noncomputable def b8Kept (b : B8Spec) (mode : RoundMode) (neg : Bool) (m : Nat) (e : Int) : Nat × Bool := shiftRound mode neg m (b8Quantum b m e - e)

/-- The magnitude code of a significand at an exponent. -/
noncomputable def b8CodeAt (b : B8Spec) (k : Nat) (z : Int) : Nat :=
  if k = 0 then 0 else if k < 2 ^ (b.p - 1) then k else (z + (b.p - 1 : Nat) + b.bias).toNat * 2 ^ (b.p - 1) + (k - 2 ^ (b.p - 1))

/-- The modes that round a number of a sign toward zero beyond the largest one. -/
noncomputable def overflowsTowardZero (mode : RoundMode) (neg : Bool) : Bool :=
  match mode with
  | .rne => false
  | .rz => true
  | .rd => !neg
  | .ru => neg

theorem encodeNum_eq (mode : RoundMode) (inf neg : Bool) (m : Nat) (e : Int) : b.encodeNum mode inf neg m e =
    if b.maxCode < b8CodeAt b (b8Kept b mode neg m e).1 (b8Quantum b m e) then
      if !inf || overflowsTowardZero mode neg then ⟨B8Spec.signed neg b.maxCode, { of := true, nx := true }⟩
      else if b.ext then ⟨B8Spec.signed neg b.top, { of := true, nx := true }⟩
      else ⟨b.nan, { of := true, nx := true, nv := true }⟩
    else
      ⟨if b8CodeAt b (b8Kept b mode neg m e).1 (b8Quantum b m e) = 0 then 0
        else B8Spec.signed neg (b8CodeAt b (b8Kept b mode neg m e).1 (b8Quantum b m e)),
        { nx := (b8Kept b mode neg m e).2, uf := (b8Kept b mode neg m e).2 && decide (e + bitLen m - 1 < 1 - b.bias) }⟩ := by
  cases mode <;> rfl

theorem b8_encodeNum_lt (mode : RoundMode) (inf neg : Bool) (m : Nat) (e : Int) (hneg : (b.uns && neg) = false) :
    (b.encodeNum mode inf neg m e).bits < 2 ^ 8 := by
  rw [encodeNum_eq]
  split
  · split
    · exact b8_signed_lt b hneg (b8_maxCode_le b)
    · split
      · exact b8_signed_lt b hneg le_rfl
      · exact b8_nan_lt b
  · next h =>
    dsimp only
    split
    · exact Nat.two_pow_pos 8
    · exact b8_signed_lt b hneg ((not_lt.1 h).trans (b8_maxCode_le b))

theorem b8_encode_lt (mode : RoundMode) (inf : Bool) (v : FVal) : (b.encode mode inf v).bits < 2 ^ 8 := by
  have hsat : (if inf then 0xFF else 0) < 2 ^ 8 := by split <;> decide
  rw [B8Spec.encode.eq_def]
  split
  · exact b8_nan_lt b
  · split
    · exact hsat
    · next h =>
      have hneg := Bool.not_eq_true _ ▸ h
      split
      · exact b8_signed_lt b hneg le_rfl
      · split
        · exact b8_nan_lt b
        · exact b8_signed_lt b hneg (b8_maxCode_le b)
  · split
    · exact Nat.two_pow_pos 8
    · split
      · exact hsat
      · next h => exact b8_encodeNum_lt b mode inf _ _ _ (Bool.not_eq_true _ ▸ h)

end

theorem width_le (f : FpFmt) : (specOf f).width ≤ 64 := by cases f <;> decide

/-! ### Every instruction of the majors -/

/-- The instruction writes a value of the format and sets flags only. -/
def WritesWithin (s : State) (i : Instr) (r : Reg × Nat) : Prop := ∃ v fl, v.toNat < 2 ^ r.2 ∧ WritesF (exec i s) s r.1 v fl

section
variable {i : Instr} {s : State} {d : Reg} {r : FRes} {n : Nat}

/-- An instruction that writes the bits of a result. -/
theorem writesWithin_of_resultFp (ht : fpResult i = some (d, n)) (hn : n ≤ 64) (ho : exec i s = s.resultFp d r) (hr : r.bits < 2 ^ n) :
    OfNamed fpResult (WritesWithin s) i := by
  refine ofNamed_some ht ⟨word r.bits, r.flags, ?_, ho ▸ writesF_resultF s d _ _⟩
  rwa [toNat_word (hr.trans_le (Nat.pow_le_pow_right Nat.two_pos hn))]

/-- An instruction that writes a result of the format of its destination. -/
theorem writesWithin_format {f : FpFmt} (ht : fpResult i = some (d, (specOf f).width)) (ho : exec i s = s.resultFp d r)
    (hr : r.bits < 2 ^ (specOf f).width) : OfNamed fpResult (WritesWithin s) i :=
  writesWithin_of_resultFp ht (width_le f) ho hr

theorem writesWithin_flag (ht : fpResult i = some (d, 1)) (ho : exec i s = s.resultFp d r) (hr : r.bits < 2 ^ 1) :
    OfNamed fpResult (WritesWithin s) i :=
  writesWithin_of_resultFp ht (by decide) ho hr

theorem writesWithin_word {v : Word} {fl : FFlags} (ht : fpResult i = some (d, 64)) (ho : exec i s = s.resultF d v fl) :
    OfNamed fpResult (WritesWithin s) i :=
  ofNamed_some ht ⟨v, fl, v.isLt, ho ▸ writesF_resultF s d v fl⟩

end

theorem writesWithin (s : State) (i : Instr) : OfNamed fpResult (WritesWithin s) i := by
  have hf (f : FpFmt) := sound_specOf f
  cases i
  case fadd | fsub => exact writesWithin_format rfl rfl (add_lt (hf _) ..)
  case fmul => exact writesWithin_format rfl rfl (mul_lt (hf _) ..)
  case fdiv => exact writesWithin_format rfl rfl (div_lt (hf _) ..)
  case fsqrt => exact writesWithin_format rfl rfl (sqrt_lt (hf _) ..)
  case fmad | fnmad => exact writesWithin_format rfl rfl (fma_lt (hf _) ..)
  case fmin | fmax => exact writesWithin_format rfl rfl (minmax_lt (hf _) ..)
  case fneg | fabs | fcpys => exact writesWithin_format rfl rfl (withSign_lt (hf _) ..)
  case feq | flt | fle => exact writesWithin_flag rfl rfl (fcompare_lt ..)
  case frnd => exact writesWithin_format rfl rfl (toIntegral_lt (hf _) ..)
  case fcvt => exact writesWithin_format rfl rfl (roundVal_lt (hf _) ..)
  case itof | ntof => exact writesWithin_format rfl rfl (round_lt (hf _) ..)
  case fclass d a f =>
    have hlt := fclass_lt (specOf f) (fval f (s.g a))
    refine ofNamed_some rfl ⟨word ((specOf f).fclass (fval f (s.g a))), noFlag, ?_, writesBits_result s d _⟩
    rwa [toNat_word (hlt.trans (by norm_num))]
  case ftoi | fton => exact writesWithin_word rfl rfl
  case b8tof =>
    refine writesWithin_format rfl rfl ?_
    split
    · exact nan_lt (hf _)
    · exact roundVal_lt (hf _) ..
  case ftob8 =>
    refine writesWithin_of_resultFp (n := 8) rfl (by decide) rfl ?_
    split
    · exact b8_nan_lt _
    · exact b8_encode_lt ..
  all_goals exact ofNamed_none rfl

/-- Settles O3: every instruction of the majors ends with a result whose bits lie within its format. -/
theorem floatingPointFrame : Obligations.FloatingPointFrame := fun i _ _ s => writesWithin s i _

end Sys2Proof.Proofs

/-! Exact zeros, infinities, invalid operations and NaNs of the arithmetic (06 R139, R140; 02 R48, R49). -/

namespace Sys2Proof.Proofs

open Sys2Proof.Machine Sys2Proof.Claims

-- The whole text is compiled as one file in bounded memory; one thread at a time needs the least of it.
set_option Elab.async false

theorem rat_eq_zero {n : Bool} {m : Nat} {e : Int} : rat n m e = 0 ↔ m = 0 := by
  cases n <;> simp [rat, zpow_ne_zero]

theorem rat_mul (n1 n2 : Bool) (m1 m2 : Nat) (e1 e2 : Int) : rat (n1 != n2) (m1 * m2) (e1 + e2) = rat n1 m1 e1 * rat n2 m2 e2 := by
  have : (2 : ℚ) ^ (e1 + e2) = 2 ^ e1 * 2 ^ e2 := zpow_add₀ (by norm_num) _ _
  cases n1 <;> cases n2 <;> simp [rat, this] <;> ring

theorem div_num {mode : RoundMode} {n1 n2 : Bool} {m1 m2 : Nat} {e1 e2 : Int} (f : FloatSpec) (h2 : m2 ≠ 0) :
    f.div mode (.num n1 m1 e1) (.num n2 m2 e2) =
      f.round mode (n1 != n2) (quotient f.prec m1 m2).1 (e1 - e2 - (quotient f.prec m1 m2).2) := by
  rw [FloatSpec.div, if_neg h2]

/-! ### Results that are known by their bits -/

section
variable {i : Instr} {s : State} {d : Reg} {f : FpFmt} {r : FRes} {neg : Bool}

theorem gives_zero (ho : exec i s = s.resultFp d r) (hr : r = ⟨(specOf f).zero neg, .none⟩) :
    WritesBits (exec i s) s d (withSign f neg 0) noFlag :=
  writesBits_resultFp ho (by rw [hr, withSign_eq]; rfl)

theorem inf_eq (f : FpFmt) (neg : Bool) : withSign f neg (infBits f) = (specOf f).inf neg := by
  cases f <;> cases neg <;> rfl

theorem gives_inf (ho : exec i s = s.resultFp d r) (hr : r = ⟨(specOf f).inf neg, .none⟩) :
    WritesBits (exec i s) s d (withSign f neg (infBits f)) noFlag :=
  writesBits_resultFp ho (by rw [hr, inf_eq]; rfl)

theorem gives_invalid (ho : exec i s = s.resultFp d r) (hr : r = (specOf f).invalid) :
    WritesBits (exec i s) s d (canonicalNan f) onlyNv :=
  writesBits_resultFp ho (by rw [hr, canonicalNan_eq]; rfl)

theorem gives_nan {sig : Bool} (ho : exec i s = s.resultFp d r) (hr : r = ⟨(specOf f).nan, { nv := sig }⟩) :
    WritesBits (exec i s) s d (canonicalNan f) { nv := sig } :=
  writesBits_resultFp ho (by rw [hr, canonicalNan_eq])

end

/-! ### Exact zeros -/

section
variable {mode : RoundMode} {n1 n2 n3 : Bool} {m1 m2 m3 : Nat} {e1 e2 e3 : Int} (f : FloatSpec)

theorem round_zero (mode : RoundMode) (neg : Bool) (e : Int) : f.round mode neg 0 e = ⟨f.zero neg, .none⟩ := if_pos rfl

/-- The sign of an exact zero sum. -/
noncomputable def zeroSumSign (mode : RoundMode) (n1 n2 : Bool) (m1 m2 : Nat) : Bool :=
  if m1 = 0 ∧ m2 = 0 ∧ n1 = n2 then n1 else decide (mode = .rd)

omit f in
theorem add_of_zero_sum (h : rat n1 m1 e1 + rat n2 m2 e2 = 0) :
    (FVal.num n1 m1 e1).add mode (.num n2 m2 e2) = some (.num (zeroSumSign mode n1 n2 m1 m2) 0 0) := by
  have heq := sumExact_eq n1 m1 e1 n2 m2 e2
  rw [h, mul_eq_zero, or_iff_left (by positivity), Int.cast_eq_zero] at heq
  exact if_pos heq

theorem addSpec_of_zero_sum (h : rat n1 m1 e1 + rat n2 m2 e2 = 0) :
    f.add mode (.num n1 m1 e1) (.num n2 m2 e2) = ⟨f.zero (zeroSumSign mode n1 n2 m1 m2), .none⟩ := by
  rw [FloatSpec.add, add_of_zero_sum h]
  exact round_zero f mode _ 0

omit f in
theorem zeroSumSign_zeros (mode : RoundMode) (n1 n2 : Bool) :
    zeroSumSign mode n1 n2 0 0 = if n1 = n2 then n1 else decide (mode = .rd) := by
  simp [zeroSumSign]

omit f in
theorem zeroSumSign_cancel (h : m1 ≠ 0) : zeroSumSign mode n1 n2 m1 m2 = decide (mode = .rd) :=
  if_neg fun hz => h hz.1

theorem mulSpec_num (mode : RoundMode) (h : m1 * m2 = 0) :
    f.mul mode (.num n1 m1 e1) (.num n2 m2 e2) = ⟨f.zero (n1 != n2), .none⟩ := by
  show f.round mode (n1 != n2) (m1 * m2) (e1 + e2) = _
  rw [h, round_zero]

theorem addSpec_inf_inf (mode : RoundMode) (neg : Bool) : f.add mode (.inf neg) (.inf neg) = ⟨f.inf neg, .none⟩ := by
  cases neg <;> rfl

theorem addSpec_inf_opposite (mode : RoundMode) (h : n1 ≠ n2) : f.add mode (.inf n1) (.inf n2) = f.invalid := by
  have hadd : (FVal.inf n1).add mode (.inf n2) = none := if_neg h
  rw [FloatSpec.add, hadd]; rfl

theorem quotient_zero (prec m2 : Nat) : (quotient prec 0 m2).1 = 0 := by simp [quotient]

end

/-! ### Fused sums: the exact product, and its sum with D -/

/-- A product that `FNMAD` negates. -/
noncomputable def negated (negate : Bool) (p : FVal) : FVal := if negate then p.neg else p

section
variable {f : FloatSpec} {mode : RoundMode} {negate : Bool} {x y z p : FVal} (hx : x.isNan = false) (hy : y.isNan = false)
include hx hy

theorem fma_of_invalid_product (h : x.mul y = none) : f.fma mode negate x y z = f.invalid := by
  rw [FloatSpec.fma, hx, hy, h]; rfl

omit hx hy in
theorem negated_isNan : (negated negate p).isNan = p.isNan := by cases negate <;> cases p <;> rfl

/-- Unless the product is invalid or D is a NaN, the fused instruction adds the product and D. -/
theorem fma_eq_add (h : x.mul y = some p) (hp : p.isNan = false) (hz : z.isNan = false) :
    f.fma mode negate x y z = f.add mode (negated negate p) z := by
  rw [FloatSpec.fma, hx, hy, h, FloatSpec.add, negated_isNan, hp, hz]; rfl

theorem fma_nan_third (h : x.mul y = some p) (hsx : x.signalling = false) (hsy : y.signalling = false) (sig : Bool) :
    f.fma mode negate x y (.nan sig) = ⟨f.nan, { nv := sig }⟩ := by
  have hflags : nanFlags [x, y, .nan sig] = { nv := sig } := by
    rw [nanFlags, List.any_cons, List.any_cons, List.any_cons, hsx, hsy, List.any_nil, Bool.or_false]; rfl
  rw [FloatSpec.fma, hx, hy, h, hflags]
  rfl

end

theorem negated_num (negate n : Bool) (m : Nat) (e : Int) : negated negate (.num n m e) = .num (negate != n) m e := by
  cases negate <;> simp [negated, FVal.neg]

theorem negated_inf (negate n : Bool) : negated negate (.inf n) = .inf (negate != n) := by
  cases negate <;> simp [negated, FVal.neg]

/-- Two values have a product, and neither is a NaN. -/
structure Product (f : FpFmt) (x y : Word) (p : FVal) : Prop where
  left  : (fval f x).isNan = false
  right : (fval f y).isNan = false
  value : (fval f x).mul (fval f y) = some p
  quiet : (fval f x).signalling = false ∧ (fval f y).signalling = false

section
variable {f : FpFmt} {x y : Word} {na nb : Bool} {m1 m2 : Nat} {e1 e2 : Int}

theorem product_num (ha : fval f x = .num na m1 e1) (hb : fval f y = .num nb m2 e2) :
    Product f x y (.num (na != nb) (m1 * m2) (e1 + e2)) := by
  exact ⟨by rw [ha]; rfl, by rw [hb]; rfl, by rw [ha, hb]; rfl, by rw [ha, hb]; exact ⟨rfl, rfl⟩⟩

theorem product_inf {B A : ℚ} (h : (IsInf f x na ∧ IsInf f y nb) ∨ (IsInf f x na ∧ IsNum f y nb B ∧ B ≠ 0) ∨
    (IsNum f x na A ∧ A ≠ 0 ∧ IsInf f y nb)) : Product f x y (.inf (na != nb)) := by
  obtain ⟨ha, hb⟩ | ⟨ha, ⟨m2, e2, hb, rfl⟩, h2⟩ | ⟨⟨m1, e1, ha, rfl⟩, h1, hb⟩ := h
  · rw [IsInf] at ha hb
    exact ⟨by rw [ha]; rfl, by rw [hb]; rfl, by rw [ha, hb]; rfl, by rw [ha, hb]; exact ⟨rfl, rfl⟩⟩
  · rw [IsInf] at ha
    exact ⟨by rw [ha]; rfl, by rw [hb]; rfl, by rw [ha, hb]; exact if_neg (rat_eq_zero.not.1 h2), by rw [ha, hb]; exact ⟨rfl, rfl⟩⟩
  · rw [IsInf] at hb
    exact ⟨by rw [ha]; rfl, by rw [hb]; rfl, by rw [ha, hb]; exact if_neg (rat_eq_zero.not.1 h1), by rw [ha, hb]; exact ⟨rfl, rfl⟩⟩

end

theorem zeroAndInfiniteResults : Sys2Proof.Claims.ZeroAndInfiniteResults := by
  intro d a b f m s na nb A B zero inf invalid sumSign
  refine ⟨?_, ?_, ?_, ?_, ?_⟩
  · rintro ⟨m1, e1, ha, rfl⟩ ⟨m2, e2, hb, rfl⟩
    refine ⟨?_, ?_, ?_, ?_, ?_, ?_, ?_, ?_, ?_⟩
    · intro h1 h2
      obtain rfl := rat_eq_zero.1 h1
      obtain rfl := rat_eq_zero.1 h2
      refine ⟨gives_zero rfl ?_, gives_zero rfl ?_⟩
      · rw [ha, hb, addSpec_of_zero_sum _ (by rw [h1, h2, add_zero]), zeroSumSign_zeros]
      · rw [ha, hb, FVal.neg, addSpec_of_zero_sum _ (by rw [rat_not, h1, h2, neg_zero, add_zero]), zeroSumSign_zeros]
    · intro h1 hsum
      refine gives_zero rfl ?_
      rw [ha, hb, addSpec_of_zero_sum _ hsum, zeroSumSign_cancel (rat_eq_zero.not.1 h1)]
    · intro h1 hsum
      rw [sub_eq_add_neg, ← rat_not] at hsum
      refine gives_zero rfl ?_
      rw [ha, hb, FVal.neg, addSpec_of_zero_sum _ hsum, zeroSumSign_cancel (rat_eq_zero.not.1 h1)]
    · intro hprod
      rw [← rat_mul, rat_eq_zero] at hprod
      exact gives_zero rfl (by rw [ha, hb, mulSpec_num _ _ hprod])
    · intro h1 h2
      obtain rfl := rat_eq_zero.1 h1
      exact gives_zero rfl (by rw [ha, hb, div_num _ (rat_eq_zero.not.1 h2), quotient_zero, round_zero])
    · intro h1 h2
      obtain rfl := rat_eq_zero.1 h2
      refine writesBits_resultFp rfl ?_
      rw [ha, hb, inf_eq]
      exact if_neg (rat_eq_zero.not.1 h1)
    · intro h1 h2
      obtain rfl := rat_eq_zero.1 h1
      obtain rfl := rat_eq_zero.1 h2
      exact gives_invalid rfl (by rw [ha, hb]; rfl)
    · intro h1
      obtain rfl := rat_eq_zero.1 h1
      exact gives_zero rfl (by rw [ha]; rfl)
    · intro h1
      have hm := rat_eq_zero.not.1 h1.ne
      cases na with
      | false => exact absurd h1 (not_lt.2 (rat_nonneg m1 e1))
      | true => exact gives_invalid rfl (by rw [ha]; exact if_neg hm)
  · rintro ha ⟨m2, e2, hb, rfl⟩
    rw [IsInf] at ha
    refine ⟨gives_inf rfl (by rw [ha, hb]; rfl), gives_inf rfl (by rw [ha, hb]; rfl), gives_inf rfl (by rw [ha, hb]; rfl), ?_, ?_⟩
    · intro h2
      refine gives_inf rfl ?_
      have hmul : (FVal.inf na).mul (.num nb m2 e2) = some (.inf (na != nb)) := if_neg (rat_eq_zero.not.1 h2)
      rw [ha, hb, FloatSpec.mul, hmul]; rfl
    · intro h2
      obtain rfl := rat_eq_zero.1 h2
      have hmul : (FVal.inf na).mul (.num nb 0 e2) = none := rfl
      exact ⟨gives_invalid rfl (by rw [ha, hb]; rfl), gives_invalid rfl (by rw [ha, hb, fma_of_invalid_product rfl rfl hmul]),
        gives_invalid rfl (by rw [ha, hb, fma_of_invalid_product rfl rfl hmul])⟩
  · rintro ⟨m1, e1, ha, rfl⟩ hb
    rw [IsInf] at hb
    refine ⟨gives_inf rfl (by rw [ha, hb]; rfl), gives_inf rfl (by rw [ha, hb]; rfl), gives_zero rfl (by rw [ha, hb]; rfl), ?_, ?_⟩
    · intro h1
      refine gives_inf rfl ?_
      have hmul : (FVal.num na m1 e1).mul (.inf nb) = some (.inf (na != nb)) := if_neg (rat_eq_zero.not.1 h1)
      rw [ha, hb, FloatSpec.mul, hmul]; rfl
    · intro h1
      obtain rfl := rat_eq_zero.1 h1
      have hmul : (FVal.num na 0 e1).mul (.inf nb) = none := rfl
      exact ⟨gives_invalid rfl (by rw [ha, hb]; rfl), gives_invalid rfl (by rw [ha, hb, fma_of_invalid_product rfl rfl hmul]),
        gives_invalid rfl (by rw [ha, hb, fma_of_invalid_product rfl rfl hmul])⟩
  · intro ha hb
    rw [IsInf] at ha hb
    refine ⟨gives_inf rfl (by rw [ha, hb]; rfl), gives_invalid rfl (by rw [ha, hb]; rfl), ?_, ?_⟩
    · rintro rfl
      exact ⟨gives_inf rfl (by rw [ha, hb, addSpec_inf_inf]),
        gives_invalid rfl (by rw [ha, hb, FVal.neg, addSpec_inf_opposite _ _ (Bool.not_ne_self na).symm])⟩
    · intro hne
      have hnot : (!nb) = na := (Bool.eq_not_of_ne hne).symm
      exact ⟨gives_invalid rfl (by rw [ha, hb, addSpec_inf_opposite _ _ hne]),
        gives_inf rfl (by rw [ha, hb, FVal.neg, hnot, addSpec_inf_inf])⟩
  · intro ha
    rw [IsInf] at ha
    constructor
    · rintro rfl
      exact gives_invalid rfl (by rw [ha]; rfl)
    · rintro rfl
      exact gives_inf rfl (by rw [ha]; rfl)

section
variable {f : FpFmt} {m : RoundMode} {s : State} {d a b : Reg} {p : FVal}

/-- `FMAD` and `FNMAD` of a product add it, or its negative, and D. -/
theorem fused_eq_add (h : Product f (s.g a) (s.g b) p) (hp : p.isNan = false) (hd : (fval f (s.g d)).isNan = false) (negate : Bool) :
    (specOf f).fma m negate (fval f (s.g a)) (fval f (s.g b)) (fval f (s.g d)) = (specOf f).add m (negated negate p) (fval f (s.g d)) :=
  fma_eq_add h.left h.right h.value hp hd

end

theorem fusedZerosInfinitiesAndNans : Sys2Proof.Claims.FusedZerosInfinitiesAndNans := by
  intro d a b f m s na nb nd A B D zero inf invalid nan sumSign plus minus sign finite infinite
  refine ⟨?_, ?_, ?_, ?_, ?_⟩
  · rintro ⟨⟨m1, e1, ha, rfl⟩, ⟨m2, e2, hb, rfl⟩⟩ ⟨m3, e3, hd, rfl⟩
    have hadd (negate : Bool) : (specOf f).fma m negate (fval f (s.g a)) (fval f (s.g b)) (fval f (s.g d)) =
        (specOf f).add m (.num (negate != sign) (m1 * m2) (e1 + e2)) (.num nd m3 e3) := by
      rw [fused_eq_add (product_num ha hb) rfl (by rw [hd]; rfl), negated_num, hd]
    rw [← rat_mul]
    refine ⟨fun h h3 => ?_, fun h hsum => gives_zero rfl ?_, fun h hsum => gives_zero rfl ?_⟩
    · have h' (n : Bool) : rat n (m1 * m2) (e1 + e2) + rat nd m3 e3 = 0 := by
        rw [rat_eq_zero.2 (rat_eq_zero.1 h), h3, add_zero]
      have hsign (n : Bool) : zeroSumSign m n nd (m1 * m2) m3 = sumSign n nd := by
        rw [rat_eq_zero.1 h, rat_eq_zero.1 h3, zeroSumSign_zeros]
      exact ⟨gives_zero rfl (by rw [hadd, addSpec_of_zero_sum _ (h' _), hsign, Bool.false_bne]),
        gives_zero rfl (by rw [hadd, addSpec_of_zero_sum _ (h' _), hsign, Bool.true_bne])⟩
    · rw [hadd, Bool.false_bne, addSpec_of_zero_sum _ hsum, zeroSumSign_cancel (rat_eq_zero.not.1 h)]
    · rw [sub_eq_neg_add, ← rat_not] at hsum
      rw [hadd, Bool.true_bne, addSpec_of_zero_sum _ hsum, zeroSumSign_cancel (rat_eq_zero.not.1 h)]
  · rintro ⟨⟨m1, e1, ha, rfl⟩, ⟨m2, e2, hb, rfl⟩⟩ hd
    rw [IsInf] at hd
    have hadd (negate : Bool) := fused_eq_add (m := m) (d := d) (product_num ha hb) rfl (by rw [hd]; rfl) negate
    simp only [negated_num, hd] at hadd
    exact ⟨gives_inf rfl (by rw [hd, hadd]; rfl), gives_inf rfl (by rw [hd, hadd]; rfl)⟩
  · rintro hab ⟨m3, e3, hd, rfl⟩
    have hadd (negate : Bool) := fused_eq_add (m := m) (d := d) (product_inf hab) rfl (by rw [hd]; rfl) negate
    simp only [negated_inf, hd] at hadd
    exact ⟨gives_inf rfl (by rw [hd, hadd, Bool.false_bne]; rfl), gives_inf rfl (by rw [hd, hadd, Bool.true_bne]; rfl)⟩
  · rintro hab hd
    rw [IsInf] at hd
    have hadd (negate : Bool) := fused_eq_add (m := m) (d := d) (product_inf hab) rfl (by rw [hd]; rfl) negate
    simp only [negated_inf, hd] at hadd
    refine ⟨fun heq => ⟨gives_inf rfl ?_, gives_invalid rfl ?_⟩, fun hne => ⟨gives_invalid rfl ?_, gives_inf rfl ?_⟩⟩
    · rw [hd, hadd, Bool.false_bne]
      exact heq ▸ addSpec_inf_inf _ _ _
    · rw [hd, hadd, Bool.true_bne]
      exact addSpec_inf_opposite _ _ (heq ▸ Bool.not_ne_self _)
    · rw [hd, hadd, Bool.false_bne]
      exact addSpec_inf_opposite _ _ hne
    · rw [hd, hadd, Bool.true_bne, show (!(na != nb)) = nd from (Bool.eq_not_of_ne (Ne.symm hne)).symm]
      exact addSpec_inf_inf _ _ _
  · intro hab sig hd
    obtain ⟨p, hp⟩ : ∃ p, Product f (s.g a) (s.g b) p := by
      obtain ⟨⟨m1, e1, ha, -⟩, ⟨m2, e2, hb, -⟩⟩ | hab := hab
      · exact ⟨_, product_num ha hb⟩
      · exact ⟨_, product_inf hab⟩
    have hnan (negate : Bool) := fma_nan_third (f := specOf f) (mode := m) (negate := negate) hp.left hp.right hp.value hp.quiet.1 hp.quiet.2 sig
    have hflags : (if sig then onlyNv else noFlag) = { nv := sig } := by cases sig <;> rfl
    show WritesBits _ s d (canonicalNan f) _ ∧ WritesBits _ s d (canonicalNan f) _
    rw [hflags]
    exact ⟨gives_nan rfl (by rw [hd]; exact hnan false), gives_nan rfl (by rw [hd]; exact hnan true)⟩

/-! ### NaN operands -/

section
variable {x y z : FVal} (f : FloatSpec) (mode : RoundMode)

theorem neg_isNan (x : FVal) : x.neg.isNan = x.isNan := by cases x <;> rfl

theorem neg_signalling (x : FVal) : x.neg.signalling = x.signalling := by cases x <;> rfl

theorem nanFlags_two (x y : FVal) : nanFlags [x, y] = { nv := x.signalling || y.signalling } := by
  simp [nanFlags]

theorem addSpec_nan (h : x.isNan = true ∨ y.isNan = true) : f.add mode x y = ⟨f.nan, { nv := x.signalling || y.signalling }⟩ := by
  rw [FloatSpec.add, if_pos (by rwa [Bool.or_eq_true]), nanFlags_two]

theorem mulSpec_nan (h : x.isNan = true ∨ y.isNan = true) : f.mul mode x y = ⟨f.nan, { nv := x.signalling || y.signalling }⟩ := by
  rw [FloatSpec.mul, if_pos (by rwa [Bool.or_eq_true]), nanFlags_two]

theorem divSpec_nan (h : x.isNan = true ∨ y.isNan = true) : f.div mode x y = ⟨f.nan, { nv := x.signalling || y.signalling }⟩ := by
  cases x with
  | nan q => rfl
  | inf n =>
    cases y with
    | nan q => rfl
    | inf _ | num _ _ _ => exact absurd h (by simp [FVal.isNan])
  | num n m e =>
    cases y with
    | nan q => rfl
    | inf _ | num _ _ _ => exact absurd h (by simp [FVal.isNan])

theorem fmaSpec_nan (negate : Bool) (h : x.isNan = true ∨ y.isNan = true) :
    f.fma mode negate x y z = ⟨f.nan, { nv := (x.signalling || y.signalling) || z.signalling }⟩ := by
  rw [FloatSpec.fma, if_pos (by rwa [Bool.or_eq_true])]
  simp [nanFlags, Bool.or_assoc]

end

theorem nanOperandsGiveTheCanonicalNan : Sys2Proof.Claims.NanOperandsGiveTheCanonicalNan := by
  intro d a b f t m s gives sig2
  have hsig3 : sig2 ∨ IsSnan f (s.g d) ↔
      ((fval f (s.g a)).signalling || (fval f (s.g b)).signalling || (fval f (s.g d)).signalling) = true := by
    rw [Bool.or_eq_true, ← isSnan_or_iff, ← isSnan_iff]
  refine ⟨fun h => ?_, fun h => ?_⟩
  · have hnan := h
    rw [isNan_iff, isNan_iff] at hnan
    refine ⟨writesBits_nv isSnan_or_iff (gives_nan rfl (addSpec_nan _ _ hnan)),
      writesBits_nv isSnan_or_iff (gives_nan rfl ?_),
      writesBits_nv isSnan_or_iff (gives_nan rfl (mulSpec_nan _ _ hnan)),
      writesBits_nv isSnan_or_iff (gives_nan rfl (divSpec_nan _ _ hnan)),
      writesBits_nv hsig3 (gives_nan rfl (fmaSpec_nan _ _ _ hnan)), writesBits_nv hsig3 (gives_nan rfl (fmaSpec_nan _ _ _ hnan))⟩
    rw [addSpec_nan _ _ (by rwa [neg_isNan]), neg_signalling]
  · obtain ⟨q, hv⟩ := h
    have hsig : IsSnan f (s.g a) ↔ q = true := by rw [isSnan_iff, hv]; rfl
    refine ⟨writesBits_nv hsig (gives_nan rfl (by rw [hv]; rfl)), writesBits_nv hsig (gives_nan rfl (by rw [hv]; rfl)),
      writesBits_nv hsig (gives_nan rfl (by rw [hv]; rfl))⟩

/-- Settles O5: each result by the case of its operands, the fused ones as the sum of the exact product and D. -/
theorem zeroInfinityAndNanResults : Obligations.ZeroInfinityAndNanResults :=
  ⟨zeroAndInfiniteResults, fusedZerosInfinitiesAndNans, nanOperandsGiveTheCanonicalNan⟩

end Sys2Proof.Proofs
